-- ==== Sys2Proof/Word.lean ====
section
/-! DEFINITION. The words of the CX-9600's interface: bytes, multi-byte fields, device time and the
numbers of tiles, hosts, casements and sectors (spec/00_scope.md). -/

namespace Sys2Proof

/-- One byte of a descriptor, an image, a packet or an addressed store. -/
abbrev Byte := BitVec 8

/-- Device time in nanoseconds (R405): a 64-bit count. -/
abbrev Time := BitVec 64

/-- Tile number, 0 to 95 (R4). -/
abbrev TileId := Fin 96

/-- Host number, 0 to 7 (R262). -/
abbrev HostId := Fin 8

/-- Casement identifier, 0 to 31 (glossary of spec/00_scope.md). -/
abbrev CaseId := Fin 32

/-- Sector number, 0 to 3 (R4). -/
abbrev SectorId := Fin 4

/-- Sparse data by key: strictly rising keys; what an unlisted key reads as is said where the map is read. -/
abbrev Map (α : Type) := List (Nat × α)

end Sys2Proof
end

