-- ==== Sys2Proof/Syntax.lean ====
section
/-! DEFINITION. The commands of the block: one constructor of Instr for each row of
spec/opcode_table.json, with the operands that the world outside the device supplies.
Descriptor commands carry the descriptor (R14) and what the host's memory answers; event
commands carry the tile or unit at which the event falls and the outside quantities that
decide it (levels, voltages, received bytes, counts of waited clock edges). -/

namespace Sys2Proof

/-- A descriptor (R14, R280). Its opcode byte picks the command (R294). -/
structure Desc where
  /-- byte 0 -/
  op : Byte
  /-- byte 1 -/
  flags : Byte
  /-- bytes 2-3 -/
  target : BitVec 16
  /-- bytes 4-7 -/
  tag : BitVec 32
  /-- bytes 8-15 -/
  addrA : BitVec 64
  /-- bytes 16-23 -/
  addrB : BitVec 64
  /-- bytes 24-27 -/
  length : BitVec 32
  /-- bytes 28-63; bit 0 is bit 0 of byte 28 -/
  body : BitVec 288
  deriving DecidableEq, Repr

/-- What the issuing host's memory answers while a descriptor runs (R263, R284). -/
structure HostIo where
  /-- the bytes that a read at host address A returns -/
  dataA : List Byte
  /-- the bytes that a read at host address B returns -/
  dataB : List Byte
  /-- false: an access to host address A or B fails as R276 defines it -/
  bufOk : Bool
  /-- false: the journal that a replay reads through host address A cannot be read beyond `dataA` (R394) -/
  srcOk : Bool
  /-- false: the write of the completion record fails (R284 reason 4) -/
  recOk : Bool
  deriving DecidableEq, Repr

/-- A descriptor fetched from a ring of a host and arrived at its destination. -/
structure Req where
  /-- the issuing host -/
  host : HostId
  /-- context of the submission ring, or none for the admin submission ring -/
  ring : Option (BitVec 16)
  /-- the descriptor's number among all that the device has fetched (MODEL) -/
  seq : Nat
  d : Desc
  io : HostIo
  deriving DecidableEq, Repr

/-- A packet (R238): the header that every flit carries, and 64 data bytes for each flit. -/
structure Packet where
  hdr : BitVec 64
  data : List Byte
  deriving DecidableEq, Repr

/-- A flit on a link (R238): header lane, 64 data bytes, VC, dateline class and the last-flit mark. -/
structure Flit where
  hdr : BitVec 64
  data : List Byte
  vc : Fin 4
  cls : Fin 2
  last : Bool
  deriving DecidableEq, Repr

/-- Where a router takes a flit from: a link, over which comes what the router at its other end sends, or the service at its
fifth port (R235, R241). -/
inductive FlitFrom where
  | link (port : Fin 4)
  | service (f : Flit)
  deriving DecidableEq, Repr

/-- A unit of a protected store (R55): what one check of its SEC-DED code covers. The code of R69 of each store is the
place of its constructor. -/
inductive StoreUnit where
  /-- a word of the instruction store of BP 32c + m -/
  | instruction (bp step : Fin 1024)
  /-- a word of the exchange store of a BP cluster -/
  | exchange (cluster : Fin 32) (step : Fin 1024)
  /-- an entry of a cluster's copy of the function dictionary -/
  | dictionary (cluster : Fin 32) (entry : Fin 4096)
  /-- a row of 32 local slots of BP 32c + m -/
  | slotRow (bp : Fin 1024) (row : Fin 12)
  /-- a word of a block of emulated memory -/
  | memory (block : Fin 8) (word : Fin 2048)
  deriving DecidableEq, Repr

/-- A datapath of a BP cluster with parity (R55), in the order of codes 5 to 7 of R69. -/
inductive ParityPath where
  | clusterLane | exchangeWires | memoryPort
  deriving DecidableEq, Repr

/-- A fault in a tile's stores or datapaths that is there when a step or a scrub looks (R55 to R57). -/
inductive StoreFault where
  /-- a single-bit error -/
  | corrected (u : StoreUnit)
  /-- a double-bit error -/
  | doubleBit (u : StoreUnit)
  /-- a parity failure in a BP cluster's datapath -/
  | parity (p : ParityPath) (cluster : Fin 32)
  /-- a residue failure: of the step counter, or of the emulated-cycle counter -/
  | residue (cycleCounter : Bool)
  deriving DecidableEq, Repr

/-- What a barrier hub receives (R84, R88). -/
inductive GatherWire where
  /-- the ARRIVE wire of a tile toggles -/
  | arrive (t : TileId)
  /-- the SECTOR_DONE wire from the hub of a sector toggles -/
  | sectorDone (k : SectorId)
  /-- a toggle that fails the dual-rail check, with its wire index of R101 -/
  | dualRail (wire : BitVec 16)
  deriving DecidableEq, Repr

/-- What the board does at a digital pad (R135). -/
inductive PadDrive where
  /-- an external driver or the board's resistor sets this level; strong: a driver, not a resistor -/
  | level (high strong : Bool)
  /-- nothing outside drives or pulls the pad -/
  | open_
  deriving DecidableEq, Repr

/-- What host memory gives a doorbell poll (R273, R276), and which rings the device cannot reach from this poll to the next
(R284 reasons 3 and 4). -/
structure PollReads where
  /-- for an address of the doorbell block, the bytes that a read at it returns; a read at any other address fails -/
  mem : List (BitVec 64 × List Byte)
  /-- submission rings whose descriptors cannot be read; none is the admin ring -/
  noFetch : List (Option (BitVec 16))
  /-- completion and event rings whose memory cannot be written; none is the admin ring -/
  noWrite : List (Option (BitVec 16))
  deriving DecidableEq, Repr

/-- A 66-bit block of the bulk stream port: its sync header, and the 64 bits after it, bit 0 first (R301). -/
structure LinkBlock where
  sync : BitVec 2
  bits : BitVec 64
  deriving DecidableEq, Repr

/-- The supplies of the device (R426, R436), in the code order of PWR_STATUS byte 97. -/
inductive Supply where
  | vaux | vcore | vsram | van
  deriving DecidableEq, Repr

/-- What an upset or a power failure leaves of records in MRAM, as a power-up finds them (R232, R332, R406). -/
inductive MramHarm where
  /-- the CRC of copy A or B of a tile's calibration block fails -/
  | calUpset (t : TileId) (b : Bool)
  /-- the CRC of copy A or B of the anti-rollback counters fails -/
  | rollUpset (b : Bool)
  /-- a commit of these counters was cut off before its mark -/
  | rollCut
  /-- the CRC of copy A or B of a tile's repair map fails -/
  | repairUpset (t : TileId) (b : Bool)
  /-- a commit of a tile's repair map was cut off before its mark -/
  | repairCut (t : TileId)
  /-- the CRC of copy A or B of the recorder state block fails -/
  | recUpset (b : Bool)
  /-- a commit of that block was cut off before its mark -/
  | recCut
  /-- the writing of a record was cut off -/
  | recordCut
  /-- the CRC of a unit of the time ring fails -/
  | ringUpset (u : Fin 1024)
  /-- the writing of the next unit of the time ring was cut off -/
  | ringCut
  deriving DecidableEq, Repr

/-- Which output an analogue current limit concerns (R154, R167). -/
inductive AnOutput where
  | cell (k : Fin 8)
  | refTap (net : Fin 32)
  deriving DecidableEq, Repr

/-- What the world outside gives while the device reads an analogue level, in nV (R153, R156, R160). -/
structure AnalogIn where
  /-- VAN -/
  van : Nat
  /-- the tile's VREF_INT, which R160 keeps within 0.25 % of 1.250 V -/
  vrefInt : Nat
  /-- AREF_s of the tile's sector -/
  aref : Nat
  /-- levels of the external sources at analogue pins, by pin index; a pin not listed has none -/
  pins : List (Nat × Nat)
  /-- what a cell's past or its outside loop adds, by 8 × tile + cell: the integral of INP − INN in nV·ns since the
  control input of an integrator was last 1, the deviation from VMID that a biquad's input history leaves, INP − INN as a
  track-and-hold last tracked it, or the drop from an excitation buffer's OUT to its sense terminal; 0 where not listed -/
  past : List (Nat × Int)
  /-- the error of the reading: at a converter in codes (R170), at a comparator's input in nV (R202) -/
  err : Int
  /-- the error of a comparator's hysteresis, in thousandths (R202) -/
  hystErr : Int
  deriving DecidableEq, Repr

/-- Reference levels of a tile (R160), and the VAN reference of R183. -/
inductive RefLevel where
  | vrefInt | vrefExt | vmid | van
  deriving DecidableEq, Repr

/-- A source of shutter motion: a SHUTTER packet opens or closes (R256). -/
inductive ShutterOp where
  | close | open_
  deriving DecidableEq, Repr

/-- The shutters: one per tile, and one at each of the four service ports (R256). -/
inductive ShutterId where
  | tile (t : TileId)
  | service (p : Fin 4)
  deriving DecidableEq, Repr

/-- The result of a march test (R373, R374). -/
structure MarchResult where
  /-- the retest passes -/
  pass : Bool
  /-- failing structure, by the codes of R69 -/
  failing : Byte
  /-- instruction-store rows of 32 words that fail: BP index, row -/
  istoreRows : List (Fin 1024 × Fin 32)
  /-- rows of 32 local slots that fail: BP index, row -/
  slotRows : List (Fin 1024 × Fin 12)
  deriving DecidableEq, Repr

/-- The commands of the CX-9600: descriptors from hosts, and events of its wires, clocks, ports and packets. -/
inductive Instr where
  -- emulated cycles (02, 03)
  | programmeStep (t : TileId) (seen : List StoreFault)
  | gather (hub : SectorId) (c : CaseId) (w : GatherWire)
  | lintelClose (t : TileId)
  | lintelRelease (t : TileId)
  | bundleArrival (t : TileId) (p : Packet)
  | stallTimeout (t : TileId)
  | sysrefLoss
  | sysrefReturn
  | generatorUnlock (t : TileId)
  | generatorRelock (t : TileId)
  | clockFailed (t : TileId)
  | configScan (t : TileId) (q : Fin 16) (good : Bool)
  | tcWatchdogExpiry (t : TileId)
  | tcRestartDone (t : TileId) (bootOk : Bool)
  | autoRetire (t : TileId)
  -- fabric (04)
  | fabricRamPortAAccess (t : TileId) (q : Fin 16) (upsets : List (Nat × Byte)) (meetsPortB : Bool) (broken : Option (Fin 32768))
  | fabricClockRestart (t : TileId) (k : Fin 4)
  -- pins (05)
  | pinSwitchSettle (t : TileId) (n : Fin 12)
  -- comparators, timers, converters (07, 08)
  | comparatorCrossing (t : TileId) (k : Fin 16) (w : AnalogIn) (writeOk : Bool)
  | cmpSampleTick (t : TileId) (k : Fin 16) (w : AnalogIn) (writeOk : Bool)
  | timerCompare (t : TileId) (k : Fin 8)
  | timerWrap (t : TileId) (k : Fin 8)
  | timerOneShotEnd (t : TileId) (k : Fin 8)
  | timerSourceEdge (t : TileId) (k : Fin 8)
  | triggerDelayExpiry (t : TileId)
  | conversionIssue (t : TileId)
  | conversionComplete (t : TileId) (slice : Fin 4) (w : AnalogIn)
  | injSourceEdge (t : TileId) (j : Fin 4)
  | accSnapEdge (t : TileId) (a : Fin 32)
  | designEventEdge (t : TileId) (src : BitVec 12)
  -- analogue (06)
  | currentLimitExpiry (t : TileId) (o : AnOutput)
  | referenceSettled (t : TileId) (l : RefLevel)
  | arefRangeChange (sec : SectorId) (inRange : Bool)
  | anSwitchClose (t : TileId)
  | anOutClose (t : TileId)
  -- host interface (11)
  | hostEnable (h : HostId)
  | hostDisable (h : HostId)
  | quiesce (h : HostId)
  | quiesceClear (h : HostId)
  | registerWrite (h : HostId) (offset : Fin 65536) (wide : Bool) (value : BitVec 64)
  | deviceReady
  | doorbellPoll (h : HostId) (rd : PollReads)
  | msixModTimeExpiry (h : HostId) (ring : Option (BitVec 16))
  | reservedOpcode (op : Byte) (q : Req)
  | nop (q : Req)
  | ringCreate (q : Req)
  | ringDelete (q : Req)
  | ringModerate (q : Req)
  | ringQuery (q : Req)
  | ringAssign (q : Req)
  | stewardHandover (q : Req)
  | hostStatus (q : Req)
  -- configuration (13)
  | cfgLoad (q : Req)
  | imageData (bytes : List Byte) (ended : Bool)
  | loadPauseTimeout (c : CaseId)
  | loadPass2Start
  | fetchTimeout
  | startUpStep (c : CaseId)
  | startUpLockTimeout (c : CaseId)
  | cfgStatus (q : Req)
  | cfgKeyProgram (q : Req)
  | cfgKeyRevoke (q : Req)
  -- casements (14)
  | caseCreate (q : Req)
  | caseDissolve (q : Req)
  | caseOwner (q : Req)
  | caseReset (q : Req)
  | casePolicy (q : Req)
  | casePinAssign (q : Req)
  | rolePromote (q : Req)
  | backgroundCopyDone
  | roleRetire (q : Req)
  | tileRetest (q : Req)
  | tileRepair (q : Req)
  | tcFwLoad (q : Req)
  | tcFwActivate (q : Req)
  | caseStatus (q : Req)
  | tileStatus (q : Req)
  -- BP state and lintels (02, 03)
  | bpPeek (q : Req)
  | bpPoke (q : Req)
  | memPeek (q : Req)
  | memPoke (q : Req)
  | scheduleInfo (q : Req)
  | storeStatus (q : Req)
  | cycleRate (q : Req)
  | cyclePause (q : Req)
  | cycleStep (q : Req)
  | boundaryPeek (q : Req)
  | lintelStatus (q : Req)
  -- pin descriptors and windows (05)
  | pinWrite (q : Req)
  | pinRead (q : Req)
  | pinSetup (q : Req)
  | pinLine (q : Req)
  | pinLock (q : Req)
  | pinStatus (q : Req)
  | pinWindowStore (t : TileId) (mask : BitVec 12) (word : BitVec 32)
  | pinLockWrite (t : TileId) (word : BitVec 32)
  -- analogue descriptors (06)
  | anCellSet (q : Req)
  | anNetSet (q : Req)
  | anPinSet (q : Req)
  | anStatus (q : Req)
  -- comparator and timer descriptors (08)
  | cmpSet (q : Req)
  | cmpEvbind (q : Req)
  | cmpCheck (q : Req)
  | tmSet (q : Req)
  | tmArm (q : Req)
  | tmRead (q : Req)
  | ctStatus (q : Req)
  -- converter descriptors (07)
  | cvSetup (q : Req)
  | cvSeqSet (q : Req)
  | cvInjSet (q : Req)
  | cvStart (q : Req)
  | cvInject (q : Req)
  | cvAccSet (q : Req)
  | cvAccRead (q : Req)
  | cvTrkRead (q : Req)
  | cvSnap (q : Req)
  | cvStatus (q : Req)
  -- calibration descriptors (09)
  | calCapture (q : Req)
  | calCompute (q : Req)
  | calCellZero (q : Req)
  | calSlice (q : Req)
  | calLimits (q : Req)
  | calRead (q : Req)
  -- fabric descriptors (04)
  | fabricRamRead (q : Req)
  | fabricRamWrite (q : Req)
  | fabricStatus (q : Req)
  | fabricClock (q : Req)
  -- bulk stream descriptors (12)
  | bspLink (q : Req)
  | bspStatus (q : Req)
  | bspStreamBind (q : Req)
  | bspExportSet (q : Req)
  | bspStreamReset (q : Req)
  | bspOutSet (q : Req)
  | bspTrainingTimeout
  -- journal (15)
  | jnlControl (q : Req)
  | jnlExport (q : Req)
  | jnlRead (q : Req)
  | jnlStatus (q : Req)
  | jnlCheckpoint (q : Req)
  | jnlMark (q : Req)
  | jnlShadow (q : Req)
  | jnlReplay (q : Req)
  | checkpointDrainDone (c : CaseId)
  -- recorder (16)
  | recRead (q : Req)
  | recStatus (q : Req)
  | recTimeSet (q : Req)
  | recPost (q : Req)
  | recLimit (q : Req)
  | recNotify (q : Req)
  | recDesignBind (q : Req)
  | eventPost (i : Nat) (writeOk : Bool)
  | rateLimitRefill (code : BitVec 12)
  | timeRingWrite
  -- power (17)
  | pwrState (q : Req)
  | pwrSleep (q : Req)
  | pwrReset (q : Req)
  | pwrStatus (q : Req)
  -- network (10)
  | netRouterStatus (q : Req)
  | netRoleRead (q : Req)
  | netProbe (q : Req)
  | netLinkRetrain (q : Req) (comesUp : Bool)
  | netProbeTimeout
  | packetInject (t : TileId) (p : Packet)
  | flitReceive (t : TileId) (src : FlitFrom) (crcGood : Bool)
  | bounce (t : TileId) (p : Packet) (q : Option Req) (kept : List Byte)
  | roleUpdate (t : TileId)
  | roleUpdateAck (t : TileId)
  | epochSwitch (t : TileId)
  | epochSwitchAck (t : TileId)
  | drainQuery (t : TileId)
  | drainReport (t : TileId)
  | shutter (i : ShutterId) (op : ShutterOp)
  | shutterFenceHolds (i : ShutterId)
  | tcReady (i : ShutterId)
  | shutterAck (i : ShutterId)
  | shutterStalled (i : ShutterId)
  | probe (t : TileId) (p : Packet)
  | probeReply (p : Packet) (cycles : BitVec 32)
  -- bulk stream port (12)
  | bspSegmentReceive (blocks : List LinkBlock)
  | bspCredit (b : LinkBlock)
  | bspAck (b : LinkBlock)
  | bspNak (b : LinkBlock)
  | bspAlign (lane : Fin 8) (b : LinkBlock)
  | laneLockLoss (lane : Fin 8)
  | bspLinkUp (lanes : List (List LinkBlock))
  | bspSegmentSend (stream : Fin 16)
  -- power events (17)
  | holdEntry (c : CaseId)
  | holdExit (c : CaseId) (vio : List Nat)
  | dozeExit (c : CaseId)
  | sleepPowerOff
  | sleepAlarm
  | sleepWake (vio : List Nat)
  | coldReset (supply : Option (Supply × Nat)) (harms : List MramHarm)
  | pinReset
  | deviceResetStart
  | resetEnd (stewardSel : BitVec 2) (vio : List Nat)
  | portReset (portB : Bool)
  | functionReset (h : HostId)
  | vioLoss (t : TileId)
  | serdesSupplyLoss
  -- events of pads, clocks and supplies
  | padInputChange (t : TileId) (n : Fin 12) (drive : PadDrive)
  | fabricClockEdge (t : TileId) (ks : BitVec 4) (rising : Bool) (broken : List (Fin 2048))
  | serdesSupplyReturn
  | generatorLocked (t : TileId)
  | marchTestDone (t : TileId) (r : MarchResult)
  | cmpCheckEnd (t : TileId) (k : Fin 16) (observed : Bool)
  | calCellZeroEnd (t : TileId)
  deriving DecidableEq, Repr

end Sys2Proof
end

