-- ==== Sys2Proof/Decode.lean ====
section
/-! DEFINITION. The command that a word spells. The operation table of the CX-9600 gives no row any bits
(a row is an event or a descriptor that the world sends), so no word spells a command. -/

namespace Sys2Proof

/-- The command spelled by a word of the table's bits: none, since no row has bits. -/
def decodeTableWord (_nbits _w : Nat) : Option Instr := none

end Sys2Proof
end

