-- ==== Sys2Proof/Config.lean ====
section
/-! DEFINITION. What one implementation fixes and what the spec leaves open. A free value is an
opaque constant with no body: nothing can evaluate it, and a claim holds whatever it is. The first
argument is the model's own counter of free values (State.fresh) or an operand; the second tells
apart the places that read a free value at one count. -/

namespace Sys2Proof.Config

/-- An open bit: an undefined pad level (R135), a sample near a release edge or a metastable
flip-flop (R90, R119), a combinational loop (R113), a fabric RAM row read as port B writes it
(R117). Assumption 3. -/
opaque freeBit : Nat → Nat → Bool

/-- An open number: a time inside a stated bound (R454), a level that nothing drives (R161),
undefined read data (R119). Assumption 3. -/
opaque freeNat : Nat → Nat → Nat

/-- What a biquad adds to VMID, from its AC_BQTYPE, AC_Q, AC_FREQ and its input history (R156): the spec names the filter and
states no output for a given history. Assumption 9. -/
opaque biquad : Nat → Nat → Nat → Int → Int

/-- The device serial number in OTP (R348, R349): the spec gives no value. Assumption 5. -/
opaque serial : BitVec 64

/-- The hash of the vendor firmware key in OTP (R375): the spec gives no value. Assumption 5. -/
opaque firmwareKeyHash : List Byte

/-- Whether an OTP content key 0 or 1 is programmed, and its 32 bytes (R330). Assumption 5. -/
opaque contentKey : Nat → Option (List Byte)

/-- The OTP field STEWARD_FIX (R288), programmed or not. Shipped parts differ; the reset state takes
it as not programmed. -/
def stewardFix : Option HostId := none

/-- Identity of every function: vendor, device and revision of stepping A0, class code, and the subsystem IDs as shipped
(R261). Capability structures of the PCI Express specification are outside this model (assumption 5). -/
def vendorId : Nat := 0x1F7B
def deviceId : Nat := 0x9600
def stepping : Nat := 0
def revisionId : Nat := 0x00
def classCode : Nat := 0x118000
def subsystemVendor : Nat := 0x1F7B
def subsystemId : Nat := 0x9600

/-- Functions of each PCIe port, FUNCS_A and FUNCS_B: shipped with 4 (R261). -/
def functionsPerPort : Nat := 4

/-- Factory trim codes in OTP, for a tile and a trim number (R219): the spec gives no value. Assumption 5. -/
opaque factoryTrim : Nat → Nat → BitVec 8

/-- Spare rows that the factory map in OTP uses (R374), of a BP of a tile: of its instruction store, modulo 3, and of its local slots,
modulo 2. The spec gives no value. Assumption 5. -/
opaque factoryRows : Nat → Nat → Nat
opaque factorySlotRows : Nat → Nat → Nat

/-- The version of a tile-controller firmware image, read from its bytes (R375): the spec gives no
layout of that image. Assumption 6. -/
opaque firmwareVersion : List Byte → Nat

/-- Whether the signature of a tile-controller firmware image verifies under the vendor key whose hash
OTP holds (R375): the spec gives no layout of that image. Assumption 6. -/
opaque firmwareSigned : List Byte → Bool

end Sys2Proof.Config
end

