-- ==== Sys2Proof/Machine/Bits.lean ====
section
/-! DEFINITION. Byte order, bit fields, check sums and the fields of a descriptor. -/

namespace Sys2Proof.Machine

/-- The n low bytes of a number, least significant first (R7). -/
def leBytes : Nat → Nat → List Byte
  | 0, _ => []
  | n + 1, v => BitVec.ofNat 8 v :: leBytes n (v / 256)

/-- The number that bytes hold, least significant first (R7). -/
def leNat : List Byte → Nat
  | [] => 0
  | b :: r => b.toNat + 256 * leNat r

/-- n bytes of a string from an offset. -/
def slice (l : List Byte) (off n : Nat) : List Byte := (l.drop off).take n

/-- A little-endian field of n bytes at an offset. -/
def fieldAt (l : List Byte) (off n : Nat) : Nat := leNat (slice l off n)

/-- The byte at an offset, 0 past the end. -/
def byteAt (l : List Byte) (i : Nat) : Nat := (l.getD i 0).toNat

/-- Bits [lo + n - 1 : lo] of a number. -/
def bitsOf (v lo n : Nat) : Nat := (v / 2 ^ lo) % 2 ^ n

/-- Bit i of a number. -/
def bitAt (v i : Nat) : Bool := v.testBit i

/-- Zero bytes up to a length. -/
def padTo (n : Nat) (l : List Byte) : List Byte := l ++ List.replicate (n - l.length) 0

/-- Bit i set or cleared. -/
def setBit {w : Nat} (v : BitVec w) (i : Nat) (b : Bool) : BitVec w :=
  if b then v ||| BitVec.twoPow w i else v &&& ~~~ BitVec.twoPow w i

/-- The bits of a vector as bytes: bit k is bit (k mod 8) of byte (k div 8) (R61). -/
def vecBytes {w : Nat} (v : BitVec w) : List Byte := leBytes (w / 8) v.toNat

/-- Count that saturates at a largest value. -/
def satAdd (top n k : Nat) : Nat := min top (n + k)

/-- Count that saturates at 0xFFFF_FFFF. -/
def bump (n : Nat) : Nat := satAdd 0xFFFFFFFF n 1

/-- Counting bits of a vector. -/
def popCount {w : Nat} (v : BitVec w) : Nat := ((List.range w).filter (fun i => v.getLsbD i)).length

/-- One bit step of the reflected CRC-32 of IEEE 802.3. -/
def crc32Bit (c : BitVec 32) : BitVec 32 :=
  if c.getLsbD 0 then (c >>> 1) ^^^ 0xEDB88320 else c >>> 1

/-- CRC-32 register after one byte. -/
def crc32Byte (c : BitVec 32) (b : Byte) : BitVec 32 :=
  (List.range 8).foldl (fun c _ => crc32Bit c) (c ^^^ b.zeroExtend 32)

/-- CRC-32 of IEEE 802.3 over a byte string (R304). -/
def crc32 (l : List Byte) : BitVec 32 := ~~~ (l.foldl crc32Byte 0xFFFFFFFF)

/-- One bit step of the unreflected ECMA-182 CRC-64 (R361). -/
def crc64Bit (c : BitVec 64) : BitVec 64 :=
  if c.getLsbD 63 then (c <<< 1) ^^^ 0x42F0E1EBA9EA3693 else c <<< 1

/-- The digest register after one byte, most significant bit first (R361). -/
def crc64Byte (c : BitVec 64) (b : Byte) : BitVec 64 :=
  (List.range 8).foldl (fun c _ => crc64Bit c) (c ^^^ (b.zeroExtend 64 <<< 56))

/-- The digest register after a byte string (R361). -/
def crc64 (c : BitVec 64) (l : List Byte) : BitVec 64 := l.foldl crc64Byte c

/-! ### Fields of a descriptor (R14) -/

/-- Byte k of a descriptor, k from 28 to 63, as a number. -/
def dByte (d : Desc) (k : Nat) : Nat := bitsOf d.body.toNat (8 * (k - 28)) 8

/-- Two bytes from byte k. -/
def dW16 (d : Desc) (k : Nat) : Nat := bitsOf d.body.toNat (8 * (k - 28)) 16

/-- Four bytes from byte k. -/
def dW32 (d : Desc) (k : Nat) : Nat := bitsOf d.body.toNat (8 * (k - 28)) 32

/-- Eight bytes from byte k. -/
def dW64 (d : Desc) (k : Nat) : Nat := bitsOf d.body.toNat (8 * (k - 28)) 64

/-- A run of bytes from byte k, as a number. -/
def dBits (d : Desc) (k n : Nat) : Nat := bitsOf d.body.toNat (8 * (k - 28)) (8 * n)

/-- The casement that bits [4:0] of bytes 2-3 name. -/
def dCase (d : Desc) : CaseId := Fin.ofNat 32 d.target.toNat

/-- The tile that a byte names, when it is 0 to 95. -/
def tileId (n : Nat) : Option TileId := if h : n < 96 then some ⟨n, h⟩ else none

/-- Mask of a run of n bytes from byte k of a descriptor, within bytes 28-63. -/
def usedBytes (k n : Nat) : Nat := (2 ^ (8 * n) - 1) * 2 ^ (8 * (k - 28))

/-- Which common and opcode-specific fields an opcode uses; every other field is reserved (R8, R280). -/
structure Shape where
  /-- used bits of bytes 2-3 -/
  target : Nat
  addrA : Bool
  addrB : Bool
  length : Bool
  /-- used bits of bytes 28-63 -/
  body : Nat
  deriving DecidableEq, Repr

/-- Every reserved field of a descriptor is zero (R8). -/
def cleanDesc (sh : Shape) (d : Desc) : Bool :=
  d.target.toNat &&& (0xFFFF ^^^ sh.target) == 0 && (sh.addrA || d.addrA == 0) &&
  (sh.addrB || d.addrB == 0) && (sh.length || d.length == 0) &&
  d.body.toNat &&& ((2 ^ 288 - 1) ^^^ sh.body) == 0

end Sys2Proof.Machine
end

