-- ==== Sys2Proof/Machine/Maps.lean ====
section
/-! DEFINITION. Sparse maps, and the addressed stores as lists of cells in one canonical form:
addresses strictly rising, and no entry equal to what an unlisted address reads as. -/

namespace Sys2Proof.Machine

/-- The value at a key, or a default when the key is not listed. -/
def mget {α : Type} (d : α) : Map α → Nat → α
  | [], _ => d
  | (j, v) :: r, k => if k = j then v else mget d r k

/-- The value at a key, if listed. -/
def mfind {α : Type} : Map α → Nat → Option α
  | [], _ => none
  | (j, v) :: r, k => if k = j then some v else mfind r k

/-- The map with a value at a key, keys kept strictly rising. -/
def mset {α : Type} : Map α → Nat → α → Map α
  | [], k, v => [(k, v)]
  | (j, w) :: r, k, v =>
    if k < j then (k, v) :: (j, w) :: r
    else if k = j then (k, v) :: r
    else (j, w) :: mset r k v

/-- The map without a key. -/
def mdel {α : Type} : Map α → Nat → Map α
  | [], _ => []
  | (j, w) :: r, k => if k = j then mdel r k else (j, w) :: mdel r k

/-- The map with every value changed. -/
def mmap {α : Type} (f : Nat → α → α) (m : Map α) : Map α := m.map (fun p => (p.1, f p.1 p.2))

/-- What an unlisted byte of emulated memory, fabric RAM or the journal window reads as: its cold value 0. -/
def zeroes : Nat → Byte := fun _ => 0

/-- The byte at an address of an addressed store. -/
def memGet (d : Nat → Byte) : List Host.Cell → Nat → Byte
  | [], a => d a
  | (k, v) :: r, a => if a = k then v else memGet d r a

/-- The store with a byte written; the canonical form is kept. -/
def memPut (d : Nat → Byte) : List Host.Cell → Nat → Byte → List Host.Cell
  | [], a, v => if v = d a then [] else [(a, v)]
  | (k, w) :: r, a, v =>
    if a < k then (if v = d a then (k, w) :: r else (a, v) :: (k, w) :: r)
    else if a = k then (if v = d a then r else (a, v) :: r)
    else (k, w) :: memPut d r a v

/-- Canonical form, above a lower bound of the addresses. -/
def memWfFrom (d : Nat → Byte) : Nat → List Host.Cell → Bool
  | _, [] => true
  | lo, (k, v) :: r => lo ≤ k && v != d k && memWfFrom d (k + 1) r

/-- The store is in canonical form. -/
def Memory.wf (d : Nat → Byte) (m : List Host.Cell) : Bool := memWfFrom d 0 m

/-- The store with a run of bytes written in ascending order. -/
def memPuts (d : Nat → Byte) (m : List Host.Cell) : Nat → List Byte → List Host.Cell
  | _, [] => m
  | a, b :: r => memPuts d (memPut d m a b) (a + 1) r

/-- n bytes from an address. -/
def memGets (d : Nat → Byte) (m : List Host.Cell) (a : Nat) : Nat → List Byte
  | 0 => []
  | n + 1 => memGet d m a :: memGets d m (a + 1) n

/-- The store with the bytes of a range of addresses back at what an unlisted address reads as. -/
def memClear (m : List Host.Cell) (keep : Nat → Bool) : List Host.Cell := m.filter (fun c => keep c.1)

end Sys2Proof.Machine
end

