-- ==== Sys2Proof/Machine/State.lean ====
section
/-! DEFINITION. The state of the CX-9600 as plain data: every register, store, queue, counter, mode and
pin that the spec gives it, and the queue of waiting commands. A docstring names the rule of spec/
behind the field. A field marked MODEL is the model's own bookkeeping. -/

namespace Sys2Proof.Machine

/-- The model stops with no fault: every command of the table has an effect in every state, so this
type has no value (assumption 1). -/
inductive Fault where
  deriving DecidableEq, Repr

/-- Reasons to have no meaning for a command. -/
inductive Refusal where
  /-- The command is not modelled: raised only by an arm of exec that has no meaning yet. Safe. -/
  | notModelled (mnemonic : String)
  deriving DecidableEq, Repr

/-! ## Emulated cycles and Boolean processors (02, 03) -/

/-- Where a tile stands in its emulated cycle (R84). -/
inductive Phase where
  /-- no programme runs -/
  | idle
  /-- programme steps 0 to D - 1 -/
  | stepping
  /-- arrived: barrier steps B0 to B7, then waiting for CLOSE -/
  | barrier
  /-- after the lintel close, before the release -/
  | closed
  deriving DecidableEq, Repr

/-- The clock generator of a tile (R70, R71). -/
inductive Clk where
  | off | locking | locked | holdover | unlocked | failed
  deriving DecidableEq, Repr

/-- State of a tile that a checkpoint, the hold bank and replay hold (R389, R421). -/
structure Snap where
  /-- emulated flip-flops, by BP index 32c + m -/
  slots : Map (BitVec 384)
  /-- emulated memory, bytes in the layout of class 0x05 -/
  emem : List Host.Cell
  staging : BitVec 256
  outB : BitVec 256
  inRef : BitVec 256
  deriving DecidableEq, Repr

/-- Boolean-processor state of a tile. -/
structure BpState where
  /-- R34 local slots 0-383 of each BP, by BP index 32c + m -/
  slots : Map (BitVec 384)
  /-- R34 cluster lane: bit 32c + k -/
  clusterLane : BitVec 1024
  /-- R34 R38 tile lane: bit 32c + i is entry 416 + i of cluster c -/
  tileLane : BitVec 1024
  /-- R38 deliveries offered at the last step, due one step later -/
  tileNext : BitVec 1024
  /-- R39 import lane: bit 32c + i is entry 448 + i of cluster c -/
  importLane : BitVec 1024
  /-- R42 R43 port address registers: bit 32c + m, m below 11 -/
  portAddr : BitVec 1024
  /-- R43 port write-data registers: bit 32c + m -/
  portData : BitVec 1024
  /-- R45 port read-data registers: bit 32c + m -/
  portRead : BitVec 1024
  /-- R45 reads under way: step at which the data appears, cluster, data -/
  reads : List (Nat × Nat × BitVec 32)
  /-- R48 emulated memory: byte 8,192b + 4w + i -/
  emem : List Host.Cell
  /-- R49 boundary-output staging bits -/
  staging : BitVec 256
  /-- R49 R92 boundary outputs -/
  outB : BitVec 256
  /-- R90 boundary inputs as sampled at the last release -/
  inB : BitVec 256
  /-- R385 reference vector of the inputs -/
  inRef : BitVec 256
  /-- R385 reference vector of the outputs -/
  outRef : BitVec 256
  /-- R361 state digest register -/
  digest : BitVec 64
  /-- R361 digest handed to the hub at the last close -/
  handed : BitVec 64
  /-- R73 R77 octets of the bundles being assembled, by export-table entry -/
  assembly : Map (List Byte)
  /-- R67 corrected errors, by structure code 0-4 -/
  corrected : Map Nat
  /-- R55 R67 completed scrub passes of the instruction store -/
  scrubPasses : Nat
  /-- R55 the word of every instruction store and exchange store that the next lintel scrubs -/
  scrubWord : Nat
  /-- R55 the dictionary entry, the slot row and the memory word that the next lintel scrubs -/
  scrubEntry : Nat
  scrubRow : Nat
  scrubMem : Nat
  /-- R358 initial bank: flip-flops, memory, staging (the reference fields unused) -/
  initBank : Snap
  /-- R358 initial bank: fabric RAM content -/
  initRam : List Host.Cell
  /-- R421 hold bank -/
  holdBank : Option Snap
  /-- R390 the checkpoint being drained: bank copies and words still marked together -/
  ckptBank : Option Snap
  deriving DecidableEq, Repr

/-- A bundle in a tile's buffer (R77, R79, R80). -/
structure Bundle where
  imp : Nat
  src : TileId
  tag : BitVec 32
  octets : Nat
  data : List Byte
  deriving DecidableEq, Repr

/-- What a descriptor reads at a lintel close (R62, R99). -/
inductive PeekKind where
  | bp | mem | boundary
  deriving DecidableEq, Repr

/-- A peek waiting for the close that ends a cycle (R62). -/
structure Peek where
  req : Req
  kind : PeekKind
  cyc : BitVec 64
  deriving DecidableEq, Repr

/-- A poke queued for the release that begins a cycle (R63). -/
structure Poke where
  req : Req
  /-- MEM_POKE, else BP_POKE -/
  mem : Bool
  cyc : BitVec 64
  /-- completes the descriptor; false for the copy of a duplex partner (R65) -/
  completes : Bool
  deriving DecidableEq, Repr

/-- A decoded pattern frame: in a tile's delivery buffer, or waiting for it (R312). -/
structure Delivery where
  stream : Nat
  /-- R309 frame number -/
  frame : Nat
  block : Nat
  /-- first word of emulated memory, or first byte of fabric RAM -/
  first : Nat
  /-- cycle whose release applies it at the earliest -/
  due : Nat
  bytes : List Byte
  /-- R312 its place in the order of decoding -/
  order : Nat
  deriving DecidableEq, Repr

/-- The four stall totals (R72, R100). -/
structure Stalls where
  imports : BitVec 64
  lintel : BitVec 64
  pacing : BitVec 64
  generator : BitVec 64
  deriving DecidableEq, Repr

/-- Cycle control of a tile. -/
structure CycState where
  /-- R84 -/
  phase : Phase
  /-- R26 number of the step to execute next -/
  step : Nat
  /-- R36 emulated-cycle number -/
  cycle : BitVec 64
  /-- R29 R84 barrier steps B0 to B7 done in this lintel -/
  barrier : Nat
  /-- R84 CLOSE has toggled for this lintel -/
  closeSig : Bool
  /-- R84 step edges since CLOSE reached the tile, up to 2 -/
  closeEdges : Nat
  /-- R72 R100 -/
  stalls : Stalls
  /-- R82 device time of the first edge of the present stall -/
  stallSince : Option Time
  /-- R82 STALL_TIMEOUT was posted for the present stall -/
  stallPosted : Bool
  /-- R100 bytes 40-43 -/
  stallTimeouts : Nat
  /-- R100 bytes 44-47 -/
  unexpected : Nat
  /-- R70 R71 clock generator -/
  clk : Clk
  /-- R70 N of the BP clock -/
  clkN : Nat
  /-- R71 CLOCK_HOLDOVER has been posted in this absence of SYSREF25 -/
  clkPosted : Bool
  /-- R71 device time of the last CLOCK_UNLOCKED -/
  unlockedAt : Time
  /-- R80 buffered bundles -/
  bundles : List Bundle
  /-- R248 held copies from the partner of a duplex sender -/
  held : List Bundle
  /-- R248 reference copies already passed: import entry and tag -/
  passed : List (Nat × BitVec 32)
  /-- R79 import entries landed in the present cycle -/
  landed : List Nat
  /-- R62 -/
  peeks : List Peek
  /-- R63 -/
  pokes : List Poke
  /-- R312 delivery buffer -/
  deliveries : List Delivery
  deriving DecidableEq, Repr

/-! ## Logic fabric (04) -/

/-- What port A of a fabric RAM block has sampled at its active edge with CE = 1 (R116). -/
structure PortA where
  addr : BitVec 15
  din : BitVec 32
  we : Bool
  deriving DecidableEq, Repr

/-- A port B access that is under way, one row at a time (R117, R125). -/
structure PortB where
  /-- FABRIC_RAM_READ or FABRIC_RAM_WRITE; none for a pattern frame delivery -/
  req : Option Req
  write : Bool
  block : Nat
  /-- next byte, and bytes left -/
  pos : Nat
  left : Nat
  /-- bytes still to write, or bytes read so far -/
  data : List Byte
  deriving DecidableEq, Repr

/-- Fabric state of a tile. -/
structure FabState where
  /-- R104 flip-flops by cell 64q + n: bit 0 FF0, bit 1 FF1 -/
  ffs : Map (BitVec 2)
  /-- R105 flip-flops are held at INIT -/
  held : Bool
  /-- R115 fabric RAM: byte 4,096q + a -/
  ram : List Host.Cell
  /-- R118 bytes whose stored parity is wrong -/
  badParity : List Nat
  /-- R116 port A read data, by block -/
  readData : Map (BitVec 32)
  /-- R118 parity flag of each block -/
  parityFlag : BitVec 16
  /-- R341 port A writes take effect, after step (d) -/
  writesOn : Bool
  /-- R117 the row that port B wrote last, with its content before that write -/
  lastRow : Option (Nat × BitVec 32)
  /-- R116 samples of port A whose access is under way, by block -/
  portA : Map PortA
  /-- R117 R125 port B accesses under way and waiting, oldest first -/
  portB : List PortB
  /-- R114 levels of FCLK0-FCLK3 -/
  level : BitVec 4
  /-- R114 fabric clocks run, after step (a) -/
  clocksOn : Bool
  /-- R127 clocks held low by FABRIC_CLOCK, each with its descriptor -/
  clkHold : Map Req
  /-- R127 FABRIC_CLOCK descriptors that wait for one under way -/
  clkWait : List Req
  /-- R126 bytes 16-19 -/
  parityCount : Nat
  /-- R126 bytes 20-23 -/
  collisions : Nat
  /-- R126 bytes 24-27 -/
  scanPasses : Nat
  /-- R126 bytes 28-31 -/
  upsets : Nat
  deriving DecidableEq, Repr

/-! ## Pins (05) -/

/-- What a pad latch holds while its pin switches function (R144): the PIN_MODE that it drives with, V and E. -/
structure HeldPad where
  mode : Fin 4
  v : Bool
  e : Bool
  deriving DecidableEq, Repr

/-- Pin state of a tile; the set-up records and line selects are configuration bytes of class 0x18. -/
structure PinState where
  /-- R135 what the board does at each pad -/
  board : Map PadDrive
  /-- R141 window output latches -/
  outLatch : BitVec 12
  /-- R141 window enable latches -/
  enLatch : BitVec 12
  /-- R142 the pin index of a first lock write -/
  lockSeq : Option (BitVec 11)
  /-- R138 conflict flags of TIN0-TIN7 -/
  conflict : BitVec 8
  /-- R150 bytes 12-15 -/
  conflicts : Nat
  /-- R130 R434 class measured at the last power-up of the IO domain: 0 1.8 V, 1 3.3 V, 2 absent -/
  measured : Fin 3
  /-- R434 VIO fell below 1.00 V while the IO domain was ON -/
  vioLost : Bool
  /-- R130 an image states a class for the bank -/
  stated : Bool
  /-- R130 the classes differ -/
  mismatch : Bool
  /-- R145 pads sill-held: DIO 0-11, then AIN 0-5 -/
  sillHeld : BitVec 18
  /-- R145 sill hold latches of each pad: the level that it drives, and whether it drives -/
  sillV : BitVec 12
  sillE : BitVec 12
  /-- R341 pads that step (b) has released, in the same order -/
  released : BitVec 18
  /-- R144 pads in a function switch, with what the pad latch holds -/
  switching : Map HeldPad
  deriving DecidableEq, Repr

/-! ## Analogue cells (06) -/

/-- A switch of the matrix (R152). -/
inductive AnSwitch where
  /-- terminal INP, INN or OUT of cell k -/
  | inp (k : Nat) | inn (k : Nat) | out (k : Nat)
  /-- analogue pin j of the tile -/
  | pin (j : Nat)
  /-- the reference tap or the trunk tap of net n -/
  | ref (n : Nat) | tap (n : Nat)
  deriving DecidableEq, Repr

/-- A change of the switch matrix under way (R162). -/
structure AnChange where
  req : Req
  /-- the cells whose records change: their OUT is open until the change ends -/
  cells : List Nat
  /-- the switches that the change adds, open until 100 ns after E -/
  adds : List AnSwitch
  /-- device time at edge E -/
  atE : Time
  /-- the switches that the change adds have closed -/
  closed : Bool
  deriving DecidableEq, Repr

/-- Analogue state of a tile; cell and net records and pin selects are configuration bytes. -/
structure AnState where
  /-- R160 settling flags, and R183 the VAN flag -/
  vrefInt : Bool
  vrefExt : Bool
  vmid : Bool
  van : Bool
  /-- R166 bytes 236-239 -/
  limits : Nat
  /-- R164 cells have their configurations, input terminals and exporting taps are connected: frames have applied -/
  inputs : Bool
  /-- R164 R341 outputs, importing taps and reference taps connected, after step (b) -/
  connected : Bool
  /-- R364 R393 analogue outputs disconnected by fail-silent or isolation -/
  cut : Bool
  /-- R162 changes under way, oldest first -/
  changes : List AnChange
  deriving DecidableEq, Repr

/-! ## Converters (07) -/

/-- The live or snapshot set of an accumulator (R185). -/
structure AccSet where
  sum : BitVec 40
  sumsq : BitVec 56
  count : BitVec 24
  excl : BitVec 16
  full : Bool
  time : Time
  deriving DecidableEq, Repr

/-- The live or snapshot set of a tracker (R185). -/
structure TrkSet where
  min : BitVec 14
  max : BitVec 14
  count : BitVec 24
  time : Time
  deriving DecidableEq, Repr

structure Acc where
  live : AccSet
  snap : AccSet
  /-- R187 device time of the last snap -/
  snapAt : Option Time
  deriving DecidableEq, Repr

structure Trk where
  live : TrkSet
  snap : TrkSet
  deriving DecidableEq, Repr

/-- What a conversion serves (R175, R181, R223). -/
inductive ConvFor where
  | entry (e : Nat)
  | slot (j : Nat)
  | capture
  deriving DecidableEq, Repr

/-- A conversion in progress. -/
structure Conv where
  slice : Nat
  for_ : ConvFor
  /-- the reference's flag was set when its sampling window began (R183) -/
  refOk : Bool
  deriving DecidableEq, Repr

/-- The calibration captures (R223, R227, R228). -/
inductive CapKind where
  /-- CAL_CAPTURE of a set at its low or high point -/
  | system (set : Nat) (high : Bool)
  /-- CAL_CELL_ZERO of a cell: round 0-7 of the binary search, the trim so far, the trim before -/
  | cellZero (cell : Nat) (round : Nat) (trim old : BitVec 8)
  /-- CAL_SLICE: the slice being measured and the sums of the slices before -/
  | slices (slice : Nat) (sums : List Nat)
  deriving DecidableEq, Repr

/-- The capture register (R223). -/
structure Capture where
  req : Req
  kind : CapKind
  /-- the entry record that it runs -/
  entry : BitVec 64
  /-- requested and not yet begun (R182) -/
  waiting : Bool
  want : Nat
  tried : Nat
  got : Nat
  sum : Nat
  min : Nat
  max : Nat
  /-- the capture has its conversions and waits for its last time step -/
  done : Bool
  deriving DecidableEq, Repr

/-- Converter state of a tile; the shadow tables, injected slots and accumulator records are
configuration bytes of class 0x21. -/
structure CvState where
  /-- R194 the converter works, after step (c) -/
  on : Bool
  /-- R176 CV_CTRL in use -/
  ctrl : BitVec 32
  /-- R176 sequence table in use -/
  table : Map (BitVec 64)
  /-- R176 descriptors that wait for the shadow to be copied -/
  shadowWait : List Req
  /-- R175 the entry and conversions issued of it, while a sequence runs or is suspended -/
  seq : Option (Nat × Nat)
  /-- R181 the injected slot that runs and conversions issued of it -/
  inj : Option (Nat × Nat)
  /-- R182 pending slots -/
  injPending : BitVec 4
  /-- R180 slot changes that wait for the end of a run -/
  injChange : Map Req
  /-- R196 CV_INJECT descriptors that wait for their slot -/
  injWait : Map Req
  /-- R183 the running slot has an excluded conversion -/
  injExcluded : Bool
  /-- R178 a trigger delay runs -/
  delay : Bool
  /-- R179 a trigger is latched -/
  latched : Bool
  /-- conversions in progress, oldest first -/
  inFlight : List Conv
  /-- R183 CV_REF changed at a boundary and its 20 µs are not over -/
  refNew : Bool
  accs : Map Acc
  trks : Map Trk
  /-- R198 -/
  overruns : BitVec 32
  missed : BitVec 32
  injOverruns : Map (BitVec 32)
  exclTotal : BitVec 32
  seqDone : BitVec 64
  lastBoundary : Time
  /-- R183 an exclusion episode is under way -/
  unsettled : Bool
  /-- R223 -/
  capture : Option Capture
  /-- R314 export mask -/
  expMask : BitVec 32
  deriving DecidableEq, Repr

/-! ## Comparators and timers (08) -/

/-- A comparator (R201, R206, R207, R210). -/
structure Cmp where
  decided : Bool
  /-- the decision D -/
  d : Bool
  /-- the output after CMP_INV, as its destinations see it -/
  out : Bool
  /-- R204 device time of the last decision of sampled mode -/
  lastTick : Option Time
  /-- R210 CMP_CHECK under way, with the decision before it -/
  check : Option (Req × Bool)
  /-- R209 bound event ring -/
  bound : Option (BitVec 16)
  /-- R24 R209 an edge entry that waits while the tile controller restarts -/
  held : Option (List Byte)
  deriving DecidableEq, Repr

/-- What samples a source edge at a later clock edge. -/
inductive EdgeSink where
  /-- INJ_SRC of an injected slot (R180) -/
  | slot (j : Nat)
  /-- ACC_SNAPSRC of an accumulator (R187) -/
  | snap (a : Nat)
  /-- TM_EVSEL of a timer, with TM_COUNT at the first timer edge after the source edge (R215) -/
  | timer (k : Nat) (cap : BitVec 32)
  /-- a source bound to design event codes (R411) -/
  | design (src : Nat)
  deriving DecidableEq, Repr

/-- A source edge that has not yet counted, with its device time. -/
structure EdgeNote where
  sink : EdgeSink
  at_ : Time
  deriving DecidableEq, Repr

/-- A timer (R211, R212). -/
structure Tmr where
  running : Bool
  /-- TM_COUNT at device time `since` -/
  count : BitVec 32
  since : Time
  cap : BitVec 32
  caps : BitVec 32
  /-- output before TM_OUTINV -/
  out : Bool
  /-- R212 TM_COUNT has become C since it was last 0 -/
  hit : Bool
  /-- R212 in mode 4, when the output falls after a capture -/
  fallAt : Option Time
  /-- R213 writes that wait for the next wrap: period and compare -/
  next : Option (BitVec 32 × BitVec 32)
  deriving DecidableEq, Repr

/-- Comparators and timers of a tile; their records are configuration bytes of class 0x22. -/
structure CtState where
  cmps : Map Cmp
  tmrs : Map Tmr
  /-- R217 bytes 12-15 -/
  checkFails : Nat
  /-- R217 bytes 16-19 -/
  coalesced : Nat
  deriving DecidableEq, Repr

/-! ## Calibration (09) -/

/-- One copy of the calibration block (R230). -/
structure CalBlock where
  seqNo : BitVec 32
  sets : Map (BitVec 32)
  cells : Map (BitVec 8)
  slices : Map (BitVec 8)
  ofsLimit : BitVec 16
  gainLimit : BitVec 16
  counts : Map Nat
  times : Map Time
  deriving DecidableEq, Repr

/-- A copy in MRAM: the block, whether its CRC is good, and its valid mark (R230). -/
structure CalCopy where
  block : CalBlock
  crcGood : Bool
  mark : Byte
  deriving DecidableEq, Repr

/-- A capture kept for CAL_COMPUTE (R224). -/
structure CapPoint where
  entry : BitVec 64
  sum : Nat
  n : Nat
  min : Nat
  max : Nat
  ideal : Nat
  deriving DecidableEq, Repr

/-- What a commit ends with. -/
inductive CommitFor where
  /-- a set 0-19 or, as 40, the slice trims, applied at the next boundary (R226) -/
  | apply (k : Nat)
  /-- a cell's offset trim (R227) -/
  | cell (k : Nat)
  /-- the limits (R225) -/
  | limits
  deriving DecidableEq, Repr

/-- A commit of the calibration block under way, with the steps of R231 that are done. -/
structure CalCommit where
  req : Req
  what : CommitFor
  block : CalBlock
  steps : Nat
  deriving DecidableEq, Repr

/-- Calibration state of a tile. -/
structure CalState where
  /-- R230 copies A and B -/
  copyA : CalCopy
  copyB : CalCopy
  /-- R231 copy B is the one in use -/
  useB : Bool
  /-- R232 the tile runs on factory values -/
  factory : Bool
  /-- R176 coefficient sets in use by the converter -/
  coef : Map (BitVec 32)
  /-- R220 slice offset trims in use -/
  trims : Map (BitVec 8)
  /-- R219 cell offset trims in use -/
  cellTrims : Map (BitVec 8)
  /-- R224 captures, by 2·set, plus 1 for the high point -/
  points : Map CapPoint
  /-- R226 sets and slice trims committed and not yet applied, each with its descriptor -/
  pending : List (Nat × Req)
  /-- R231 a commit under way -/
  commit : Option CalCommit
  deriving DecidableEq, Repr

/-! ## Network (10) -/

/-- R249 local state of a tile. -/
inductive LocalSt where
  | inService | spare | retired
  deriving DecidableEq, Repr

/-- R256 -/
inductive Shut where
  | open_ | closing | shut | opening
  deriving DecidableEq, Repr

/-- One bank of a role table (R245): entries of roles 0-239 that differ from the cold entry, and the avoid map. -/
structure Bank where
  roles : Map (BitVec 64)
  avoid : BitVec 192
  deriving DecidableEq, Repr

/-- A flit in a router, with what the routers before it have settled for its packet: the tiles that this copy goes to, and the
down links at which it was sent the other way round (R244, R247). -/
structure Moving where
  flit : Flit
  first : Bool
  dests : List Nat
  turned : List Nat
  deriving DecidableEq, Repr

/-- One way out of a router for the packet at the head of an input queue. -/
structure Branch where
  port : Fin 4
  cls : Fin 2
  dests : List Nat
  turned : List Nat
  /-- a flit of the packet has crossed -/
  begun : Bool
  /-- the flit at the head has crossed -/
  took : Bool
  deriving DecidableEq, Repr

/-- What becomes here of the packet at the head of an input queue (R247, R256). -/
inductive Ending where
  /-- it only goes on -/
  | none
  /-- to the local or the service port, with the flits that are there -/
  | port (svc : Bool) (got : List Flit)
  /-- it was dropped or bounced, and its flits are consumed -/
  | consumed
  deriving DecidableEq, Repr

/-- The way of the packet at the head of an input queue, settled at its first flit. -/
structure Way where
  branches : List Branch
  here : Ending
  /-- the flit at the head has ended here -/
  took : Bool
  deriving DecidableEq, Repr

/-- Router of a tile (R245 to R259). -/
structure Router where
  bank0 : Bank
  bank1 : Bank
  vc0Epoch : Bool
  svcEpoch : Bool
  /-- R249 R367 kept in MRAM: condemned is R374 -/
  localSt : LocalSt
  condemned : Bool
  shut : Shut
  /-- R256 shutter of the service port, on tiles 0, 11, 84 and 95 -/
  svcShut : Shut
  /-- R257 SHUTTER_STALLED was posted in this CLOSING, of the tile's shutter and of the service port's -/
  stalled : Bool
  svcStalled : Bool
  /-- R244 links down, by port -/
  down : BitVec 5
  /-- R244 failures in succession of the flit awaited, by port, and the sender's queue that it is in -/
  crcFails : Map (Nat × Nat)
  /-- R244 replay buffers: last 16 flits sent, by port -/
  replay : Map (List Flit)
  /-- R241 input queues of at most 4 flits: key 8·port + 2·vc + class, ports 0-3 links, 4 service, 5 local -/
  queues : Map (List Moving)
  /-- ways of the packets at the heads of the input queues, by their keys -/
  ways : Map Way
  /-- flits of packets that enter here and wait for room in their input queue: key 4·(port 5: 0, port 4: 1) + vc, and 8 for
  bounces -/
  entering : Map (List Moving)
  /-- flits of a packet that its service has not yet sent whole, by VC -/
  svcIn : Map (List Flit)
  /-- R242 by port, VC2 has its turn over VC1 -/
  turn2 : BitVec 4
  /-- packets offered at the local port, not yet in the network -/
  injectQ : List Packet
  /-- R257 bundles delivered at the local port, not yet taken by the tile -/
  ejectQ : List Packet
  /-- R255 packets that a service endpoint sends again, not yet in the network -/
  svcQ : List Packet
  replays : Nat
  stale : Nat
  drops : Nat
  bouncedShut : Nat
  bouncedMoved : Nat
  absorbed : Nat
  injected0 : BitVec 32
  injected1 : BitVec 32
  ejected0 : BitVec 32
  ejected1 : BitVec 32
  peak : Nat
  /-- R249 device time of the last NET_STALE_DROP -/
  staleAt : Option Time
  deriving DecidableEq, Repr

/-! ## Recorder (16) -/

/-- What the recorder does with an event as it takes it (R407, R408, R412). -/
inductive EvKind where
  /-- it passes the rate limit and is written -/
  | plain
  /-- a summary of suppressed postings, written without the rate limit -/
  | summary
  /-- REC_POST: a plain event whose descriptor completes with it -/
  | hostPost (q : Req)
  /-- REC_TIME_SET: the pair of records -/
  | timePair (q : Req)
  /-- REC_LIMIT: the summary, then the new settings -/
  | limit (q : Req)
  deriving DecidableEq, Repr

/-- An event as posted (R400). -/
structure Ev where
  time : Time
  code : BitVec 12
  src : BitVec 4
  arg : BitVec 32
  held : Bool
  kind : EvKind
  deriving DecidableEq, Repr

/-- A stored record (R400, R401). -/
structure Rec where
  time : Time
  code : BitVec 12
  src : BitVec 4
  flags : Byte
  arg : BitVec 32
  deriving DecidableEq, Repr

/-- Token bucket of a code (R408). -/
structure Bucket where
  burst : Nat
  period : Nat
  tokens : Nat
  /-- a PERIOD runs, from `since` -/
  running : Bool
  since : Time
  suppressed : Nat
  /-- source class of the last posting suppressed -/
  src : BitVec 4
  deriving DecidableEq, Repr

/-- Recorder state block (R405). -/
structure RecBlock where
  wrap : BitVec 32
  powerCycles : BitVec 32
  overwritten : BitVec 64
  deriving DecidableEq, Repr

/-- A copy of the state block in MRAM (R405, R406). -/
structure RecCopy where
  block : RecBlock
  seqNo : BitVec 32
  crcGood : Bool
  mark : Byte
  deriving DecidableEq, Repr

/-- Binding of a design event code (R411). -/
structure DesignBind where
  case_ : CaseId
  tile : TileId
  src : BitVec 12
  code : BitVec 12
  deriving DecidableEq, Repr

/-- A record in the recorder's queue, with what its write to bound rings will meet (R409, R412). -/
structure RecWait where
  ev : Ev
  writeOk : Bool
  deriving DecidableEq, Repr

structure Recorder where
  /-- events raised and not yet at the recorder (R400, R409) -/
  posted : List Ev
  /-- R409 the queue of at most 1,024 records -/
  queue : List RecWait
  /-- R409 the instant from which the next record may be written -/
  free : Time
  /-- R400 slots in MRAM -/
  slots : Map Rec
  /-- R403 slot that the next record takes -/
  next : Nat
  /-- R403 R404 R405 counts in force -/
  counts : RecBlock
  /-- R405 state block copies -/
  copyA : RecCopy
  copyB : RecCopy
  useB : Bool
  /-- R405 time ring units: device time and power-cycle count; only units with a good CRC -/
  ring : Map (Time × BitVec 32)
  ringNext : Nat
  /-- R405 when the next unit of the time ring is due -/
  ringDue : Time
  /-- R408 buckets of codes that differ from the start values, by code -/
  buckets : Map Bucket
  /-- R413 suppressions since power-up -/
  suppressed : Nat
  /-- R413 device time of the last TIME_SET pair -/
  timeSet : Time
  /-- R412 for each ring context, the set of codes bound to it: bit n is code n -/
  notify : Map (BitVec 4096)
  /-- R411 -/
  design : List DesignBind
  deriving DecidableEq, Repr

/-! ## Tile controller and power of a tile -/

/-- R416 -/
inductive Dom where
  | on | retain | off
  deriving DecidableEq, Repr

/-- A copy of a tile's repair map in MRAM: by BP index, the rows on its spare rows, in the spares' order (R374). -/
structure RepairCopy where
  istore : Map (List Nat)
  slots : Map (List Nat)
  seqNo : BitVec 32
  crcGood : Bool
  mark : Byte
  deriving DecidableEq, Repr

/-- Tile controller (R23, R24, R375, R376). -/
structure Ctl where
  restarting : Bool
  /-- firmware slot B runs, else A -/
  slotB : Bool
  /-- TC_FW_ACTIVATE under way, with its descriptor -/
  activate : Option Req
  /-- the former slot, while a restart is under way -/
  formerB : Bool
  /-- R363 device time of the last watchdog expiry -/
  watchdog : Option Time
  /-- R24 event buffer, 64 entries -/
  buffer : List Ev
  /-- R378 last fail-silent cause -/
  cause : Byte
  /-- R364 the tile is fail-silent -/
  failSilent : Bool
  /-- R373 R374 retest or repair under way -/
  test : Option (Bool × Req)
  /-- R374 the two copies of the repair map -/
  repairA : RepairCopy
  repairB : RepairCopy
  deriving DecidableEq, Repr

structure Doms where
  bpa : Dom
  lf : Dom
  an : Dom
  io : Dom
  tk : Dom
  deriving DecidableEq, Repr

/-- One tile. -/
structure Tile where
  /-- configuration and set-up records (R326): bytes by frame address CLASS·2^26 + OFFSET -/
  cfg : List Host.Cell
  /-- R371 those bytes as the image left them, against which a runtime change shows -/
  img : List Host.Cell
  bp : BpState
  cyc : CycState
  fab : FabState
  pin : PinState
  an : AnState
  cv : CvState
  ct : CtState
  /-- source edges that have not yet counted, oldest first (R180, R187, R215, R411) -/
  edges : List EdgeNote
  cal : CalState
  net : Router
  ctl : Ctl
  dom : Doms
  deriving DecidableEq, Repr

/-! ## Casements (14), lintel hubs (03), journal and replay (15) -/

/-- R351 -/
inductive CaseSt where
  | empty | loading | running | paused | held | stopped | failed
  deriving DecidableEq, Repr

/-- R418 -/
inductive Pwr where
  | run | doze | hold
  deriving DecidableEq, Repr

/-- The hub channels of a casement (R84, R88). -/
structure Chan where
  /-- ARRIVE toggles gathered in this lintel -/
  arrived : BitVec 96
  /-- bit 4s + k: hub s knows that sector k is done -/
  done : BitVec 16
  /-- barrier mask -/
  mask : BitVec 96
  /-- HOLD asserted for a barrier fault -/
  fault : Bool
  /-- HOLD asserted for an epoch acknowledgement that is missing (R251) -/
  epochHold : Bool
  /-- MODEL cycles whose close, and whose release, every tile of the mask has made -/
  closeDone : Nat
  releaseDone : Nat
  /-- R96 device time of the last release, as the lead hub measures PACE -/
  lastRelease : Time
  deriving DecidableEq, Repr

/-- A pending CYCLE_RATE (R96). -/
structure RateChange where
  req : Req
  cyc : BitVec 64
  deriving DecidableEq, Repr

/-- Journal settings and progress of a casement (R384, R390, R398). -/
structure JnlCase where
  on : Bool
  /-- checkpoint interval 2^L; 0 off -/
  ckptL : Nat
  /-- digest interval 2^L, or none -/
  digestL : Option Nat
  /-- R380 records of the release under way, written when its last tile releases: deliveries, then pokes -/
  delivered : List (Nat × List Byte)
  poked : List (Nat × List Byte)
  /-- R390 a checkpoint is taken at the lintel under way -/
  taking : Bool
  /-- R385 the cycle under way gets full vectors -/
  full : Bool
  /-- JNL_CONTROL waiting for the next release -/
  control : List Req
  /-- JNL_MARK waiting for the next release -/
  marks : List Req
  /-- JNL_CHECKPOINT waiting for the next lintel -/
  asked : Option Req
  /-- the drain under way: cycle, checkpoint number, descriptor -/
  drain : Option (BitVec 64 × Nat × Option Req)
  /-- number of the next checkpoint -/
  number : Nat
  /-- bits [63:32] of the last SYNC, or none before one -/
  syncHi : Option (BitVec 32)
  /-- the casement resumes after a gap: first lost cycle -/
  gapFrom : Option (BitVec 64)
  deriving DecidableEq, Repr

/-- What a replay reports (R395). -/
structure Report where
  kind : Nat
  index : Nat
  tile : Nat
  cluster : Nat
  member : Nat
  cycle : Nat
  word : Nat
  journalled : Nat
  replayed : Nat
  offset : Nat
  deriving DecidableEq, Repr

/-- A replay under way (R392 to R395). -/
structure Replay where
  req : Req
  /-- the journal in host memory, or none for the device's window -/
  host : Option (List Byte)
  /-- offset of the next record -/
  offset : Nat
  endCycle : BitVec 64
  /-- journal casement number -/
  jcase : Nat
  /-- bits [63:32] of the last SYNC -/
  hi : Nat
  /-- input and output vectors as rebuilt, by image tile index -/
  ins : Map (BitVec 256)
  outs : Map (BitVec 256)
  /-- records of the release under way: type, body -/
  now : List (Nat × List Byte)
  /-- state kept for the comparison with a later checkpoint: its number, by image tile index -/
  ckpt : Nat
  snaps : Map Snap
  /-- a divergence seen, reported at the next close -/
  found : Option Report
  deriving DecidableEq, Repr

/-- What stops a casement after its next lintel close (R338, R354, R357). -/
inductive Stop where
  /-- the takeover of a load -/
  | load
  | reset (q : Req)
  | dissolve (q : Req)
  deriving DecidableEq, Repr

structure Casement where
  st : CaseSt
  owner : HostId
  region : BitVec 96
  /-- R323 schedule depth -/
  depth : Nat
  /-- R70 N in force -/
  n : Nat
  startOrder : Byte
  floatPins : Bool
  /-- R362 -/
  dupPause : Bool
  /-- R381 tile of each image tile index -/
  tileOf : Map Nat
  /-- R381 REGION of the image that loaded the casement -/
  imageRegion : BitVec 96
  /-- R328 digest of that image -/
  digest : List Byte
  chan : Chan
  /-- R97 pending pause: the cycle that the close ends, and its descriptor -/
  pause : Option (BitVec 64 × Req)
  /-- R98 pending step counts: last cycle, and the descriptor -/
  stepTo : List (BitVec 64 × Req)
  /-- R98 COUNT = 0 waiting for the release -/
  resume : List Req
  /-- R97 the hub stops the casement after its next lintel close (DUP_PAUSE, DOZE, HOLD, takeover, SLEEP) -/
  halt : Bool
  /-- R338 what goes on once it has stopped -/
  stop : Option Stop
  rates : List RateChange
  /-- R96 PACE in ns -/
  pace : BitVec 32
  /-- R82 R96 stall limit in µs -/
  stallLimit : BitVec 32
  /-- R378 -/
  disagreements : BitVec 64
  lastDisagree : BitVec 64
  /-- R418 power state, the state it came from, and the PWR_STATE descriptors that wait for their state, oldest first -/
  pwr : Pwr
  pwrFrom : CaseSt
  pwrWant : List (Pwr × Req)
  /-- R421 steps 1 to 4 of a HOLD entry are done, and shutters are on their way to SHUT -/
  entering : Bool
  /-- R425 a wake arrived -/
  wake : Bool
  jnl : JnlCase
  /-- R393 isolated by replay or as a shadow -/
  isolated : Bool
  replay : Option Replay
  /-- R341 start-up steps done, while start-up runs -/
  startUp : Option Nat
  /-- R251 cycle at which the routers flip their VC0 epoch -/
  flipAt : Option (BitVec 64)
  /-- R369 R378 duplex roles with one live tile: the former tile of each role -/
  lost : Map Nat
  deriving DecidableEq, Repr

/-! ## Host interface (11) -/

/-- An event-ring entry that waits for room (R282): key of its source, and its 16 bytes. -/
structure Entry where
  key : Nat
  bytes : List Byte
  deriving DecidableEq, Repr

/-- R277 -/
inductive RingKind where
  | submission | completion | event
  deriving DecidableEq, Repr

/-- A live ring (R277, R278, R286). -/
structure Ring where
  kind : RingKind
  log2 : Nat
  base : BitVec 64
  owner : HostId
  word : Nat
  /-- bound completion ring of a submission ring; none is the admin completion ring -/
  bound : Option (BitVec 16)
  vector : BitVec 6
  irq : Bool
  modCount : Nat
  modTime : BitVec 16
  notice : Bool
  /-- descriptors fetched, or entries written -/
  count : Nat
  /-- the index word as last read -/
  index : BitVec 32
  error : Bool
  reason : Byte
  /-- records reserved (completion ring) -/
  reserved : Nat
  /-- numbers of the descriptors fetched and not completed (submission ring) -/
  inflight : List Nat
  /-- counting entries written since the last signal -/
  unsignalled : Nat
  /-- entries that wait for room (event ring) -/
  waiting : List Entry
  /-- MODEL R284 its descriptors cannot be read, its memory cannot be written, as the last poll found -/
  noFetch : Bool
  noWrite : Bool
  /-- a RING_DELETE that waits for the fetched descriptors -/
  deleting : Option Req
  deriving DecidableEq, Repr

/-- One MSI-X table entry (R264): address, data, vector control. -/
structure MsixEntry where
  addr : BitVec 64
  data : BitVec 32
  ctrl : BitVec 32
  deriving DecidableEq, Repr

/-- Host function h: set-up registers (R265), doorbell and poll state (R271 to R276). -/
structure HostSt where
  en : Bool
  quiesce : Bool
  accept : Bool
  sqBase : BitVec 64
  sqSize : BitVec 5
  cqBase : BitVec 64
  cqSize : BitVec 5
  dbRoot : BitVec 64
  poll : BitVec 17
  backoffDis : Bool
  active : Bool
  quiesced : Bool
  /-- SETUP_ERR, DB_ERR, RING_ERR, DMA_ERR -/
  fault : BitVec 4
  msixAdmin : BitVec 32
  msixFault : BitVec 8
  msix : Map MsixEntry
  pba : BitVec 64
  adminSq : Option Ring
  adminCq : Option Ring
  /-- R265 R271 SET_DB_ROOT as read when EN went to 1 -/
  dbBase : BitVec 64
  /-- R273 last values seen -/
  rootSeen : BitVec 64
  groupsSeen : Map (BitVec 64)
  /-- R275 consecutive idle polls and the interval in force, in units of 0.5 µs -/
  idle : Nat
  interval : Nat
  /-- R276 an error episode -/
  dbEpisode : Bool
  /-- R278 index word served last in round-robin order -/
  turn : Nat
  deriving DecidableEq, Repr

/-- A descriptor that the device has fetched and not completed (MODEL, R278, R279). -/
structure OpenDesc where
  seq : Nat
  host : HostId
  ring : Option (BitVec 16)
  /-- R291 the host was the steward as the descriptor was fetched -/
  steward : Bool
  /-- the ring has not been deleted since -/
  live : Bool
  started : Bool
  deriving DecidableEq, Repr

/-- A write that the device makes into a host's memory, an MSI-X write included (R263). -/
structure HostWrite where
  host : HostId
  addr : BitVec 64
  data : List Byte
  deriving DecidableEq, Repr

structure HostIf where
  hosts : Map HostSt
  rings : Map Ring
  /-- R292 assignments, newest first: first context, count, host or unassigned -/
  assign : List (Nat × Nat × Option HostId)
  /-- R288 -/
  steward : HostId
  /-- R266 -/
  ready : Bool
  /-- MODEL descriptors fetched so far by the device: the next one's number -/
  fetched : Nat
  /-- MODEL R279 descriptors fetched and not completed, in the order of their numbers -/
  opened : List OpenDesc
  /-- MODEL writes made into host memory, oldest first -/
  writes : List HostWrite
  /-- MODEL FENCE descriptors that wait for earlier ones of their ring (R279) -/
  fenced : List Instr
  /-- R255 numbers of the descriptors that have been sent a second time after ROLE_MOVED -/
  retried : List Nat
  deriving DecidableEq, Repr

/-! ## Bulk stream port (12) -/

/-- Target of a pattern stream (R308). -/
structure Bind where
  case_ : CaseId
  tile : TileId
  fabric : Bool
  primary : Nat
  alternate : Nat
  offset : Nat
  deriving DecidableEq, Repr

structure Stream where
  bind : Option Bind
  /-- R310 reference, when valid -/
  ref : Option (List Byte)
  /-- R309 payload bytes of an incomplete frame -/
  part : Option (List Byte)
  /-- R307 credits granted to the peer and not used -/
  granted : Nat
  /-- R312 R313 decoded frames that wait for their target -/
  ready : List Delivery
  deriving DecidableEq, Repr

/-- An export entry (R314). -/
structure Export where
  bytes : List Byte
  deriving DecidableEq, Repr

/-- A segment sent and not acknowledged: link sequence, stream, payload, and, of a journal segment, the journal offset after it
(R305, R386). -/
structure SentSeg where
  seqNo : BitVec 12
  stream : Nat
  data : List Byte
  upTo : Nat
  deriving DecidableEq, Repr

/-- What the receiver has of a segment (R304). -/
inductive RxSeg where
  | none
  /-- its START: the header comes next -/
  | header
  /-- its header, and the bytes after it so far -/
  | body (hdr : BitVec 64) (bytes : List Byte)
  deriving DecidableEq, Repr

structure Bsp where
  up : Bool
  training : Bool
  rate : Nat
  width : Nat
  /-- R302 settings last made by BSP_LINK, kept in AON -/
  set : Option (Nat × Nat)
  locked : BitVec 8
  linkReq : Option Req
  /-- R305 link sequences: next to send, next expected -/
  txSeq : BitVec 12
  rxSeq : BitVec 12
  /-- R305 failures in succession at the receiver; and of a segment sent, by the NAKs that name it -/
  rxFails : Nat
  txFails : Option (BitVec 12 × Nat)
  /-- R305 replay buffer, oldest first -/
  replay : List SentSeg
  /-- R305 how many of its segments have been put in line since the last NAK or link-up -/
  txNext : Nat
  /-- R304 the segment that comes in -/
  rxSeg : RxSeg
  /-- R302 the lane of the next block to come -/
  rxLane : Nat
  /-- R301 by lane, the last 58 bits of the lane, the newest highest: of the sender's and of the receiver's scrambler -/
  txScr : Map (BitVec 58)
  rxScr : Map (BitVec 58)
  /-- R302 slots since the last ALIGN -/
  txSlots : Nat
  /-- R302 what stands on each lane -/
  line : Map LinkBlock
  /-- R312 pattern frames decoded so far; MODEL -/
  decoded : Nat
  streams : Map Stream
  /-- R307 credits held for streams 13-15 -/
  credits : Map Nat
  /-- R318 -/
  outEn : BitVec 3
  /-- R314 R315 -/
  exports : List Export
  exportSeq : BitVec 32
  /-- R315 an overrun episode: the next entry queued carries LOST -/
  lost : Bool
  /-- R316 next journal offset and next recorder sequence number to send -/
  jnlNext : BitVec 64
  recNext : Nat
  blockErrors : Nat
  naks : Nat
  retrains : Nat
  refused : Nat
  discarded : Nat
  violations : Nat
  /-- R303 R304 blocks in line for the lanes, oldest first, not yet scrambled -/
  txQueue : List LinkBlock
  deriving DecidableEq, Repr

/-! ## Loader (13) -/

/-- R349 -/
inductive LoadPhase where
  | idle | pass1 | takeover | pass2 | startUp
  deriving DecidableEq, Repr

/-- What the image read is for (R333, R370, R396). -/
inductive Purpose where
  | load
  | promote
  | shadow
  deriving DecidableEq, Repr

/-- A frame (R325). -/
structure Frame where
  addr : BitVec 32
  mask : BitVec 96
  payload : List Byte
  deriving DecidableEq, Repr

/-- Progress of the image through a pass. -/
inductive Stage where
  | header | frames | trailer | complete
  deriving DecidableEq, Repr

structure Load where
  phase : LoadPhase
  purpose : Purpose
  req : Option Req
  full : Bool
  case_ : CaseId
  fromBsp : Bool
  stage : Stage
  /-- bytes of the pass that no unit has used yet -/
  buf : List Byte
  /-- all bytes fetched in the pass, for the digest -/
  all : List Byte
  /-- header and casement table bytes -/
  head : List Byte
  /-- frames of pass 1, in image order -/
  frames : List Frame
  /-- R335 frame-hash table, and the hash of header and table -/
  hashes : List (List Byte)
  headHash : List Byte
  /-- R328 digest of the image that pass 1 accepted -/
  digest : List Byte
  /-- frames completed in the pass -/
  frameIx : Nat
  /-- R343 casements whose changed flag was set at takeover of a full load -/
  existed : BitVec 32
  /-- R340 the last full load failed after pass 1 -/
  fullFailed : Bool
  /-- R349 status, reason, host, frame of the last load -/
  lastStatus : Byte
  lastReason : Byte
  lastHost : Byte
  lastTarget : Byte
  lastFrame : BitVec 32
  /-- R317 a FETCH is outstanding: bytes requested -/
  fetch : Option Nat
  deriving DecidableEq, Repr

/-- Key slot (R329). -/
structure KeySlot where
  programmed : Bool
  revoked : Bool
  hash : List Byte
  deriving DecidableEq, Repr

/-- A copy of the anti-rollback counters (R332); entry 0 is F, entry 1 + c is P_c. -/
structure Rollback where
  seqNo : BitVec 32
  counters : Map (BitVec 32)
  crcGood : Bool
  mark : Byte
  deriving DecidableEq, Repr

/-! ## Service hub (10, 14), journal engine, power -/

/-- What an epoch change is for. -/
inductive EpochFor where
  | load
  | dissolve
  | link
  | retire (role : Nat) (tile : TileId) (req : Option Req)
  | promote
  | shadow
  deriving DecidableEq, Repr

/-- R251 -/
inductive EpochStage where
  /-- writing ROLE_UPDATEs -/
  | updating
  /-- EPOCH_SWITCH sent, waiting for flips -/
  | switching
  /-- DRAIN_QUERY sent -/
  | draining
  deriving DecidableEq, Repr

/-- An epoch change under way (R251). -/
structure Epoch where
  why : EpochFor
  /-- the new route epoch -/
  newEpoch : Bool
  stage : EpochStage
  /-- the new bank -/
  bank : Bank
  /-- routers that have written the bank, whose acknowledgement has come, that got EPOCH_SWITCH, and whose
  acknowledgement has come -/
  written : BitVec 96
  acked : BitVec 96
  switched : BitVec 96
  switchAcked : BitVec 96
  /-- routers that have flipped VC0 -/
  flipped : BitVec 96
  /-- reports: injected and ejected in the old epoch -/
  reports : Map (BitVec 32 × BitVec 32)
  /-- routers asked since the last query -/
  asked : BitVec 96
  deriving DecidableEq, Repr

/-- A change of the table that waits for the one under way (R244): roles to write; an avoid bit to set or clear. -/
structure EpochWait where
  why : EpochFor
  roles : Map (BitVec 64)
  avoid : Option (Nat × Bool)
  deriving DecidableEq, Repr

/-- Where a promotion stands (R371). -/
inductive PromoStage where
  /-- steps 1 to 3: the passes -/
  | passes
  /-- waiting for the close of cycle M -/
  | loaded
  /-- step 4: background copy -/
  | copying
  /-- the first complete pass is over: waiting for the close of cycle P -/
  | copied
  /-- steps 5 to 8: the epoch change -/
  | switching
  /-- step 7 is over: waiting for the drain -/
  | effective
  deriving DecidableEq, Repr

/-- Spare promotion under way (R369 to R371). -/
structure Promo where
  req : Req
  case_ : CaseId
  role : Nat
  survivor : TileId
  former : TileId
  spare : TileId
  stage : PromoStage
  /-- R371 words of the survivor written since the close of cycle M, ascending: flip-flop words 12·b + w, memory
  words from 12,288, staging words from 28,672 -/
  dirty : List Nat
  /-- N of step 5 -/
  atCycle : BitVec 64
  deriving DecidableEq, Repr

/-- Shadow creation under way (R396). -/
structure Shadow where
  req : Req
  case_ : CaseId
  source : CaseId
  base : Nat
  /-- spare of each image tile index -/
  map : Map Nat
  deriving DecidableEq, Repr

structure Hub where
  epoch : Option Epoch
  waiting : List EpochWait
  promo : Option Promo
  shadow : Option Shadow
  /-- R366 tenures last assigned, by role, kept in AON -/
  tenures : Map (BitVec 16)
  /-- R258 NET_PROBE descriptors outstanding, oldest first -/
  probes : List Req
  /-- R253 the hub's own copy of the role tables, and the service epoch in force -/
  copy0 : Bank
  copy1 : Bank
  cur : Bool
  /-- R256 SHUTTER_ACKs on their way: tiles 0-95, service ports 96-99 -/
  acks : BitVec 100
  /-- R375 firmware slots A and B, their versions, and the firmware counter -/
  fwA : List Byte
  fwB : List Byte
  fwCounter : Nat
  deriving DecidableEq, Repr

/-- Journal engine (R386, R387). -/
structure Journal where
  head : BitVec 64
  /-- window bytes by offset mod 2^26 -/
  window : List Host.Cell
  export_ : BitVec 64
  mode : Nat
  /-- a record did not fit: nothing is written until 8 MiB are free -/
  stopped : Bool
  gaps : Nat
  skipped : Nat
  abandoned : Nat
  deriving DecidableEq, Repr

/-- FAULT_N (R442). -/
inductive FaultN where
  | hiZ | high | low
  deriving DecidableEq, Repr

/-- SLEEP (R423, R424). -/
inductive Sleep where
  | awake | entering | asleep
  deriving DecidableEq, Repr

/-- A reset of code 0-2 in progress (R426). -/
inductive InReset where
  | none | cold | pin | device
  deriving DecidableEq, Repr

/-- Device level: supplies, power, always-on domain, OTP and MRAM that no other part holds. -/
structure Device where
  /-- R405 -/
  now : Time
  /-- R405 SYSREF25 present -/
  sysref : Bool
  inReset : InReset
  /-- R426 PWR_RESET DEVICE has completed, and its reset begins at this instant -/
  resetDue : Option Time
  /-- R426 the earliest end of a DEVICE reset -/
  resetUntil : Time
  sleep : Sleep
  /-- R423 R430 alarm, 0 for none -/
  alarm : Time
  /-- R423 PWR_SLEEP descriptors that wait for the casements to pause -/
  sleepReq : List Req
  /-- R423 when the last of them completed -/
  sleepAt : Time
  /-- R425 a wake of the device has come -/
  wake : Bool
  /-- R430 -/
  lastReset : Byte
  lastResetAt : Time
  lastBrownOut : Byte
  lastWake : Byte
  /-- R435 VSD_L and VSD_H within range -/
  vsd : Bool
  /-- R416 domains 480-483 -/
  pcieA : Dom
  pcieB : Dom
  bspDom : Dom
  svc : Dom
  /-- R160 AREF_s within range, by sector -/
  aref : BitVec 4
  /-- R442 -/
  faultN : FaultN
  faultCause : Byte
  /-- R424 WAKE_N driven low -/
  wakeN : Bool
  /-- R145 a full image has started up since the last reset of code 0-2 -/
  fullUp : Bool
  /-- R142 R143 locks by pin index -/
  locks : BitVec 1728
  /-- R352 casement of each pin -/
  pinCase : Map CaseId
  /-- R155 casement that owns trunk 4·sector + k -/
  trunks : Map CaseId
  /-- R343 -/
  changed : BitVec 32
  /-- R329 -/
  keys : Map KeySlot
  /-- R332 -/
  rollA : Rollback
  rollB : Rollback
  rollUseB : Bool
  deriving DecidableEq, Repr

/-- The machine. -/
structure State where
  dev : Device
  /-- tiles that differ from the cold tile, by tile number -/
  tiles : Map Tile
  /-- casements that exist, by ID -/
  cases : Map Casement
  hif : HostIf
  bsp : Bsp
  load : Load
  hub : Hub
  jnl : Journal
  rcd : Recorder
  /-- MODEL free values taken so far (assumption 3) -/
  fresh : Nat
  /-- commands that wait, first in, first out -/
  pending : List Instr
  deriving DecidableEq, Repr

/-! ## Values after reset

Every value is the one that the spec states for a COLD reset or, where it states none, the one that
assumption 2 names. -/

/-- Empty sets (R185). -/
def AccSet.empty : AccSet := { sum := 0, sumsq := 0, count := 0, excl := 0, full := false, time := 0 }

/-- An empty tracker set: zeros, but MIN 16,383 (R185). -/
def TrkSet.empty : TrkSet := { min := 16383, max := 0, count := 0, time := 0 }

def Acc.empty : Acc := { live := AccSet.empty, snap := AccSet.empty, snapAt := none }

def Trk.empty : Trk := { live := TrkSet.empty, snap := TrkSet.empty }

def Snap.empty : Snap := { slots := [], emem := [], staging := 0, outB := 0, inRef := 0 }

def BpState.cold : BpState :=
  { slots := [], clusterLane := 0, tileLane := 0, tileNext := 0, importLane := 0, portAddr := 0,
    portData := 0, portRead := 0, reads := [], emem := [], staging := 0, outB := 0, inB := 0,
    inRef := 0, outRef := 0, digest := 0, handed := 0, assembly := [], corrected := [], scrubPasses := 0,
    scrubWord := 0, scrubEntry := 0, scrubRow := 0, scrubMem := 0, initBank := Snap.empty, initRam := [], holdBank := none, ckptBank := none }

def Stalls.zero : Stalls := { imports := 0, lintel := 0, pacing := 0, generator := 0 }

def CycState.cold : CycState :=
  { phase := .idle, step := 0, cycle := 0, barrier := 0, closeSig := false, closeEdges := 0, stalls := Stalls.zero,
    stallSince := none, stallPosted := false, stallTimeouts := 0, unexpected := 0, clk := .off, clkN := 0,
    clkPosted := false, unlockedAt := 0, bundles := [], held := [], passed := [], landed := [], peeks := [],
    pokes := [], deliveries := [] }

def FabState.cold : FabState :=
  { ffs := [], held := true, ram := [], badParity := [], readData := [], parityFlag := 0,
    writesOn := false, lastRow := none, portA := [], portB := [], level := 0, clocksOn := false, clkHold := [], clkWait := [],
    parityCount := 0, collisions := 0, scanPasses := 0, upsets := 0 }

def PinState.cold : PinState :=
  { board := [], outLatch := 0, enLatch := 0, lockSeq := none, conflict := 0, conflicts := 0,
    measured := 1, vioLost := false, stated := false, mismatch := false, sillHeld := 0,
    sillV := 0, sillE := 0, released := 0, switching := [] }

def AnState.cold : AnState :=
  { vrefInt := false, vrefExt := false, vmid := false, van := false, limits := 0,
    inputs := false, connected := false, cut := false, changes := [] }

def CvState.cold : CvState :=
  { on := false, ctrl := 0, table := [], shadowWait := [], seq := none, inj := none,
    injPending := 0, injChange := [], injWait := [], injExcluded := false, delay := false,
    latched := false, inFlight := [], refNew := false, accs := [], trks := [], overruns := 0,
    missed := 0, injOverruns := [], exclTotal := 0, seqDone := 0, lastBoundary := 0,
    unsettled := false, capture := none, expMask := 0 }

def Cmp.cold : Cmp :=
  { decided := false, d := false, out := false, lastTick := none, check := none, bound := none, held := none }

def Tmr.cold : Tmr :=
  { running := false, count := 0, since := 0, cap := 0, caps := 0, out := false, hit := false, fallAt := none, next := none }

def CtState.cold : CtState := { cmps := [], tmrs := [], checkFails := 0, coalesced := 0 }

/-- The calibration block that a tile without a valid copy works from: neutral coefficients, default
limits, counts and times 0 (R225, R232). -/
def CalBlock.factory : CalBlock :=
  { seqNo := 0, sets := [], cells := [], slices := [], ofsLimit := 5242, gainLimit := 6553,
    counts := [], times := [] }

def CalCopy.blank : CalCopy := { block := CalBlock.factory, crcGood := false, mark := 0 }

def CalState.cold : CalState :=
  { copyA := CalCopy.blank, copyB := CalCopy.blank, useB := false, factory := true, coef := [],
    trims := [], cellTrims := [], points := [], pending := [], commit := none }

/-- Both banks after cold reset: no entry differs from the cold entry, and nothing is avoided (R245). -/
def Bank.cold : Bank := { roles := [], avoid := 0 }

/-- After reset every shutter of a tile is SHUT and the tile is in the spare pool (R417). -/
def Router.cold : Router :=
  { bank0 := Bank.cold, bank1 := Bank.cold, vc0Epoch := false, svcEpoch := false,
    localSt := .spare, condemned := false, shut := .shut, svcShut := .open_, stalled := false, svcStalled := false,
    down := 0, crcFails := [], replay := [], queues := [], ways := [], entering := [], svcIn := [], turn2 := 0,
    injectQ := [], ejectQ := [], svcQ := [],
    replays := 0, stale := 0, drops := 0, bouncedShut := 0, bouncedMoved := 0, absorbed := 0,
    injected0 := 0, injected1 := 0, ejected0 := 0, ejected1 := 0, peak := 0, staleAt := none }

/-- No repair map has been committed. -/
def RepairCopy.blank : RepairCopy := { istore := [], slots := [], seqNo := 0, crcGood := false, mark := 0 }

def Ctl.cold : Ctl :=
  { restarting := false, slotB := false, activate := none, formerB := false, watchdog := none,
    buffer := [], cause := 0, failSilent := false, test := none, repairA := RepairCopy.blank,
    repairB := RepairCopy.blank }

/-- BPA, LF and AN OFF, TK and IO ON (R417). -/
def Doms.cold : Doms := { bpa := .off, lf := .off, an := .off, io := .on, tk := .on }

def Tile.cold : Tile :=
  { cfg := [], img := [], bp := BpState.cold, cyc := CycState.cold, fab := FabState.cold, pin := PinState.cold,
    an := AnState.cold, cv := CvState.cold, ct := CtState.cold, edges := [], cal := CalState.cold,
    net := Router.cold, ctl := Ctl.cold, dom := Doms.cold }

def Chan.clear : Chan :=
  { arrived := 0, done := 0, mask := 0, fault := false, epochHold := false, closeDone := 0, releaseDone := 0,
    lastRelease := 0 }

/-- Journal settings of a casement as an image leaves them (R398). -/
def JnlCase.image : JnlCase :=
  { on := false, ckptL := 20, digestL := none, delivered := [], poked := [], taking := false, full := false,
    control := [], marks := [], asked := none,
    drain := none, number := 0, syncHi := none, gapFrom := none }

/-- A casement as CASE_CREATE makes it (R353). -/
def Casement.created (owner : HostId) (region : BitVec 96) : Casement :=
  { st := .empty, owner := owner, region := region, depth := 0, n := 0, startOrder := 0,
    floatPins := false, dupPause := false, tileOf := [], imageRegion := 0, digest := [],
    chan := Chan.clear, pause := none, stepTo := [], resume := [], halt := false, stop := none, rates := [], pace := 0,
    stallLimit := 1000, disagreements := 0, lastDisagree := 0, pwr := .run, pwrFrom := .empty,
    pwrWant := [], entering := false, wake := false, jnl := JnlCase.image, isolated := false, replay := none,
    startUp := none, flipAt := none, lost := [] }

def Ring.fresh (kind : RingKind) (owner : HostId) (log2 : Nat) (base : BitVec 64) (word : Nat) : Ring :=
  { kind := kind, log2 := log2, base := base, owner := owner, word := word, bound := none,
    vector := 0, irq := false, modCount := 1, modTime := 0, notice := false, count := 0, index := 0,
    error := false, reason := 0, reserved := 0, inflight := [], unsignalled := 0, waiting := [],
    noFetch := false, noWrite := false, deleting := none }

/-- MSI-X vectors come out of reset masked, as PCI Express lays down (R264). -/
def MsixEntry.cold : MsixEntry := { addr := 0, data := 0, ctrl := 1 }

/-- The set-up registers after cold reset (R265). -/
def HostSt.cold : HostSt :=
  { en := false, quiesce := false, accept := false, sqBase := 0, sqSize := 0, cqBase := 0,
    cqSize := 0, dbRoot := 0, poll := 2, backoffDis := false, active := false, quiesced := false,
    fault := 0, msixAdmin := 0x100, msixFault := 0, msix := [], pba := 0, adminSq := none,
    adminCq := none, dbBase := 0, rootSeen := 0, groupsSeen := [], idle := 0, interval := 2,
    dbEpisode := false, turn := 0 }

def Bucket.start : Bucket := { burst := 32, period := 1000, tokens := 32, running := false, since := 0, suppressed := 0, src := 0 }

def RecBlock.zero : RecBlock := { wrap := 0, powerCycles := 0, overwritten := 0 }

def RecCopy.blank : RecCopy := { block := RecBlock.zero, seqNo := 0, crcGood := false, mark := 0 }

/-- An MRAM recorder in which nothing has been written. -/
def Recorder.blank : Recorder :=
  { posted := [], queue := [], free := 0, slots := [], next := 0, counts := RecBlock.zero, copyA := RecCopy.blank,
    copyB := RecCopy.blank, useB := false, ring := [], ringNext := 0, ringDue := 2 ^ 20, buckets := [],
    suppressed := 0, timeSet := 0, notify := [], design := [] }

def Stream.unbound : Stream := { bind := none, ref := none, part := none, granted := 0, ready := [] }

/-- The port trains at BSP_DEFAULT, shipped as rate code 3 and 8 lanes (R302). -/
def Bsp.cold : Bsp :=
  { up := false, training := true, rate := 3, width := 8, set := none, locked := 0,
    linkReq := none, txSeq := 0, rxSeq := 0, rxFails := 0, txFails := none, replay := [],
    txNext := 0, rxSeg := .none, rxLane := 0, txScr := [], rxScr := [], txSlots := 0, line := [], decoded := 0,
    streams := [], credits := [], outEn := 0, exports := [], exportSeq := 0, lost := false,
    jnlNext := 0, recNext := 0, blockErrors := 0, naks := 0, retrains := 0,
    refused := 0, discarded := 0, violations := 0, txQueue := [] }

def Load.idle : Load :=
  { phase := .idle, purpose := .load, req := none, full := false, case_ := 0, fromBsp := false,
    stage := .header, buf := [], all := [], head := [], frames := [], hashes := [], headHash := [], digest := [],
    frameIx := 0, existed := 0, fullFailed := false, lastStatus := 0,
    lastReason := 0, lastHost := 0xFF, lastTarget := 0, lastFrame := 0xFFFFFFFF, fetch := none }

def KeySlot.blank : KeySlot := { programmed := false, revoked := false, hash := [] }

/-- A counter reads 0 until it is first raised (R331). -/
def Rollback.blank : Rollback := { seqNo := 0, counters := [], crcGood := false, mark := 0 }

def Hub.cold : Hub :=
  { epoch := none, waiting := [], promo := none, shadow := none, tenures := [], probes := [],
    copy0 := Bank.cold, copy1 := Bank.cold, cur := false, acks := 0, fwA := [], fwB := [], fwCounter := 0 }

def Journal.cold : Journal :=
  { head := 0, window := [], export_ := 0, mode := 0, stopped := false, gaps := 0, skipped := 0,
    abandoned := 0 }

def Device.cold : Device :=
  { now := 0, sysref := true, inReset := .none, resetDue := none, resetUntil := 0, sleep := .awake, alarm := 0, sleepReq := [], sleepAt := 0, wake := false,
    lastReset := 0, lastResetAt := 0, lastBrownOut := 0xFF, lastWake := 0xFF, vsd := true,
    pcieA := .on, pcieB := .on, bspDom := .on, svc := .on, aref := 0, faultN := .hiZ,
    faultCause := 0, wakeN := false, fullUp := false, locks := 0, pinCase := [], trunks := [],
    changed := 0, keys := [], rollA := Rollback.blank, rollB := Rollback.blank, rollUseB := false }

def HostIf.cold : HostIf :=
  { hosts := [], rings := [], assign := [], steward := 0, ready := false, fetched := 0, opened := [], writes := [], fenced := [], retried := [] }

/-- The machine right after a COLD reset has ended: no casement, every tile in the spare pool, pads
resistor-defined, READY not yet set (R417, R426, R428). Assumption 2. -/
def State.reset : State :=
  { dev := Device.cold, tiles := [], cases := [], hif := HostIf.cold, bsp := Bsp.cold,
    load := Load.idle, hub := Hub.cold, jnl := Journal.cold, rcd := Recorder.blank, fresh := 0,
    pending := [] }

end Sys2Proof.Machine
end

