-- ==== Sys2Proof/Machine/Flags.lean ====
section
/-! DEFINITION. Status codes, fault and state flags: what a status byte, a SET_FAULT bit, FAULT_N and the
state bytes of the status descriptors are computed from. -/

namespace Sys2Proof.Machine

/-- The status of a completion (R295). -/
inductive Status where
  | ok | refusedOwnership | badField | busy | shuttered | roleMoved | staleTenure | authFail
  | regionViolation | truncated | wrongDevice | locked | plausibilityFail | abortedReset | overrun
  | notSupported | calibrationActive | referenceUnsettled | hashMismatch | rollbackRefused
  | conflict | queueFull
  deriving DecidableEq, Repr

/-- The code of a status (R295). -/
def statusCode : Status → Nat
  | .ok => 0x00 | .refusedOwnership => 0x01 | .badField => 0x02 | .busy => 0x03
  | .shuttered => 0x04 | .roleMoved => 0x05 | .staleTenure => 0x06 | .authFail => 0x07
  | .regionViolation => 0x08 | .truncated => 0x09 | .wrongDevice => 0x0A | .locked => 0x0B
  | .plausibilityFail => 0x0C | .abortedReset => 0x0D | .overrun => 0x0E | .notSupported => 0x0F
  | .calibrationActive => 0x10 | .referenceUnsettled => 0x11 | .hashMismatch => 0x12
  | .rollbackRefused => 0x13 | .conflict => 0x14 | .queueFull => 0x15

/-- Checks made in order: the first that applies decides (R453). -/
def firstOf : List (Bool × Status) → Option Status
  | [] => none
  | (c, st) :: r => if c then some st else firstOf r

/-- State byte of CASE_STATUS (R378). -/
def caseStCode : CaseSt → Nat
  | .empty => 0 | .loading => 1 | .running => 2 | .paused => 3 | .held => 4 | .stopped => 5
  | .failed => 6

/-- Power state byte of PWR_STATUS (R430). -/
def pwrCode : Pwr → Nat
  | .run => 0 | .doze => 1 | .hold => 2

/-- Shutter state byte of NET_ROUTER_STATUS (R259). -/
def shutCode : Shut → Nat
  | .open_ => 0 | .closing => 1 | .shut => 2 | .opening => 3

/-- Local state byte of NET_ROUTER_STATUS (R259). -/
def localCode : LocalSt → Nat
  | .inService => 0 | .spare => 1 | .retired => 2

/-- Kind byte of a ring (R296). -/
def ringKindCode : RingKind → Nat
  | .submission => 0 | .completion => 1 | .event => 2

/-- Supply code of PWR_STATUS byte 97 (R430). -/
def supplyCode : Supply → Nat
  | .vaux => 0 | .vcore => 1 | .vsram => 2 | .van => 3

/-- Falling threshold of a supply, in mV (R436). -/
def brownOutAt : Supply → Nat
  | .vaux => 1600 | .vcore => 680 | .vsram => 740 | .van => 1600

/-- Class of a bank by its VIO_tt in mV: 0 the 1.8 V class, 1 the 3.3 V class, 2 absent (R434). -/
def bankClass (mv : Nat) : Fin 3 := if mv < 1000 then 2 else if mv ≤ 2400 then 0 else 1

/-- A casement is between a lintel close and a release (R351, R65). -/
def caseStill (k : Casement) : Bool := k.st == .paused || k.st == .held

/-- Emulated cycles of the casement may be under way (R351). -/
def caseActive (k : Casement) : Bool := k.st == .running || caseStill k

/-- The generator is in holdover or out of lock (R442). -/
def clkTroubled : Clk → Bool
  | .holdover | .unlocked | .failed => true
  | .off | .locking | .locked => false

/-- The condition of FAULT_N and its cause code and casement (R442): high-impedance in the situations of R145
that reach it, held in SLEEP, else driven. -/
def faultCond (s : State) : FaultN × Nat × Nat :=
  if s.dev.inReset != .none || !s.dev.fullUp then (.hiZ, 0, 0xFF)
  else if s.dev.sleep == .asleep then (s.dev.faultN, s.dev.faultCause.toNat, 0xFF)
  else match s.cases.find? (fun p => p.2.st == .stopped || p.2.st == .held || p.2.st == .failed) with
    | some p => (.low, 1, p.1)
    | none =>
      if s.load.fullFailed then (.low, 2, 0xFF)
      else match s.cases.find? (fun p => !p.2.lost.isEmpty) with
        | some p => (.low, 3, p.1)
        | none =>
          if s.tiles.any (fun p => clkTroubled p.2.cyc.clk) then (.low, 4, 0xFF)
          else if s.tiles.any (fun p => p.2.net.down != 0) then (.low, 5, 0xFF)
          else (.high, 0, 0xFF)

end Sys2Proof.Machine
end

