-- ==== Sys2Proof/Machine/Ops.lean ====
section
/-! DEFINITION. The named operations over tiles, casements, hosts, free values, role tables, events and
FAULT_N that every family uses. -/

namespace Sys2Proof.Machine

/-! ### Tiles, casements and hosts -/

/-- A tile; one that is not listed is cold. -/
def getTile (s : State) (t : Nat) : Tile := mget Tile.cold s.tiles t

def setTile (s : State) (t : Nat) (x : Tile) : State := { s with tiles := mset s.tiles t x }

def modTile (s : State) (t : Nat) (f : Tile → Tile) : State := setTile s t (f (getTile s t))

/-- An action in every tile of a list, in ascending order. -/
def modTiles (s : State) (ts : List Nat) (f : Nat → Tile → Tile) : State :=
  ts.foldl (fun s t => modTile s t (f t)) s

def getCase (s : State) (c : Nat) : Option Casement := mfind s.cases c

def setCase (s : State) (c : Nat) (k : Casement) : State := { s with cases := mset s.cases c k }

/-- A change of a casement that exists. -/
def modCase (s : State) (c : Nat) (f : Casement → Casement) : State :=
  match getCase s c with
  | some k => setCase s c (f k)
  | none => s

def getHost (s : State) (h : Nat) : HostSt := mget HostSt.cold s.hif.hosts h

def setHost (s : State) (h : Nat) (x : HostSt) : State :=
  { s with hif := { s.hif with hosts := mset s.hif.hosts h x } }

def modHost (s : State) (h : Nat) (f : HostSt → HostSt) : State := setHost s h (f (getHost s h))

def modBp (s : State) (t : Nat) (f : BpState → BpState) : State := modTile s t (fun x => { x with bp := f x.bp })
def modCyc (s : State) (t : Nat) (f : CycState → CycState) : State := modTile s t (fun x => { x with cyc := f x.cyc })
def modFab (s : State) (t : Nat) (f : FabState → FabState) : State := modTile s t (fun x => { x with fab := f x.fab })
def modPin (s : State) (t : Nat) (f : PinState → PinState) : State := modTile s t (fun x => { x with pin := f x.pin })
def modAn (s : State) (t : Nat) (f : AnState → AnState) : State := modTile s t (fun x => { x with an := f x.an })
def modCv (s : State) (t : Nat) (f : CvState → CvState) : State := modTile s t (fun x => { x with cv := f x.cv })
def modCt (s : State) (t : Nat) (f : CtState → CtState) : State := modTile s t (fun x => { x with ct := f x.ct })
def modCal (s : State) (t : Nat) (f : CalState → CalState) : State := modTile s t (fun x => { x with cal := f x.cal })
def modNet (s : State) (t : Nat) (f : Router → Router) : State := modTile s t (fun x => { x with net := f x.net })
def modCtl (s : State) (t : Nat) (f : Ctl → Ctl) : State := modTile s t (fun x => { x with ctl := f x.ctl })
def modDev (s : State) (f : Device → Device) : State := { s with dev := f s.dev }
def modHif (s : State) (f : HostIf → HostIf) : State := { s with hif := f s.hif }
def modHub (s : State) (f : Hub → Hub) : State := { s with hub := f s.hub }
def modRcd (s : State) (f : Recorder → Recorder) : State := { s with rcd := f s.rcd }
def modLoad (s : State) (f : Load → Load) : State := { s with load := f s.load }
def modBsp (s : State) (f : Bsp → Bsp) : State := { s with bsp := f s.bsp }
def modJnl (s : State) (f : Journal → Journal) : State := { s with jnl := f s.jnl }

/-- A change of the journal settings of a casement that exists. -/
def modJnlCase (s : State) (c : Nat) (f : JnlCase → JnlCase) : State :=
  modCase s c (fun k => { k with jnl := f k.jnl })

/-- All tile numbers (R4). -/
def allTiles : List Nat := List.range 96

/-- The tiles of a mask, in ascending order. -/
def tilesOf (r : BitVec 96) : List Nat := allTiles.filter (fun t => r.getLsbD t)

/-- The mask of a list of tiles. -/
def maskOf (ts : List Nat) : BitVec 96 := ts.foldl (fun r t => setBit r t true) 0

/-- The sector of a tile (R4). -/
def sectorOf (t : Nat) : Nat := t / 24

/-- The casement that a tile belongs to. -/
def caseOfTile (s : State) (t : Nat) : Option (Nat × Casement) := s.cases.find? (fun p => p.2.region.getLsbD t)

/-- Casement byte of a tile, or 0xFF. -/
def caseByte (s : State) (t : Nat) : Nat := match caseOfTile s t with
  | some p => p.1
  | none => 0xFF

/-- The SAR, timer and fabric clocks of a tile are gated: its casement is in DOZE (R418). -/
def dozed (s : State) (t : Nat) : Bool := match caseOfTile s t with
  | some p => p.2.pwr == .doze
  | none => false

/-! ### Configuration bytes -/

/-- Address of a byte of a configuration space (R325, R326). -/
def cfgAddr (cls off : Nat) : Nat := cls * 2 ^ 26 + off

/-- The cold value of a configuration byte: 0, but no net for the AIN selects (R159, R326). -/
def cfgCold (a : Nat) : Byte :=
  if cfgAddr 0x18 152 ≤ a && a < cfgAddr 0x18 158 then 0x3F else 0

/-- n bytes of a configuration space as a number. -/
def cfgRead (x : Tile) (cls off n : Nat) : Nat := leNat (memGets cfgCold x.cfg (cfgAddr cls off) n)

/-- A number written into n bytes of a configuration space. -/
def cfgWrite (x : Tile) (cls off n v : Nat) : Tile :=
  { x with cfg := memPuts cfgCold x.cfg (cfgAddr cls off) (leBytes n v) }

/-! ### Free values and time -/

/-- An open bit, and the count of free values one higher (assumption 3). -/
def drawBit (s : State) (site : Nat) : Bool × State := (Config.freeBit s.fresh site, { s with fresh := s.fresh + 1 })

/-- An open number, and the count of free values one higher (assumption 3). -/
def drawNat (s : State) (site : Nat) : Nat × State := (Config.freeNat s.fresh site, { s with fresh := s.fresh + 1 })

/-- Device time at the first 100 MHz edge after now (R141, R144): open within one period. -/
def edgeTime (s : State) : Time × State :=
  let p := drawNat s 1
  (s.dev.now + 1 + BitVec.ofNat 64 (p.1 % 10), p.2)

/-! ### Events -/

/-- The argument of an event from bytes 0, 1 and 2-3. -/
def evArg (b0 b1 w : Nat) : BitVec 32 := BitVec.ofNat 32 (b0 % 256 + 256 * (b1 % 256) + 65536 * (w % 65536))

/-- The settings and tokens of a code (R408). -/
def getBucket (s : State) (code : Nat) : Bucket := mget Bucket.start s.rcd.buckets code

def setBucket (s : State) (code : Nat) (b : Bucket) : State :=
  modRcd s (fun r => { r with buckets := mset r.buckets code b })

/-- A posting of a source class counted as suppressed under its code (R408, R409, R413). -/
def suppress (s : State) (code : Nat) (src : BitVec 4) : State :=
  let b := getBucket s code
  modRcd (setBucket s code { b with suppressed := bump b.suppressed, src := src })
    (fun r => { r with suppressed := bump r.suppressed })

/-- An event on its way to the recorder (R400). -/
def postEv (s : State) (e : Ev) : State := modRcd s (fun r => { r with posted := r.posted ++ [e] })

/-- An event raised now. -/
def mkEv (s : State) (code src : Nat) (arg : BitVec 32) (held : Bool) : Ev :=
  { time := s.dev.now, code := BitVec.ofNat 12 code, src := BitVec.ofNat 4 src, arg := arg, held := held, kind := .plain }

/-- An event raised now with a code, a source class and an argument (R16, R402). -/
def postArg (s : State) (code src : Nat) (arg : BitVec 32) : State := postEv s (mkEv s code src arg false)

def post (s : State) (code src b0 b1 w : Nat) : State := postArg s code src (evArg b0 b1 w)

/-- An event that a tile raises: while its controller restarts it waits in the tile's event buffer of 64 entries,
and one that does not fit is counted as suppressed (R24, R409). -/
def postTile (s : State) (t code src b0 b1 w : Nat) : State :=
  let x := getTile s t
  if x.ctl.restarting then
    if x.ctl.buffer.length < 64 then
      modCtl s t (fun c => { c with buffer := c.buffer ++ [mkEv s code src (evArg b0 b1 w) true] })
    else suppress s code (BitVec.ofNat 4 src)
  else post s code src b0 b1 w

/-! ### Role tables (R245 to R247) -/

/-- The cold entry: no tile, tenure 0, unassigned. -/
def coldEntry : BitVec 64 := 0x7F7F

/-- Service port tile of a fixed role (R246). -/
def fixedTile (r : Nat) : Nat := if r < 244 then 0 else if r < 248 then 95 else if r = 248 then 11 else 84

/-- The entry of a role in a bank; roles 240 to 255 are fixed (R246). -/
def roleEntry (b : Bank) (r : Nat) : BitVec 64 :=
  if r < 240 then mget coldEntry b.roles r
  else if r < 250 then BitVec.ofNat 64 (fixedTile r + 2 ^ 7 + 127 * 2 ^ 8 + 2 * 2 ^ 37)
  else coldEntry

def rtTile0 (e : BitVec 64) : Nat := bitsOf e.toNat 0 7
def rtLive0 (e : BitVec 64) : Bool := e.getLsbD 7
def rtTile1 (e : BitVec 64) : Nat := bitsOf e.toNat 8 7
def rtLive1 (e : BitVec 64) : Bool := e.getLsbD 15
def rtTenure (e : BitVec 64) : Nat := bitsOf e.toNat 16 16
def rtCase (e : BitVec 64) : Nat := bitsOf e.toNat 32 5
def rtState (e : BitVec 64) : Nat := bitsOf e.toNat 37 3

/-- An entry from its fields. -/
def mkEntry (t0 : Nat) (l0 : Bool) (t1 : Nat) (l1 : Bool) (tenure c st : Nat) : BitVec 64 :=
  BitVec.ofNat 64 (t0 + 2 ^ 7 * l0.toNat + 2 ^ 8 * t1 + 2 ^ 15 * l1.toNat + 2 ^ 16 * tenure + 2 ^ 32 * c + 2 ^ 37 * st)

/-- The live tiles of an entry. -/
def liveTiles (e : BitVec 64) : List Nat :=
  (if rtLive0 e then [rtTile0 e] else []) ++ (if rtLive1 e then [rtTile1 e] else [])

/-- The entry lists a tile as live (R249). -/
def listsLive (e : BitVec 64) (t : Nat) : Bool := (liveTiles e).contains t

/-- The two tiles of a role are live. -/
def bothLive (e : BitVec 64) : Bool := rtLive0 e && rtLive1 e

/-- The bank that a route epoch names (R247). -/
def rtBank (r : Router) (e : Bool) : Bank := if e then r.bank1 else r.bank0

/-- The service hub's own copy of the bank in force (R253, R368). -/
def hubBank (s : State) : Bank := if s.hub.cur then s.hub.copy1 else s.hub.copy0

/-- The bank in force for the VC0 epoch of a tile's casement (R136, R250). -/
def tileBank (s : State) (t : Nat) : Bank := let r := (getTile s t).net; rtBank r r.vc0Epoch

/-- The first role of a bank that lists a tile as live. -/
def roleIn (b : Bank) (t : Nat) : Option Nat := (b.roles.find? (fun p => listsLive p.2 t)).map (·.1)

/-- The role that a tile holds. -/
def roleOf (s : State) (t : Nat) : Option Nat := roleIn (tileBank s t) t

/-- Role byte of a tile, or 0xFF. -/
def roleByte (s : State) (t : Nat) : Nat := (roleOf s t).getD 0xFF

/-- The entry of the role that a tile holds. -/
def entryOf (s : State) (t : Nat) : BitVec 64 := match roleOf s t with
  | some r => roleEntry (tileBank s t) r
  | none => coldEntry

/-- The live duplex partner of a tile. -/
def partnerOf (s : State) (t : Nat) : Option Nat :=
  let e := entryOf s t
  if bothLive e then some (if rtTile0 e = t then rtTile1 e else rtTile0 e) else none

/-- The tenure after one placement (R366). -/
def nextTenure (n : Nat) : Nat := if n + 1 > 65535 then 1 else n + 1

/-- The tile has a stale tenure (R136): retired, or no longer listed as live though the casement gave it a role. -/
def staleTenure (s : State) (t : Nat) : Bool :=
  let x := getTile s t
  x.net.localSt == .retired ||
    (x.net.localSt == .inService && (roleOf s t).isNone && s.cases.any (fun p => p.2.lost.any (fun q => q.2 = t)))

/-! ### Set-up faults and FAULT_N -/

/-- A write into a host's memory (R263). -/
def hostWrite (s : State) (h : HostId) (addr : BitVec 64) (data : List Byte) : State :=
  modHif s (fun f => { f with writes := f.writes ++ [{ host := h, addr := addr, data := data }] })

/-- An MSI-X vector of a host signals: a memory write, or the pending bit when the vector is masked (R287). -/
def signalVector (s : State) (h : HostId) (v : Nat) : State :=
  let e := mget MsixEntry.cold (getHost s h).msix v
  if e.ctrl.getLsbD 0 then modHost s h (fun x => { x with pba := setBit x.pba v true })
  else hostWrite s h e.addr (leBytes 4 e.data.toNat)

/-- The vector of SET_MSIX_FAULT signals when it is enabled (R265). -/
def signalFault (s : State) (h : HostId) : State :=
  let x := getHost s h
  if x.msixFault.getLsbD 7 then signalVector s h (bitsOf x.msixFault.toNat 0 6) else s

/-- A SET_FAULT bit is set; going from 0 to 1 it signals (R265). -/
def raiseFault (s : State) (h : HostId) (bit : Nat) : State :=
  if (getHost s h).fault.getLsbD bit then s
  else signalFault (modHost s h (fun x => { x with fault := setBit x.fault bit true })) h

/-- DEVICE_FAULT goes to 1 at every host (R265). -/
def signalDeviceFault (s : State) : State :=
  (List.finRange 8).foldl (fun s h => signalFault s h) s

/-- FAULT_N brought to the level of R442; a change between driven high and driven low is posted (R431). -/
def settleFaultN (s : State) : State :=
  let c := faultCond s
  let s1 := modDev s (fun d => { d with faultN := c.1, faultCause := BitVec.ofNat 8 c.2.1 })
  match s.dev.faultN, c.1 with
  | .high, .low => signalDeviceFault (post s1 0x006 0 1 c.2.1 c.2.2)
  | .low, .high => post s1 0x006 0 0 c.2.1 c.2.2
  | .hiZ, .low => signalDeviceFault s1
  | _, _ => s1

/-- The changed flag of a casement is set (R343). -/
def markChanged (s : State) (c : Nat) : State := modDev s (fun d => { d with changed := setBit d.changed c true })

/-- PWR_STATE_CHANGED: casement, new and old power state (R431). -/
def postPwr (s : State) (c : Nat) (new old : Pwr) : State := post s 0x003 0 c (pwrCode new) (pwrCode old)

end Sys2Proof.Machine
end

