-- ==== Sys2Proof/Machine/Routes.lean ====
section
/-! DEFINITION. Headers of packets, links and routes of the torus, and the way of a DESCRIPTOR packet from its host's port
(spec/10_network.md R235 to R240, R244, spec/01_architecture.md R20). -/

namespace Sys2Proof.Machine

/-! ### Links of the torus (R235) -/

/-- The router at the other end of a port 0-3. -/
def neighbour (t port : Nat) : Nat :=
  let x := t % 12
  let y := t / 12
  match port with
  | 0 => 12 * y + (x + 1) % 12
  | 1 => 12 * y + (x + 11) % 12
  | 2 => 12 * ((y + 1) % 8) + x
  | _ => 12 * ((y + 7) % 8) + x

/-- The port at the other end of a link. -/
def backPort (port : Nat) : Nat := if port % 2 = 0 then port + 1 else port - 1

/-- The avoid-map bit of the link at a port 0-3 (R245). -/
def linkOf (t port : Nat) : Nat := match port with
  | 0 => 2 * t
  | 1 => 2 * neighbour t 1
  | 2 => 2 * t + 1
  | _ => 2 * neighbour t 3 + 1

/-! ### Headers (R238 to R240) -/

def hdrDst (h : BitVec 64) : Nat := bitsOf h.toNat 0 8
def hdrDstTenure (h : BitVec 64) : Nat := bitsOf h.toNat 8 16
def hdrSrc (h : BitVec 64) : Nat := bitsOf h.toNat 24 8
def hdrSrcTenure (h : BitVec 64) : Nat := bitsOf h.toNat 32 16
def hdrVc (h : BitVec 64) : Nat := bitsOf h.toNat 48 2
def hdrEpoch (h : BitVec 64) : Bool := h.getLsbD 50
def hdrLen (h : BitVec 64) : Nat := bitsOf h.toNat 51 3
def hdrType (h : BitVec 64) : Nat := bitsOf h.toNat 54 6

/-- A packet header (R238). -/
def mkHeader (type len : Nat) (epoch : Bool) (vc srcTen srcRole dstTen dstRole : Nat) : BitVec 64 :=
  BitVec.ofNat 64 (dstRole + 2 ^ 8 * dstTen + 2 ^ 24 * srcRole + 2 ^ 32 * srcTen + 2 ^ 48 * vc + 2 ^ 50 * epoch.toNat +
    2 ^ 51 * len + 2 ^ 54 * type)

/-- A packet of whole flits from its data bytes. -/
def mkPacket (type : Nat) (epoch : Bool) (vc srcTen srcRole dstTen dstRole : Nat) (data : List Byte) : Packet :=
  let n := max 1 ((data.length + 63) / 64)
  { hdr := mkHeader type (n - 1) epoch vc srcTen srcRole dstTen dstRole, data := padTo (64 * n) data }

/-- The packet's DEST_ROLE field holds a tile number (R239, R240). A BOUNCE goes to a tile when its DEST_TENURE is 0,
which no assigned role has, and its destination is no fixed role. -/
def tileAddressed (h : BitVec 64) : Bool :=
  let ty := hdrType h
  let d := hdrDst h
  if ty ∈ [0x10, 0x11, 0x20, 0x22, 0x23, 0x24, 0x27, 0x28] then true
  else if ty = 0x02 then d != 249
  else if ty = 0x07 then d != 248 && d != 249
  else if ty = 0x26 then hdrDstTenure h == 0 && decide (d < 240)
  else false

/-- The VC of a TYPE, none for a reserved one (R240). A PROBE travels on the VC that NET_PROBE names, 1 to 3 (R258). -/
def typeVc (ty vc : Nat) : Option Nat :=
  if ty = 0x01 then some 0
  else if ty ∈ [0x02, 0x03, 0x04, 0x05, 0x06] then some 1
  else if ty ∈ [0x07, 0x08, 0x10, 0x11, 0x12, 0x13, 0x14] then some 2
  else if ty = 0x27 then some (if vc = 0 then 3 else vc)
  else if ty ∈ [0x20, 0x21, 0x22, 0x23, 0x24, 0x25, 0x26, 0x28] then some 3
  else none

/-- A packet that every router drops (R240). -/
def malformed (p : Packet) : Bool :=
  let h := p.hdr
  typeVc (hdrType h) (hdrVc h) != some (hdrVc h) || bitsOf h.toNat 60 4 != 0 ||
    (if tileAddressed h then decide (95 < hdrDst h) else decide (250 ≤ hdrDst h)) ||
    64 * (hdrLen h + 1) != p.data.length

/-! ### Routes (R236) -/

/-- n hops from a tile through a port meet no avoided link. -/
def clearPath (av : Nat → Bool) (port : Nat) : Nat → Nat → Bool
  | 0, _ => true
  | n + 1, t => !av (linkOf t port) && clearPath av port n (neighbour t port)

/-- The port in one dimension: the shorter way, the + way on a tie, the other way where the first crosses an avoided
link, none where both do. -/
def dimPort (av : Nat → Bool) (t plus size dist : Nat) : Option Nat :=
  let short_ := if 2 * dist ≤ size then (plus, dist) else (plus + 1, size - dist)
  let long_ := if 2 * dist ≤ size then (plus + 1, size - dist) else (plus, dist)
  if clearPath av short_.1 short_.2 t then some short_.1
  else if clearPath av long_.1 long_.2 t then some long_.1
  else none

/-- The output port from a router toward another tile's router: X first, then Y. -/
def routePort (av : Nat → Bool) (t d : Nat) : Option Nat :=
  if t % 12 = d % 12 then dimPort av t 2 8 ((d / 12 + 8 - t / 12) % 8)
  else dimPort av t 0 12 ((d % 12 + 12 - t % 12) % 12)

/-- The output port of a packet, with the links at which it has been sent the other way round. A link that is down as the
packet reaches it is one of these from here on, at this router and at every later one (R236, R244). -/
def hop (s : State) (b : Bank) (t d : Nat) (turned : List Nat) : Option (Nat × List Nat) :=
  let r := (getTile s t).net
  let go := fun (av : List Nat) => routePort (fun l => b.avoid.getLsbD l || av.contains l) t d
  match go turned with
  | none => none
  | some p =>
    if !r.down.getLsbD p then some (p, turned)
    else
      let more := turned ++ [linkOf t p]
      match go more with
      | some p2 => if r.down.getLsbD p2 then none else some (p2, more)
      | none => none

/-- Links between two routers along the route without down links. -/
def hopsTo (b : Bank) (d : Nat) : Nat → Nat → Nat
  | 0, _ => 0
  | n + 1, t => if t = d then 0 else match routePort (fun l => b.avoid.getLsbD l) t d with
    | some p => hopsTo b d n (neighbour t p) + 1
    | none => 0

/-- A router lies on the way of a packet from tile u to tile d (R236). -/
def onRoute (b : Bank) (t d : Nat) : Nat → Nat → Bool
  | 0, _ => false
  | n + 1, u => u == t || (u != d && match routePort (fun l => b.avoid.getLsbD l) u d with
    | some p => onRoute b t d n (neighbour u p)
    | none => false)

/-- The router at which a packet from router t to router d is dropped as unroutable, if it is (R236). -/
def lostAt (s : State) (b : Bank) (d : Nat) : Nat → Nat → List Nat → Option Nat
  | 0, t, _ => some t
  | n + 1, t, turned => if t = d then none else match hop s b t d turned with
    | some p => lostAt s b d n (neighbour t p.1) p.2
    | none => some t

/-! ### Counts (R251, R259) -/

/-- A packet enters the network at a router, in its bank. -/
def countIn (s : State) (t : Nat) (e : Bool) : State :=
  modNet s t (fun r => if e then { r with injected1 := r.injected1 + 1 } else { r with injected0 := r.injected0 + 1 })

/-- A packet ends at a router: delivered, dropped, absorbed or bounced. -/
def countOut (s : State) (t : Nat) (e : Bool) : State :=
  modNet s t (fun r => if e then { r with ejected1 := r.ejected1 + 1 } else { r with ejected0 := r.ejected0 + 1 })

/-- A packet is dropped, counted and reported (R240, R260). -/
def dropPacket (s : State) (t : Nat) (h : BitVec 64) : State :=
  postTile (modNet (countOut s t (hdrEpoch h)) t (fun r => { r with drops := bump r.drops })) t 0x303 2 t (hdrType h) (hdrDst h)

/-! ### Descriptors on their way (R20, R256, R279) -/

/-- The destination of a descriptor. Opcodes 0x00 to 0x0F are served at the host's port. Those of chapters 2 to 9 that name
a tile in byte 28 go to it, and every other one to the service hub, role 249: DEDUCED from R20, R240 and R417 (assumption 6).
One that names no tile of the device is not sent. -/
inductive DescDest where
  | port
  | tile (t : Nat)
  | hub
  deriving DecidableEq, Repr

def descDest (q : Req) : DescDest :=
  let op := q.d.op.toNat
  if op < 0x10 then .port
  else if (0x30 ≤ op && op < 0x36) || op = 0x3B || op = 0x3C || (0x40 ≤ op && op < 0x80)
  then (if dByte q.d 28 < 96 then .tile (dByte q.d 28) else .port)
  else .hub

/-- The service port of a host's PCIe port (R5, R262). -/
def portTile (h : HostId) : Nat := if h.val < 4 then 0 else 95

/-- What becomes of a descriptor's packet. -/
inductive Sent where
  /-- it reaches its destination -/
  | arrived (s : State)
  /-- the hub's service port bounces it with SHUTTERED -/
  | bounced (s : State)
  /-- it is unroutable, and dropped: the descriptor never completes -/
  | lost (s : State)

/-- The header of a descriptor's packet. -/
def descHeader (q : Req) (e : Bool) : BitVec 64 := match descDest q with
  | .tile t => mkHeader 0x02 0 e 1 0 (240 + q.host.val) 0 t
  | .hub | .port => mkHeader 0x02 0 e 1 0 (240 + q.host.val) 0 249

/-- A packet bounced with SHUTTERED, counted where it ends (R256, R259). -/
def countShut (s : State) (t : Nat) : State := modNet s t (fun r => { r with bouncedShut := bump r.bouncedShut })

/-- A DESCRIPTOR packet crosses the network to the tile or the hub. A tile's shutter is judged with the descriptor's other
rows (R59), which name SHUTTERED in their own place. -/
def sendDesc (q : Req) (s : State) : Sent :=
  let src := portTile q.host
  let go := fun (d : Nat) (hub : Bool) =>
    let r := (getTile s src).net
    let e := r.svcEpoch
    let s1 := countIn s src e
    match lostAt s (rtBank r e) d 20 src [] with
    | some u => Sent.lost (dropPacket s1 u (descHeader q e))
    | none =>
      let s2 := countOut s1 d e
      if hub && (getTile s d).net.svcShut != .open_ then Sent.bounced (countShut s2 d) else Sent.arrived s2
  match descDest q with
  | .port => .arrived s
  | .tile t => go t false
  | .hub => go 84 true

end Sys2Proof.Machine
end

