-- ==== Sys2Proof/WellFormed.lean ====
section
/-! DEFINITION. Which commands are well formed: operands whose bounds the types of Syntax.lean do not carry. -/

namespace Sys2Proof

/-- The opcodes that a chapter lists; every other opcode is reserved (R294). -/
def listedOpcodes : List Nat :=
  List.range 8 ++ (List.range 4).map (· + 0x10) ++ (List.range 14).map (· + 0x20) ++
  (List.range 6).map (· + 0x30) ++ (List.range 5).map (· + 0x38) ++ (List.range 6).map (· + 0x40) ++
  (List.range 4).map (· + 0x50) ++ (List.range 7).map (· + 0x58) ++ (List.range 10).map (· + 0x60) ++
  (List.range 6).map (· + 0x70) ++ (List.range 4).map (· + 0x78) ++ (List.range 6).map (· + 0x80) ++
  (List.range 8).map (· + 0x90) ++ (List.range 7).map (· + 0xA0) ++ (List.range 4).map (· + 0xA8) ++
  (List.range 4).map (· + 0xB0)

/-- An opcode byte that no chapter lists completes with NOT_SUPPORTED (R294). -/
def reservedOp (op : Byte) : Bool := !listedOpcodes.contains op.toNat

/-- A packet is 1 to 8 flits of 64 data bytes (R238). -/
def Packet.wf (p : Packet) : Bool :=
  p.data.length % 64 == 0 && decide (64 ≤ p.data.length) && decide (p.data.length ≤ 512)

/-- A flit has 64 data bytes (R238). -/
def Flit.wf (f : Flit) : Bool := f.data.length == 64

/-- A read of a poll is of 8 bytes, of 1 KiB or of 256 bytes (R273). -/
def PollReads.wf (r : PollReads) : Bool := r.mem.all (fun p => p.2.length == 8 || p.2.length == 1024 || p.2.length == 256)

/-- The opcode byte of a command that is a descriptor, with its request (R294). -/
def Instr.request : Instr → Option (Nat × Req)
  | .nop q => some (0x00, q)
  | .ringCreate q => some (0x01, q)
  | .ringDelete q => some (0x02, q)
  | .ringModerate q => some (0x03, q)
  | .ringQuery q => some (0x04, q)
  | .ringAssign q => some (0x05, q)
  | .stewardHandover q => some (0x06, q)
  | .hostStatus q => some (0x07, q)
  | .cfgLoad q => some (0x10, q)
  | .cfgStatus q => some (0x11, q)
  | .cfgKeyProgram q => some (0x12, q)
  | .cfgKeyRevoke q => some (0x13, q)
  | .caseCreate q => some (0x20, q)
  | .caseDissolve q => some (0x21, q)
  | .caseOwner q => some (0x22, q)
  | .caseReset q => some (0x23, q)
  | .casePolicy q => some (0x24, q)
  | .casePinAssign q => some (0x25, q)
  | .rolePromote q => some (0x26, q)
  | .roleRetire q => some (0x27, q)
  | .tileRetest q => some (0x28, q)
  | .tileRepair q => some (0x29, q)
  | .tcFwLoad q => some (0x2A, q)
  | .tcFwActivate q => some (0x2B, q)
  | .caseStatus q => some (0x2C, q)
  | .tileStatus q => some (0x2D, q)
  | .bpPeek q => some (0x30, q)
  | .bpPoke q => some (0x31, q)
  | .memPeek q => some (0x32, q)
  | .memPoke q => some (0x33, q)
  | .scheduleInfo q => some (0x34, q)
  | .storeStatus q => some (0x35, q)
  | .cycleRate q => some (0x38, q)
  | .cyclePause q => some (0x39, q)
  | .cycleStep q => some (0x3A, q)
  | .boundaryPeek q => some (0x3B, q)
  | .lintelStatus q => some (0x3C, q)
  | .pinWrite q => some (0x40, q)
  | .pinRead q => some (0x41, q)
  | .pinSetup q => some (0x42, q)
  | .pinLine q => some (0x43, q)
  | .pinLock q => some (0x44, q)
  | .pinStatus q => some (0x45, q)
  | .anCellSet q => some (0x50, q)
  | .anNetSet q => some (0x51, q)
  | .anPinSet q => some (0x52, q)
  | .anStatus q => some (0x53, q)
  | .cmpSet q => some (0x58, q)
  | .cmpEvbind q => some (0x59, q)
  | .cmpCheck q => some (0x5A, q)
  | .tmSet q => some (0x5B, q)
  | .tmArm q => some (0x5C, q)
  | .tmRead q => some (0x5D, q)
  | .ctStatus q => some (0x5E, q)
  | .cvSetup q => some (0x60, q)
  | .cvSeqSet q => some (0x61, q)
  | .cvInjSet q => some (0x62, q)
  | .cvStart q => some (0x63, q)
  | .cvInject q => some (0x64, q)
  | .cvAccSet q => some (0x65, q)
  | .cvAccRead q => some (0x66, q)
  | .cvTrkRead q => some (0x67, q)
  | .cvSnap q => some (0x68, q)
  | .cvStatus q => some (0x69, q)
  | .calCapture q => some (0x70, q)
  | .calCompute q => some (0x71, q)
  | .calCellZero q => some (0x72, q)
  | .calSlice q => some (0x73, q)
  | .calLimits q => some (0x74, q)
  | .calRead q => some (0x75, q)
  | .fabricRamRead q => some (0x78, q)
  | .fabricRamWrite q => some (0x79, q)
  | .fabricStatus q => some (0x7A, q)
  | .fabricClock q => some (0x7B, q)
  | .bspLink q => some (0x80, q)
  | .bspStatus q => some (0x81, q)
  | .bspStreamBind q => some (0x82, q)
  | .bspExportSet q => some (0x83, q)
  | .bspStreamReset q => some (0x84, q)
  | .bspOutSet q => some (0x85, q)
  | .jnlControl q => some (0x90, q)
  | .jnlExport q => some (0x91, q)
  | .jnlRead q => some (0x92, q)
  | .jnlStatus q => some (0x93, q)
  | .jnlCheckpoint q => some (0x94, q)
  | .jnlMark q => some (0x95, q)
  | .jnlShadow q => some (0x96, q)
  | .jnlReplay q => some (0x97, q)
  | .recRead q => some (0xA0, q)
  | .recStatus q => some (0xA1, q)
  | .recTimeSet q => some (0xA2, q)
  | .recPost q => some (0xA3, q)
  | .recLimit q => some (0xA4, q)
  | .recNotify q => some (0xA5, q)
  | .recDesignBind q => some (0xA6, q)
  | .pwrState q => some (0xA8, q)
  | .pwrSleep q => some (0xA9, q)
  | .pwrReset q => some (0xAA, q)
  | .pwrStatus q => some (0xAB, q)
  | .netRouterStatus q => some (0xB0, q)
  | .netRoleRead q => some (0xB1, q)
  | .netProbe q => some (0xB2, q)
  | .netLinkRetrain q _ => some (0xB3, q)
  | .reservedOpcode op q => some (op.toNat, q)
  | _ => none

/-- Operands within their bounds. -/
def Instr.bounded : Instr → Bool
  | .bundleArrival _ p | .packetInject _ p | .bounce _ p _ _ | .probe _ p | .probeReply p _ => p.wf
  | .flitReceive _ (.service f) _ => f.wf
  | .registerWrite _ off wide _ => off.val % (if wide then 8 else 4) == 0
  | .doorbellPoll _ r => r.wf
  | .reservedOpcode op _ => reservedOp op
  | .resetEnd _ vio => vio.length == 96
  | .sleepWake vio | .holdExit _ vio => vio.length == 96
  | .fabricRamPortAAccess _ _ ups _ _ => ups.all (fun p => decide (p.1 < 4096))
  | .bspLinkUp lanes => lanes.length == 8
  | .marchTestDone _ r => decide (r.failing.toNat ≤ 9)
  | _ => true

/-- The commands that the world can send: a descriptor's opcode byte is its command's (R294). -/
def Instr.wellFormed (i : Instr) : Bool := i.bounded && (match i.request with
  | some (op, q) => q.d.op.toNat == op
  | none => true)

end Sys2Proof
end

