-- ==== Sys2Proof/Machine/Rings.lean ====
section
/-! DEFINITION. Rings of the hosts: entries, completion records, moderation and MSI-X signals, ring errors and
notices, and the runner that every descriptor goes through (spec/11_host_rings.md). -/

namespace Sys2Proof.Machine

/-- A ring: one of the two admin rings of a host, or a pool context (R267, R277). -/
inductive RingRef where
  | adminSq (h : HostId)
  | adminCq (h : HostId)
  | pool (c : Nat)
  deriving DecidableEq, Repr

/-- The ring, when it is live. -/
def getRing (s : State) : RingRef → Option Ring
  | .adminSq h => (getHost s h).adminSq
  | .adminCq h => (getHost s h).adminCq
  | .pool c => mfind s.hif.rings c

def setRing (s : State) (r : RingRef) (x : Ring) : State :=
  match r with
  | .adminSq h => modHost s h (fun y => { y with adminSq := some x })
  | .adminCq h => modHost s h (fun y => { y with adminCq := some x })
  | .pool c => modHif s (fun f => { f with rings := mset f.rings c x })

/-- A change of a live ring. -/
def modRing (s : State) (r : RingRef) (f : Ring → Ring) : State :=
  match getRing s r with
  | some x => setRing s r (f x)
  | none => s

/-- Context number of a ring, 0xFFFF for an admin ring (R281). -/
def refContext : RingRef → Nat
  | .pool c => c
  | .adminSq _ | .adminCq _ => 0xFFFF

/-- The submission ring that carried a descriptor. -/
def sqRef (q : Req) : RingRef := match q.ring with
  | some c => .pool c.toNat
  | none => .adminSq q.host

/-- The completion ring of a submission ring. -/
def cqRef (h : HostId) (x : Ring) : RingRef := match x.bound with
  | some c => .pool c.toNat
  | none => .adminCq h

/-- Vector, IRQ_EN, MOD_COUNT and MOD_TIME of a ring; the admin completion ring takes SET_MSIX_ADMIN (R265, R286). -/
def ringIrq (s : State) (r : RingRef) (x : Ring) : Nat × Bool × Nat × Nat :=
  match r with
  | .adminCq h =>
    let m := (getHost s h).msixAdmin.toNat
    (bitsOf m 0 6, bitAt m 7, bitsOf m 8 8, bitsOf m 16 16)
  | _ => (x.vector.toNat, x.irq, x.modCount, x.modTime.toNat)

/-- The ring signals its vector, and counts its entries afresh (R286). -/
def signalRing (s : State) (r : RingRef) : State :=
  match getRing s r with
  | none => s
  | some x =>
    let m := ringIrq s r x
    if m.2.1 then signalVector (setRing s r { x with unsignalled := 0 }) x.owner m.1 else s

/-- The ring signals once MOD_COUNT counting entries have been written since its last signal (R286). -/
def signalDue (s : State) (r : RingRef) : State := match getRing s r with
  | none => s
  | some x => if x.kind != .submission && decide (0 < x.unsignalled) && decide ((ringIrq s r x).2.2.1 ≤ x.unsignalled)
    then signalRing s r else s

/-- Size of a ring in entries (R277). -/
def ringSize (x : Ring) : Nat := 2 ^ x.log2

/-- Entries written and not yet consumed, modulo 2^32 (R272). -/
def ringUsed (x : Ring) : Nat := (x.count + 2 ^ 32 - x.index.toNat) % 2 ^ 32

/-- Phase of entry k of a ring: 1 XOR ((k div size) AND 1) (R281). -/
def phaseOf (x : Ring) : Bool := (x.count / ringSize x) % 2 == 0

/-- The 16 bytes of an entry with its phase bit in bit 0 of byte 5. -/
def withPhase (p : Bool) (e : List Byte) : List Byte := e.set 5 (setBit (e.getD 5 0) 0 p)

/-- One 16-byte entry written at entry count mod size; a counting entry may signal (R281, R286, R287). -/
def writeEntry (s : State) (r : RingRef) (counts : Bool) (e : List Byte) : State :=
  match getRing s r with
  | none => s
  | some x =>
    let s1 := hostWrite s x.owner (x.base + BitVec.ofNat 64 (16 * (x.count % ringSize x))) (withPhase (phaseOf x) e)
    let n := if counts then x.unsignalled + 1 else x.unsignalled
    signalDue (setRing s1 r { x with count := x.count + 1, unsignalled := n }) r

/-- A number added to the merge count in bytes 6-7 of a waiting entry, saturating (R209, R282). -/
def mergeEntry (old new_ : List Byte) : List Byte :=
  let n := satAdd 65535 (fieldAt old 6 2) (fieldAt new_ 6 2)
  slice new_ 0 5 ++ [setBit (new_.getD 5 0) 1 true] ++ leBytes 2 n ++ new_.drop 8

/-- An entry for an event ring: it merges with a waiting entry of its key, is written when there is room, and
waits otherwise (R282). The Bool says that it merged. -/
def putEntry (s : State) (c : Nat) (key : Nat) (e : List Byte) : Bool × State :=
  match mfind s.hif.rings c with
  | none => (false, s)
  | some x =>
    if x.error || x.kind != .event then (false, s)
    else if x.waiting.any (fun w => w.key = key) then
      let ws := x.waiting.map (fun w => if w.key = key then { w with bytes := mergeEntry w.bytes e } else w)
      (true, setRing s (.pool c) { x with waiting := ws })
    else if x.waiting.isEmpty && ringUsed x < ringSize x then (false, writeEntry s (.pool c) true e)
    else (false, setRing s (.pool c) { x with waiting := x.waiting ++ [{ key := key, bytes := e }] })

/-- Key of an event-ring source: kind, then the source within it (R282). -/
def entryKey (kind src : Nat) : Nat := 2 ^ 24 * kind + src

/-- The notice ring of a host (R283). -/
def noticeRing (s : State) (h : HostId) : Option Nat :=
  (s.hif.rings.find? (fun p => p.2.kind == .event && p.2.notice && p.2.owner == h)).map (·.1)

/-- A ring as the source of notices: the admin rings have numbers of their own (R282). -/
def ringSource : RingRef → Nat
  | .pool c => c
  | .adminSq _ => 0x10000
  | .adminCq _ => 0x10001

/-- A live ring goes to ERROR: RING_ERR and HOST_RING_ERROR (R284). -/
def failRing (s : State) (r : RingRef) (reason : Nat) : State :=
  match getRing s r with
  | none => s
  | some x => if x.error then s
    else post (raiseFault (setRing s r { x with error := true, reason := BitVec.ofNat 8 reason }) x.owner 2) 0x405 4
      x.owner.val reason (refContext r)

/-- An entry given to a ring now would be written at once, and its write fails. -/
def writeFails (x : Ring) : Bool :=
  x.noWrite && !x.error && x.kind == .event && x.waiting.isEmpty && decide (ringUsed x < ringSize x)

/-- A notice for the notice ring of a host. Where its write fails, that ring goes to ERROR, and so no notice of this goes
anywhere (R283, R284). -/
def sendNotice (s : State) (h : HostId) (key : Nat) (e : List Byte) : State := match noticeRing s h with
  | none => s
  | some n => match mfind s.hif.rings n with
    | some x => if writeFails x then failRing s (.pool n) 4 else (putEntry s n key e).2
    | none => s

/-- A ring goes to ERROR: RING_ERR, HOST_RING_ERROR and a ring notice (R283, R284). -/
def ringError (s : State) (r : RingRef) (reason : Nat) : State :=
  match getRing s r with
  | none => s
  | some x =>
    if x.error then s
    else
      let s1 := failRing s r reason
      sendNotice s1 x.owner (entryKey 3 (ringSource r))
        (leBytes 2 (refContext r) ++ leBytes 1 reason ++ [0, 0x03, 0] ++ leBytes 2 1 ++ leBytes 8 s1.dev.now.toNat)

/-- Waiting entries written while the ring has room, at most n of them; a write that fails takes the ring to ERROR
(R282, R284 reason 4). -/
def flushEntries : Nat → State → Nat → State
  | 0, s, _ => s
  | n + 1, s, c =>
    match mfind s.hif.rings c with
    | none => s
    | some x =>
      match x.waiting with
      | [] => s
      | w :: rest =>
        if x.error || ringUsed x ≥ ringSize x then s
        else
          let s1 := setRing s (.pool c) { x with waiting := rest }
          if x.noWrite then ringError s1 (.pool c) 4 else flushEntries n (writeEntry s1 (.pool c) true w.bytes) c

/-- An entry for an event ring whose write, if one is made now, may fail: the ring then goes to ERROR and the entry
is lost (R284 reason 4). -/
def putEntryIo (s : State) (writeOk : Bool) (c : Nat) (key : Nat) (e : List Byte) : Bool × State :=
  match mfind s.hif.rings c with
  | none => (false, s)
  | some x =>
    if writeFails { x with noWrite := x.noWrite || !writeOk } then (false, ringError s (.pool c) 4) else putEntry s c key e

/-- QUIESCED: QUIESCE is 1 and every fetched descriptor of the host has completed (R265). -/
def settleQuiesced (s : State) (h : HostId) : State :=
  let x := getHost s h
  setHost s h { x with quiesced := x.quiesce && !s.hif.opened.any (fun o => o.host == h) }

/-- The bytes of a completion record, phase 0 (R15, R281). -/
def recordBytes (q : Req) (st : Status) (res : Nat) : List Byte :=
  leBytes 4 q.d.tag.toNat ++ [BitVec.ofNat 8 (statusCode st), 0] ++ leBytes 2 (refContext (sqRef q)) ++ leBytes 8 res

/-- The fetched descriptor behind a request, while it has not completed. -/
def openOf (q : Req) (s : State) : Option OpenDesc :=
  s.hif.opened.find? (fun o => o.seq == q.seq && o.host == q.host && o.ring == q.ring)

/-- A descriptor has run: it is no longer among the fetched ones, and QUIESCED may follow (R265, R270). -/
def closeDesc (s : State) (q : Req) : State :=
  settleQuiesced (modHif s (fun f => { f with
    opened := f.opened.filter (fun o => !(o.seq == q.seq && o.host == q.host && o.ring == q.ring)) })) q.host

/-- The completion record of a descriptor: its place in the completion ring is given back and the record is
written; it is discarded when its ring is gone or its completion ring is in ERROR (R270, R281, R284). -/
def complete1 (q : Req) (st : Status) (res : Nat) (s0 : State) : State :=
  let s := closeDesc s0 q
  match getRing s (sqRef q) with
  | none => s
  | some x =>
    if x.owner != q.host || !x.inflight.contains q.seq then s
    else
      let s1 := setRing s (sqRef q) { x with inflight := x.inflight.erase q.seq }
      let c := cqRef q.host x
      let s2 := modRing s1 c (fun y => { y with reserved := y.reserved - 1 })
      match getRing s2 c with
      | none => s2
      | some y =>
        if y.error then s2
        else if !q.io.recOk || y.noWrite then ringError s2 c 4
        else writeEntry s2 c (!q.d.flags.getLsbD 1) (recordBytes q st res)

/-- A pool submission ring whose RING_DELETE waits and whose fetched descriptors, that one apart, have completed. -/
def deletable (s : State) : Option Nat :=
  s.hif.rings.findSome? (fun p => match p.2.deleting with
    | some q => if p.2.inflight.all (fun n => sqRef q == .pool p.1 && n == q.seq) then some p.1 else none
    | none => none)

/-- A context clears: a RING_DELETE that waits for it completes, its ring is gone, the records that its descriptors
had reserved are free again, and every binding to it ends (R209, R292, R296, R297, R412). -/
def clearContext (s : State) (c : Nat) : State :=
  let s0 := match (mfind s.hif.rings c).bind (fun r => r.deleting) with
    | some q => complete1 q .ok 0 s
    | none => s
  let sr := match mfind s0.hif.rings c with
    | some x => if x.kind == .submission
        then modRing s0 (cqRef x.owner x) (fun y => { y with reserved := y.reserved - x.inflight.length }) else s0
    | none => s0
  let s1 := modHif sr (fun f => { f with
    rings := mdel f.rings c,
    opened := f.opened.map (fun o => if o.ring == some (BitVec.ofNat 16 c) then { o with live := false } else o) })
  let s2 := modRcd s1 (fun r => { r with notify := mdel r.notify c })
  { s2 with tiles := mmap (fun _ x => { x with ct := { x.ct with cmps := mmap (fun _ k =>
      if k.bound == some (BitVec.ofNat 16 c) then { k with bound := none, held := none } else k) x.ct.cmps } }) s2.tiles }

/-- Pending ring deletions whose descriptors have all completed are carried out, at most n (R296). -/
def sweepDeletes : Nat → State → State
  | 0, s => s
  | n + 1, s =>
    match deletable s with
    | none => s
    | some c => sweepDeletes n (clearContext s c)

/-- A descriptor completes (R281). -/
def complete (q : Req) (st : Status) (res : Nat) (s : State) : State :=
  let s1 := complete1 q st res s
  sweepDeletes s1.hif.rings.length s1

/-- A failed access to host address A or B: BAD_FIELD, DMA_ERR and HOST_DMA_ERROR (R284). -/
def dmaFail (op : Nat) (q : Req) (s : State) : State :=
  complete q .badField 0 (post (raiseFault s q.host 3) 0x406 4 q.host.val op (bitsOf q.d.tag.toNat 0 16))

/-- What a descriptor's action answers. -/
inductive Reply where
  /-- it completes now, with a status and a result -/
  | done (st : Status) (res : Nat)
  /-- it completes at a later command -/
  | later
  /-- its buffer access fails -/
  | dma
  deriving DecidableEq, Repr

/-- The answer carried out. -/
def answer (op : Nat) (q : Req) (p : Reply × State) : State :=
  match p.1 with
  | .done st res => complete q st res p.2
  | .later => p.2
  | .dma => dmaFail op q p.2

/-! ### The start of a descriptor (R279, R280) -/

/-- Another fetched descriptor stands before this one in its ring. -/
def isBefore (o p : OpenDesc) : Bool := p.host == o.host && p.ring == o.ring && p.live == o.live && decide (p.seq < o.seq)

/-- A descriptor waits until every earlier one of its ring has started, and with FENCE until each has completed (R279). -/
def mustWait (q : Req) (o : OpenDesc) (s : State) : Bool :=
  s.hif.opened.any (fun p => isBefore o p && (q.d.flags.getLsbD 0 || !p.started))

/-- Bits [7:2] of the flags are reserved (R280). -/
def badFlags (q : Req) : Bool := decide (4 ≤ q.d.flags.toNat)

/-- The opcodes that use host address A, and those of them that use host address B too. -/
def usesA : List Nat :=
  [0x01, 0x04, 0x07, 0x10, 0x11, 0x12, 0x13, 0x26, 0x2A, 0x2C, 0x2D, 0x30, 0x31, 0x32, 0x33, 0x34, 0x35, 0x3B, 0x3C, 0x45,
   0x53, 0x5D, 0x5E, 0x61, 0x66, 0x67, 0x69, 0x75, 0x78, 0x79, 0x7A, 0x81, 0x92, 0x93, 0x96, 0x97, 0xA0, 0xA1, 0xAB, 0xB0,
   0xB1]

def usesB : List Nat := [0x96, 0x97]

/-- A common field that is not as R280 has it: the flags, or a host address that the opcode does not use. -/
def badCommon (q : Req) : Bool :=
  badFlags q || (q.d.addrA != 0 && !usesA.contains q.d.op.toNat) || (q.d.addrB != 0 && !usesB.contains q.d.op.toNat)

/-- The result field of a descriptor refused for a common field: CFG_LOAD fills its own always (R281, R347). -/
def commonResult (q : Req) : Nat := if q.d.op = 0x10 then 0xFFFF * 2 ^ 16 + 0xFFFFFFFF * 2 ^ 32 else 0

/-- The descriptor has started. -/
def markStarted (q : Req) (s : State) : State := modHif s (fun f => { f with
  opened := f.opened.map (fun o => if o.seq == q.seq && o.host == q.host && o.ring == q.ring then { o with started := true } else o) })

/-- A fetched descriptor may start now. -/
def mayStart (q : Req) (s : State) : Bool := match openOf q s with
  | some o => !o.started && !mustWait q o s
  | none => false

/-- A bounce by the shutter of the tile that a descriptor names, counted at its router (R256, R259). -/
def countBounce (q : Req) (p : Reply × State) : State := match p.1, descDest q with
  | .done .shuttered _, .tile t => if (getTile p.2 t).net.shut != .open_ then countShut p.2 t else p.2
  | _, _ => p.2

/-- A descriptor that waits for its turn. -/
def parkDesc (i : Instr) (s : State) : State :=
  if s.hif.fenced.contains i then s else modHif s (fun f => { f with fenced := f.fenced ++ [i] })

/-- The way of every descriptor: its turn in its ring, its common fields, its way to its destination, then its own checks and
action (R20, R279, R280). Only a descriptor that the device has fetched acts, once, and as its opcode byte says (R294;
assumption 6). -/
def runDesc (i : Instr) (op : Nat) (q : Req) (body : State → Reply × State) (s : State) : State :=
  match openOf q s with
  | none => s
  | some o =>
    if o.started || q.d.op.toNat != op then s
    else if mustWait q o s then parkDesc i s
    else if badCommon q then complete q .badField (commonResult q) (markStarted q s)
    else match sendDesc q (markStarted q s) with
      | .lost u => u
      | .bounced u => complete q .shuttered 0 u
      | .arrived u =>
        let r := body u
        answer op q (r.1, countBounce q r)

/-- The state in which a descriptor's own checks and action begin: it has started, and its packet has arrived. -/
def begun (q : Req) (s : State) : State := match sendDesc q (markStarted q s) with
  | .arrived u | .bounced u | .lost u => u

/-- A descriptor starts and arrives: it has been fetched, its turn has come, its common fields are good, and its packet reaches
its destination. -/
def starts (q : Req) (s : State) : Bool := mayStart q s && !badCommon q && (match sendDesc q (markStarted q s) with
  | .arrived _ => true
  | .bounced _ | .lost _ => false)

/-- A refusal, or the action where no check applies. -/
def checked (cs : List (Bool × Status)) (act : State → Reply × State) (s : State) : Reply × State :=
  match firstOf cs with
  | some st => (.done st 0, s)
  | none => act s

/-- Bytes copied to host address A, and the completion after the copy. -/
def replyCopy (q : Req) (bytes : List Byte) (res : Nat) (s : State) : Reply × State :=
  if q.io.bufOk then (.done .ok res, hostWrite s q.host q.d.addrA bytes) else (.dma, s)

end Sys2Proof.Machine
end

