-- ==== Sys2Proof/Machine/Operands.lean ====
section
/-! DEFINITION. Operand checks that descriptors of several families share: ownership and shutter (R59), the
named cycle (R62), reserved fields (R8, R280), and the reader of a structured field. -/

namespace Sys2Proof.Machine

/-- A shape with bits [4:0] of bytes 2-3 naming a casement and these used runs of bytes (first byte, bytes). -/
def shapeOf (target : Nat) (a b len : Bool) (runs : List (Nat × Nat)) : Shape :=
  { target := target, addrA := a, addrB := b, length := len,
    body := runs.foldl (fun m r => m ||| usedBytes r.1 r.2) 0 }

/-- The shape with single used bits added: byte and mask of bits. -/
def Shape.withBits (sh : Shape) (bits : List (Nat × Nat)) : Shape :=
  { sh with body := bits.foldl (fun m r => m ||| r.2 * 2 ^ (8 * (r.1 - 28))) sh.body }

/-- Reserved fields of a descriptor hold something (R8). -/
def dirty (sh : Shape) (q : Req) : Bool := !cleanDesc sh q.d

/-- The issuing host is the steward, or was as the descriptor was accepted (R288, R291). -/
def isSteward (q : Req) (s : State) : Bool := match openOf q s with
  | some o => o.steward
  | none => q.host == s.hif.steward

/-- The issuing host owns the casement that bits [4:0] of bytes 2-3 name. -/
def isOwner (q : Req) (s : State) : Bool := match getCase s (dCase q.d) with
  | some k => k.owner == q.host
  | none => false

/-- Who may issue a descriptor for a casement (R59). -/
inductive Access where
  /-- as BP_PEEK: the owner or the steward -/
  | peek
  /-- as BP_POKE: the owner alone -/
  | poke
  deriving DecidableEq, Repr

/-- The issuer is refused (R59, first two rows). -/
def notAllowed (q : Req) (a : Access) (s : State) : Bool :=
  !(isOwner q s || (a == .peek && isSteward q s))

/-- A full load has taken over: every casement is dissolved (R344). -/
def fullTakeover (s : State) : Bool :=
  s.load.full && (s.load.phase == .takeover || s.load.phase == .pass2 || s.load.phase == .startUp)

/-- The casement that a descriptor names is gone with the takeover of a full load (R344). -/
def goneCase (q : Req) (s : State) : Bool := fullTakeover s && (getCase s (dCase q.d)).isNone

/-- A load reaches a casement: a full load, or a partial load of it (R345). -/
def loadTouches (s : State) (c : Nat) : Bool :=
  s.load.purpose == .load && s.load.phase != .idle && (s.load.full || s.load.case_.val == c)

/-- A load takes the casement over, and the casement has not been cleared yet (R344). -/
def takenOver (s : State) (c : Nat) : Bool := s.load.phase == .takeover && loadTouches s c

/-- A tile that takes part in its casement's shutter: neither fail-silent nor RETIRED. -/
def shutterCounts (x : Tile) : Bool := !x.ctl.failSilent && x.net.localSt != .retired

/-- The casement's shutter is not OPEN for a tile of it, or for any tile where none is named (R59, R351). -/
def caseShut (k : Casement) (t : Option Nat) (s : State) : Bool :=
  k.st == .empty || k.st == .stopped || k.st == .failed ||
    (match t with
    | some t => (getTile s t).net.shut != .open_
    | none => (tilesOf k.region).any (fun t => shutterCounts (getTile s t) && (getTile s t).net.shut != .open_))

/-- The tile that serves a descriptor naming a tile: its live duplex partner when it is fail-silent (R65). -/
def servedBy (s : State) (t : Nat) : Nat :=
  if (getTile s t).ctl.failSilent then (partnerOf s t).getD t else t

/-- The checks of R59 for a casement descriptor. `t` is the tile named, `inside` the third row or what replaces it. -/
def r59 (q : Req) (a : Access) (t : Option Nat) (inside : Bool) (s : State) : List (Bool × Status) :=
  match getCase s (dCase q.d) with
  | none => [(goneCase q s, .badField), (notAllowed q a s, .refusedOwnership), (true, .badField)]
  | some k =>
    [(notAllowed q a s, .refusedOwnership),
     (!inside, .badField),
     (match t with | some t => (getTile s t).ctl.restarting | none => false, .busy),
     (takenOver s (dCase q.d) || caseShut k t s, .shuttered)]

/-- A tile byte names a tile of the named casement. -/
def tileInside (q : Req) (t : Nat) (s : State) : Bool := match getCase s (dCase q.d) with
  | some k => decide (t < 96) && k.region.getLsbD t
  | none => false

/-- R59 for a descriptor whose byte 28 names a tile of the casement. -/
def r59Tile (q : Req) (a : Access) (s : State) : List (Bool × Status) :=
  r59 q a (some (dByte q.d 28)) (tileInside q (dByte q.d 28) s) s

/-- R59 for a peek or a poke, which the live partner of a fail-silent tile serves (R65). -/
def r59Served (q : Req) (a : Access) (s : State) : List (Bool × Status) :=
  r59 q a (some (servedBy s (dByte q.d 28))) (tileInside q (dByte q.d 28) s) s

/-- A casement isolated by replay takes no poke and no pattern delivery (R393). -/
def isolatedCase (q : Req) (s : State) : Bool := match getCase s (dCase q.d) with
  | some k => k.isolated
  | none => false

/-- "Next available" (R62). -/
def nextCycle : Nat := 2 ^ 64 - 1

/-- The first cycle whose close has not begun at a tile (R62). -/
def openClose (y : CycState) : Nat := match y.phase with
  | .idle => 0
  | .stepping | .barrier => y.cycle.toNat
  | .closed => y.cycle.toNat + 1

/-- The first cycle whose release has not begun at a tile (R62). -/
def openRelease (y : CycState) : Nat := match y.phase with
  | .idle => 0
  | .stepping | .barrier | .closed => y.cycle.toNat + 1

/-- The rows of R62 for a named CYCLE, with the first lintel not yet begun and the pokes that the tile holds. -/
def r62 (named firstOpen current held : Nat) : List (Bool × Status) :=
  if named = nextCycle then []
  else [(decide (named < firstOpen), .overrun), (decide (current + 2 ^ 24 < named), .badField),
        (decide (64 ≤ held), .queueFull)]

/-- The cycle that a CYCLE field means. -/
def namedCycle (named firstOpen : Nat) : Nat := if named = nextCycle then firstOpen else named

/-- Length below what a block of bytes needs. -/
def short (q : Req) (n : Nat) : Bool := decide (q.d.length.toNat < n)

/-- A field of a configuration record: bits [lo + n - 1 : lo] of the number of its bytes. -/
def recBits (v lo n : Nat) : Nat := bitsOf v lo n

/-- The bytes of a fixed-size status block from its fields: offset, bytes, value. -/
def layout (size : Nat) (fs : List (Nat × Nat × Nat)) : List Byte :=
  leBytes size (fs.foldl (fun m f => m ||| (f.2.2 % 2 ^ (8 * f.2.1)) * 2 ^ (8 * f.1)) 0)

end Sys2Proof.Machine
end

