-- ==== Sys2Proof/Machine/Signals.lean ====
section
/-! DEFINITION. The combinational signals of the fabric, the pin-crossbar lines and the pads, as they stand in
a state (spec/04_logic_fabric.md, spec/05_pins.md). A signal is computed on demand with a bound on the
number of wires passed; a combinational loop runs out of it and reads an open bit (assumption 3). -/

namespace Sys2Proof.Machine

/-! ### Records -/

/-- The 192 bits of a logic cell's configuration, cell 64q + n (R103). -/
def cellCfg (x : Tile) (c : Nat) : Nat := cfgRead x 0x10 (24 * c) 24

/-- Word w of the set-up record of digital pin n (R132, R133). -/
def pinWord (x : Tile) (n w : Nat) : Nat := cfgRead x 0x18 (8 + 12 * n + 4 * w) 4

/-- The select of analogue pin n (R159). -/
def ainSelect (x : Tile) (n : Nat) : Nat := cfgRead x 0x18 (152 + n) 1

/-- The line select word of line l, 32q + n (R139). -/
def lineWord (x : Tile) (l : Nat) : Nat := cfgRead x 0x18 (256 + 4 * l) 4

/-- PIN_MODE. -/
def pinMode (x : Tile) (n : Nat) : Nat := recBits (pinWord x n 0) 0 2

/-- Accumulator record a (R188). -/
def accRec (x : Tile) (a : Nat) : Nat := cfgRead x 0x21 (200 + 8 * a) 8

def getAcc (x : Tile) (a : Nat) : Acc := mget Acc.empty x.cv.accs a
def getTrk (x : Tile) (a : Nat) : Trk := mget Trk.empty x.cv.trks a
def getCmp (x : Tile) (k : Nat) : Cmp := mget Cmp.cold x.ct.cmps k
def getTmr (x : Tile) (k : Nat) : Tmr := mget Tmr.cold x.ct.tmrs k

/-- Word w of timer t's record (R211). -/
def tmrWord (x : Tile) (t w : Nat) : Nat := cfgRead x 0x22 (128 + 16 * t + 4 * w) 4

/-- Word w of comparator k's record (R200). -/
def cmpWord (x : Tile) (k w : Nat) : Nat := cfgRead x 0x22 (8 * k + 4 * w) 4

def tmMode (x : Tile) (k : Nat) : Nat := recBits (tmrWord x k 0) 0 3
def tmPeriod (x : Tile) (k : Nat) : Nat := tmrWord x k 1
def tmCmp (x : Tile) (k : Nat) : Nat := tmrWord x k 2

/-- Source record of injected slot j (R180). -/
def cvSlotSource (x : Tile) (j : Nat) : Nat := cfgRead x 0x21 (144 + 16 * j) 2

/-- Least and most periods of a tile's 100 MHz clock in a span of device time; no most where its rate has no bound. Under
lock the two clocks have one source and the count is exact. In holdover the tile's clock keeps within 0.5 % and device time
within 2 % (R71, R405, R454). -/
def tickRange (x : Tile) (e : Nat) : Nat × Option Nat := match x.cyc.clk with
  | .locked | .off => (e / 10, some (e / 10))
  | .holdover => (e * 995 / 10200, some (e * 1005 / 9800 + 1))
  | .locking | .unlocked | .failed => (0, none)

/-- Periods of a tile's 100 MHz clock in a span of device time: an open number within their bounds (R454). -/
def ticksIn (s : State) (x : Tile) (site e : Nat) : Nat := match tickRange x e with
  | (lo, some hi) => if lo = hi then lo else lo + Config.freeNat s.fresh site % (hi - lo + 1)
  | (_, none) => Config.freeNat s.fresh site

/-- TM_COUNT after n edges from 0: modes 1, 3 and 4 wrap after P, and a one-shot stops there (R212). -/
def foldCount (x : Tile) (k n : Nat) : BitVec 32 :=
  BitVec.ofNat 32 (if tmMode x k = 2 then min n (tmPeriod x k) else n % (tmPeriod x k + 1))

/-- Device time since the count of a timer was taken. -/
def tmSpan (s : State) (m : Tmr) : Nat := (s.dev.now - m.since).toNat

/-- TM_COUNT now, further on by `more` edges (R212). -/
def tmCountAt (s : State) (t k more : Nat) : BitVec 32 :=
  let x := getTile s t
  let m := getTmr x k
  if m.running && !dozed s t then foldCount x k (m.count.toNat + ticksIn s x (2000 + 8 * t + k) (tmSpan s m) + more) else m.count

/-- TM_COUNT now. -/
def tmCount (s : State) (t k : Nat) : BitVec 32 := tmCountAt s t k 0

/-- A running timer may have made its count n by now. -/
def tmReached (s : State) (t k n : Nat) : Bool :=
  let x := getTile s t
  let m := getTmr x k
  match (tickRange x (tmSpan s m)).2 with
  | some hi => decide (n ≤ m.count.toNat + hi)
  | none => true

/-- A timer's output after TM_OUTINV (R212). -/
def tmrOut (x : Tile) (k : Nat) : Bool := (getTmr x k).out != bitAt (tmrWord x k 0) 11

/-- The flag of an accumulator (R188, R189). -/
def accFlag (x : Tile) (a : Nat) : Bool :=
  let r := accRec x a
  let trk := (getTrk x a).live
  x.cv.on && (match recBits r 13 2 with
    | 0 => false
    | 1 => decide (recBits r 32 24 ≤ (getAcc x a).live.count.toNat)
    | 2 => decide (recBits r 16 14 < trk.max.toNat) && trk.count != 0
    | _ => decide (trk.min.toNat < recBits r 16 14) && trk.count != 0)

/-! ### Pads (R135, R136, R145) -/

/-- The row of R145 that applies to a pad. -/
inductive PadRow where
  | resistor | sill | active
  deriving DecidableEq, Repr

/-- Position of a pin within its tile: DIO 0-11, AIN 12-17 (R129). -/
def pinPos (p : Nat) : Nat := if p < 1152 then p % 12 else 12 + (p - 1152) % 6

/-- Tile of a pin index (R129). -/
def pinTile (p : Nat) : Nat := if p < 1152 then p / 12 else (p - 1152) / 6

/-- No full image has started up since the last COLD, PIN or DEVICE reset, and none releases its outputs now (R145). -/
def unstarted (s : State) : Bool := !s.dev.fullUp && !(s.load.full && s.load.phase == .startUp)

/-- The first row of R145 that applies to a pin. A bank without VIO or in mismatch is resistor-defined for its
digital pins; after a failed full load every pin is, until a full load releases its outputs. -/
def padRow (s : State) (p : Nat) : PadRow :=
  let y := (getTile s (pinTile p)).pin
  let i := pinPos p
  if p < 1152 && (y.measured == 2 || y.vioLost) then .resistor
  else if s.dev.inReset != .none || unstarted s then .resistor
  else if p < 1152 && y.mismatch then .resistor
  else if s.load.fullFailed && !(s.load.full && s.load.phase == .startUp) then .resistor
  else if (mfind s.dev.pinCase p).isNone then .resistor
  else if y.sillHeld.getLsbD i then .sill
  else if y.released.getLsbD i then .active
  else .resistor

/-- A digital pin has an active function (R145). -/
def pinActive (s : State) (p : Nat) : Bool :=
  pinMode (getTile s (p / 12)) (p % 12) != 0 && padRow s p == .active

/-- A slot of a tile contributes OE = 0 (R136, R393). -/
def slotMuted (s : State) (t : Nat) : Bool :=
  (getTile s t).ctl.failSilent || staleTenure s t ||
    (match caseOfTile s t with | some p => p.2.isolated | none => false)

/-- The pads that the board and the device meet at (R135): the device's drive, if any, against the board's. An
undefined level is the open bit given. -/
def padLevel (dev : Option Bool) (board : PadDrive) (undef : Bool) : Bool :=
  match dev, board with
  | some v, .level h true => if v == h then v else undef
  | some v, _ => v
  | none, .level h _ => h
  | none, .open_ => undef

/-- What the pad drives from its mode, E and V (R135). -/
def padDrive (mode : Nat) (e v : Bool) : Option Bool :=
  if mode = 2 then (if e then some v else none)
  else if mode = 3 then (if e && !v then some false else none)
  else none

/-! ### Wires -/

/-- A wire of the fabric or the pin crossbar. -/
inductive Wire where
  /-- a source code of R110 in a tile -/
  | src (t code : Nat)
  /-- cell output code, 128q + 2n + k -/
  | out (t code : Nat)
  /-- an 8-bit select of R109 in cluster q -/
  | inp (t q code : Nat)
  /-- the A side (or B side) of cell 64q + n -/
  | side (t c : Nat) (b : Bool)
  /-- the TT-output of a mux group's member (R106) -/
  | tt (t c : Nat)
  /-- pin-crossbar line 32q + n -/
  | line (t l : Nat)
  /-- an output source code of R134 -/
  | slot (t code : Nat)
  /-- E and V of a digital pin -/
  | padE (p : Nat)
  | padV (p : Nat)
  /-- input level of a digital pad, for a reader: 0 lines, 1 timer inputs, 2 PIN_READ -/
  | pad (p reader : Nat)
  deriving DecidableEq, Repr

/-- A number for a wire, that tells open bits apart. -/
def wireSite : Wire → Nat
  | .src t c => 16 * (4096 * t + c)
  | .out t c => 16 * (4096 * t + c) + 1
  | .inp t q c => 16 * (4096 * t + 256 * q + c) + 2
  | .side t c b => 16 * (4096 * t + 2 * c + b.toNat) + 3
  | .tt t c => 16 * (4096 * t + c) + 4
  | .line t l => 16 * (4096 * t + l) + 5
  | .slot t c => 16 * (4096 * t + c) + 6
  | .padE p => 16 * p + 7
  | .padV p => 16 * p + 8
  | .pad p r => 16 * (4 * p + r) + 9

/-- Value of a truth table of n inputs, input 0 the lowest index bit; an input on which the value does not depend is
not read. -/
def lutEval (get : Nat → Bool) : Nat → Nat → Bool
  | 0, tt => bitAt tt 0
  | n + 1, tt =>
    let lo := tt % 2 ^ 2 ^ n
    let hi := tt / 2 ^ 2 ^ n % 2 ^ 2 ^ n
    lutEval get n (if lo = hi then lo else if get n then hi else lo)

/-- Value of a wire, with at most n wires passed. -/
def wire : Nat → State → Wire → Bool
  | 0, s, w => Config.freeBit s.fresh (wireSite w)
  | f + 1, s, .src t c =>
    let x := getTile s t
    if c < 0x800 then wire f s (.out t c)
    else if c < 0x900 then x.bp.outB.getLsbD (c - 0x800)
    else if c < 0x910 then (getCmp x (c - 0x900)).out
    else if c < 0x918 then tmrOut x (c - 0x910)
    else if 0x920 ≤ c && c < 0x940 then accFlag x (c - 0x920)
    else if 0xA00 ≤ c && c < 0xC00 then (mget 0 x.fab.readData ((c - 0xA00) / 32)).getLsbD ((c - 0xA00) % 32)
    else if 0xC00 ≤ c && c < 0xC10 then x.fab.parityFlag.getLsbD (c - 0xC00)
    else c == 0xFFF
  | f + 1, s, .out t code =>
    let x := getTile s t
    let c := code / 2
    let v := cellCfg x c
    let ff := mget 0 x.fab.ffs c
    if code % 2 = 0 then (if bitAt v 132 then ff.getLsbD 0 else wire f s (.side t c false))
    else (if bitAt v 133 then ff.getLsbD 1 else wire f s (.side t c true))
  | f + 1, s, .inp t q c =>
    if c < 0x80 then wire f s (.out t (128 * q + c))
    else if c < 0xC0 then
      wire f s (.src t (recBits (cfgRead (getTile s t) 0x11 (2 * (64 * q + (c - 0x80))) 2) 0 12))
    else if c < 0xE0 then wire f s (.line t (32 * q + (c - 0xC0)))
    else c == 0xE1
  | f + 1, s, .tt t c =>
    let v := cellCfg (getTile s t) c
    lutEval (fun k => wire f s (.inp t (c / 64) (recBits v (64 + 8 * k) 8))) 6 (recBits v 0 64)
  | f + 1, s, .side t c b =>
    let v := cellCfg (getTile s t) c
    let i := fun k => wire f s (.inp t (c / 64) (recBits v (64 + 8 * k) 8))
    match recBits v 128 2 with
    | 0 =>
      let g := recBits v 130 2
      if !b && decide (0 < g) && (c % 2 ^ g == 2 ^ g - 1) then
        let base := c - (2 ^ g - 1)
        let sr := fun n => (wire f s (.inp t (c / 64) (recBits (cellCfg (getTile s t) n) 120 8))).toNat
        let idx := sr base + (if 2 ≤ g then 2 * sr (base + 1) else 0) + (if 3 ≤ g then 4 * sr (base + 3) else 0)
        wire f s (.tt t (base + idx))
      else lutEval i 6 (recBits v 0 64)
    | 1 => lutEval i 5 (recBits v (if b then 32 else 0) 32)
    | _ =>
      let p := lutEval i 5 (recBits v 0 32)
      let cin := match recBits v 147 2 with
        | 0 => wire f s (.side t (c - 1) true)
        | 1 => false
        | 2 => true
        | _ => i 5
      if b then (if p then cin else lutEval i 5 (recBits v 32 32)) else p != cin
  | f + 1, s, .line t l =>
    let w := lineWord (getTile s t) l
    let def_ := bitAt w 30
    match recBits w 28 2 with
    | 1 => let p := recBits w 0 11; if pinActive s p then wire f s (.pad p 0) else def_
    | 2 =>
      let t2 := recBits w 11 7
      let y := getTile s t2
      if y.dom.lf != .on || y.ctl.failSilent then def_ else wire f s (.out t2 (recBits w 0 11))
    | _ => def_
  | f + 1, s, .slot t c =>
    let x := getTile s t
    if c < 0x800 then wire f s (.out t c)
    else if 0x900 ≤ c && c < 0x910 then (getCmp x (c - 0x900)).out
    else if 0x910 ≤ c && c < 0x918 then tmrOut x (c - 0x910)
    else if 0x940 ≤ c && c < 0x94C then x.pin.outLatch.getLsbD (c - 0x940)
    else if 0x950 ≤ c && c < 0x95C then x.pin.enLatch.getLsbD (c - 0x950)
    else c == 0xFFF
  | f + 1, s, .padE p =>
    let x := getTile s (p / 12)
    let oe := fun w => let r := pinWord x (p % 12) w
      !slotMuted s (recBits r 24 7) && wire f s (.slot (recBits r 24 7) (recBits r 12 12))
    oe 1 || (bitAt (pinWord x (p % 12) 0) 6 && oe 2)
  | f + 1, s, .padV p =>
    let x := getTile s (p / 12)
    let od := fun w => let r := pinWord x (p % 12) w
      !slotMuted s (recBits r 24 7) && wire f s (.slot (recBits r 24 7) (recBits r 12 12)) &&
        wire f s (.slot (recBits r 24 7) (recBits r 0 12))
    od 1 || (bitAt (pinWord x (p % 12) 0) 6 && od 2)
  | f + 1, s, .pad p r =>
    let x := getTile s (p / 12)
    let n := p % 12
    let drive := match padRow s p with
      | .resistor => none
      | .sill => if x.pin.sillE.getLsbD n then some (x.pin.sillV.getLsbD n) else none
      | .active => match mfind x.pin.switching n with
        | some h => padDrive h.mode h.e h.v
        | none => if pinMode x n < 2 then none else padDrive (pinMode x n) (wire f s (.padE p)) (wire f s (.padV p))
    padLevel drive (mget .open_ x.pin.board n) (Config.freeBit s.fresh (wireSite (.pad p r)))

/-- More wires than any path without a loop passes: 96 tiles of 1,024 cells, four wires to a cell. -/
def wireFuel : Nat := 400000

/-- The level of a source code of R110. -/
def srcLevel (s : State) (t code : Nat) : Bool := wire wireFuel s (.src t code)

/-- The input level of a digital pad for a reader. -/
def padIn (s : State) (p reader : Nat) : Bool := wire wireFuel s (.pad p reader)

/-- Pins whose PIN_TIN fields name an input of a tile (R138), in ascending pin index, over the pins of tiles that
differ from the cold tile. -/
def tinPins (s : State) (t k : Nat) : List Nat :=
  s.tiles.flatMap (fun q => ((List.range 12).filter (fun n =>
    let w := pinWord q.2 n 0
    bitAt w 7 && recBits w 8 7 == t && recBits w 15 3 == k)).map (fun n => 12 * q.1 + n))

/-- The timer-input default of a tile (R138). -/
def tinDefault (x : Tile) (k : Nat) : Bool := bitAt (cfgRead x 0x18 1 1) k

/-- Value of a timer input (R138). -/
def tinLevel (s : State) (t k : Nat) : Bool :=
  match tinPins s t k with
  | [p] => if pinActive s p then padIn s p 1 else tinDefault (getTile s t) k
  | _ => tinDefault (getTile s t) k

/-- Cells of a tile with a configuration byte that is not cold, in ascending order. -/
def usedCells (x : Tile) : List Nat :=
  ((x.cfg.filter (fun c => cfgAddr 0x10 0 ≤ c.1 && c.1 < cfgAddr 0x10 24576)).map
    (fun c => (c.1 - cfgAddr 0x10 0) / 24)).dedup

/-- The 256 boundary inputs of a tile as they stand (R90, R110). A source that changes within 0.2 ns of the
release edge is read as one of its two values: the value that it has when the release is carried out. -/
def boundaryInputs (s : State) (t : Nat) : BitVec 256 :=
  let x := getTile s t
  let bare := (usedCells x).isEmpty
  (List.range 256).foldl (fun v n =>
    let w := recBits (cfgRead x 0x11 (2048 + 2 * n) 2) 0 12
    if bare && decide (w < 0x800) then v else setBit v n (srcLevel s t w)) 0

/-! ### Flip-flops (R104, R105) -/

/-- INIT of the two flip-flops of a cell. -/
def ffInit (v : Nat) : BitVec 2 := BitVec.ofNat 2 (recBits v 145 2)

/-- SRVAL of the two flip-flops of a cell. -/
def ffSrVal (v : Nat) : BitVec 2 := BitVec.ofNat 2 (recBits v 143 2)

/-- SR acts on the cell asynchronously now. -/
def asyncNow (s : State) (t c v : Nat) : Bool :=
  bitAt v 141 && !bitAt v 142 && wire wireFuel s (.inp t (c / 64) (recBits v 120 8))

/-- What a cell's flip-flops take at an active edge, from the levels just before it (R104); I5, CE and SR as they stand in
`direct`. -/
def ffEdgeAt (direct s : State) (t c : Nat) : BitVec 2 :=
  let v := cellCfg (getTile s t) c
  let now := mget 0 (getTile s t).fab.ffs c
  let inp := fun code => wire wireFuel direct (.inp t (c / 64) code)
  let i5 := fun (_ : Unit) => inp (recBits v (64 + 40) 8)
  if bitAt v 141 && inp (recBits v 120 8) then ffSrVal v
  else if !bitAt v 140 || inp (recBits v 112 8) then
    let d0 := if bitAt v 134 then i5 () else wire wireFuel s (.side t c false)
    let d1 := if bitAt v 135 then i5 () else wire wireFuel s (.side t c true)
    BitVec.ofNat 2 (d0.toNat + 2 * d1.toNat)
  else now

/-- What a cell's flip-flops take at an active edge, all from the levels just before it (R104). -/
def ffEdge (s : State) (t c : Nat) : BitVec 2 := ffEdgeAt s s t c

/-- One of two values for each flip-flop of a cell: the second, but an open choice where its set-up or hold is broken
(R119). -/
def ffChoice (fresh c : Nat) (broken : Nat → Bool) (a b : BitVec 2) : BitVec 2 :=
  let pick := fun k => if broken k && Config.freeBit fresh (16 * (2 * c + k) + 11) then a.getLsbD k else b.getLsbD k
  BitVec.ofNat 2 ((pick 0).toNat + 2 * (pick 1).toNat)

/-- Cells that fire and the values that they take, stored together; `open_` says that an open choice was made. -/
def takeCells (s : State) (t : Nat) (new_ : List (Nat × BitVec 2)) (open_ : Bool) : State :=
  if new_.isEmpty then s
  else
    let s1 := modFab s t (fun y => { y with ffs := new_.foldl (fun m p => mset m p.1 p.2) y.ffs })
    if open_ then { s1 with fresh := s1.fresh + 1 } else s1

/-- Flip-flops of the cells whose clock satisfies a test take their edge, all from the levels before it. A flip-flop 2c + k
whose set-up or hold is broken takes its old or its new value (R119). -/
def clockCells (before s : State) (t : Nat) (fires : Nat → Bool) (broken : List Nat) : State :=
  let x := getTile before t
  if x.fab.held then s
  else
    takeCells s t ((usedCells x).filterMap (fun c => if fires (cellCfg x c)
      then some (c, ffChoice s.fresh c (fun k => broken.contains (2 * c + k)) (mget 0 x.fab.ffs c) (ffEdge before t c)) else none))
      (!broken.isEmpty)

/-! ### Port A of fabric RAM (R115, R116) -/

/-- The configuration word of fabric RAM block q (R115). -/
def ramWord (x : Tile) (q : Nat) : Nat := cfgRead x 0x12 (4 * q) 4

/-- Block q is in use. -/
def ramOn (x : Tile) (q : Nat) : Bool := bitAt (ramWord x q) 7

/-- An input of port A of block q, by its index in the selects (R115). -/
def portAInput (s : State) (t q k : Nat) : Bool :=
  wire wireFuel s (.inp t q (cfgRead (getTile s t) 0x12 (64 + 64 * q + k) 1))

/-- A number from n inputs of port A. -/
def portANat (s : State) (t q k n : Nat) : Nat :=
  (List.range n).foldl (fun v i => v + 2 ^ i * (portAInput s t q (k + i)).toNat) 0

/-- What port A of block q takes in at an active edge, from the levels before it (R116). -/
def portASample (before : State) (t q : Nat) : PortA :=
  { addr := BitVec.ofNat 15 (portANat before t q 0 15), din := BitVec.ofNat 32 (portANat before t q 15 32),
    we := portAInput before t q 47 }

/-- Word width of a block. -/
def ramWidth (x : Tile) (q : Nat) : Nat := 2 ^ recBits (ramWord x q) 0 3

/-- n bits of a block's bit array from bit b (R115). -/
def ramBits (m : List Host.Cell) (q b n : Nat) : Nat :=
  bitsOf (leNat (memGets zeroes m (4096 * q + b / 8) ((b % 8 + n + 7) / 8))) (b % 8) n

/-- The block with n bits from bit b replaced. -/
def ramPutBits (m : List Host.Cell) (q b n v : Nat) : List Host.Cell :=
  let k := (b % 8 + n + 7) / 8
  let a := 4096 * q + b / 8
  let old := leNat (memGets zeroes m a k)
  memPuts zeroes m a (leBytes k (old - bitsOf old (b % 8) n * 2 ^ (b % 8) + (v % 2 ^ n) * 2 ^ (b % 8)))

/-- Bytes of the store, q included, that n bits from bit b touch. -/
def ramTouched (q b n : Nat) : List Nat := (List.range ((b % 8 + n + 7) / 8)).map (fun i => 4096 * q + b / 8 + i)

/-- A parity failure is counted and posted (R118). -/
def ramParityFail (s : State) (t q row : Nat) : State :=
  postTile (modFab s t (fun y => { y with parityCount := bump y.parityCount })) t 0x701 1 t q row

/-- A word of a block written through port A, with new parity for the bytes that it touches (R118). -/
def portAWrite (s : State) (t q addr : Nat) (v : Nat) : State :=
  let w := ramWidth (getTile s t) q
  let b := addr % (32768 / w) * w
  modFab s t (fun y => { y with
    ram := ramPutBits y.ram q b w v, badParity := y.badParity.filter (fun a => !(ramTouched q b w).contains a) })

/-- The read data of port A, and whether the bytes that they come from fail parity (R116, R118). -/
def portARead (s : State) (t q row data : Nat) (bad : Bool) : State :=
  let s1 := modFab s t (fun y => { y with readData := mset y.readData q (BitVec.ofNat 32 data),
                                          parityFlag := setBit y.parityFlag q bad })
  if bad then ramParityFail s1 t q row else s1

/-- The access of port A with what it has sampled (R116 to R118); `meets` says that the last port B write of the row lies
within 0.5 ns. -/
def portAAccess (s : State) (t q : Nat) (p : PortA) (meets : Bool) : State :=
  let x := getTile s t
  let w := ramWidth x q
  let a := p.addr.toNat % (32768 / w)
  let row := a * w / 32
  let hit := meets && (match x.fab.lastRow with | some r => r.1 == 1024 * q + row | none => false)
  let o := drawBit s 10
  let early := match x.fab.lastRow with | some r => bitsOf r.2.toNat (a * w % 32) w | none => 0
  let data := if hit && o.1 then early else ramBits x.fab.ram q (a * w) w
  let s1 := portARead (if hit then o.2 else s) t q row data ((ramTouched q (a * w) w).any (fun b => x.fab.badParity.contains b))
  if p.we && x.fab.writesOn then
    if hit then modFab s1 t (fun y => { y with collisions := bump y.collisions }) else portAWrite s1 t q a p.din.toNat
  else s1

/-- The access of port A where its set-up or hold is broken (R119): its read data are open, and open data may be written
into the word of the address sampled or of the other address between which its inputs change. -/
def portABroken (s : State) (t q : Nat) (p : PortA) (other : Nat) : State :=
  let x := getTile s t
  let w := ramWidth x q
  let d := drawNat s 12
  let v := drawNat d.2 13
  let how := drawNat v.2 14
  let s1 := portARead how.2 t q (p.addr.toNat % (32768 / w) * w / 32) (d.1 % 2 ^ w)
    ((ramTouched q (p.addr.toNat % (32768 / w) * w) w).any (fun b => x.fab.badParity.contains b))
  if !x.fab.writesOn then s1
  else match how.1 % 3 with
    | 0 => s1
    | 1 => portAWrite s1 t q p.addr.toNat v.1
    | _ => portAWrite s1 t q other v.1

/-- An access of port A that is under way is over, as one that meets nothing. -/
def portAEnd (s : State) (t q : Nat) : State := match mfind (getTile s t).fab.portA q with
  | some p => modFab (portAAccess s t q p false) t (fun y => { y with portA := mdel y.portA q })
  | none => s

/-- Port A of the blocks whose clock satisfies a test takes its inputs in, from the levels before the edge, where CE = 1
(R115, R116). Its access follows; one from an earlier edge ends first. -/
def clockRams (before s : State) (t : Nat) (fires : Nat → Nat → Bool) : State :=
  let x := getTile before t
  ((List.range 16).filter (fun q => ramOn x q && fires q (ramWord x q))).foldl (fun s q =>
    if portAInput before t q 48
    then modFab (portAEnd s t q) t (fun y => { y with portA := mset y.portA q (portASample before t q) }) else s) s

/-- One pass of asynchronous set/reset over a tile. -/
def asyncPass (s : State) (t : Nat) : State :=
  let x := getTile s t
  if x.fab.held then s
  else (usedCells x).foldl (fun s c =>
    let v := cellCfg x c
    if asyncNow s t c v && mget 0 (getTile s t).fab.ffs c != ffSrVal v
    then modFab s t (fun y => { y with ffs := mset y.ffs c (ffSrVal v) }) else s) s

/-- Line 30 or 31 of cluster q, as a clock select 4 or 5 names it, has its active edge (R103, R114). -/
def lineFires (before after : State) (t q sel : Nat) (inv : Bool) : Bool :=
  (sel == 4 || sel == 5) &&
    (let l := 32 * q + 26 + sel
     let a := wire wireFuel before (.line t l)
     let b := wire wireFuel after (.line t l)
     a != b && b != inv)

/-- Edges on the pin-crossbar lines 30 and 31 of each cluster clock the cells and the fabric RAM of the cluster that select
them (R103, R114, R115). By the delays of R119, an input of a flip-flop that reaches it through the cluster crossbar alone
and changes with the clock breaks its hold: the flip-flop takes either value. -/
def lineEdges (before after : State) (t : Nat) (s : State) : State :=
  let x := getTile before t
  let s1 := clockRams before s t (fun q w => lineFires before after t q (recBits w 3 3) (bitAt w 6))
  if x.fab.held then s1
  else
    let new_ := (usedCells x).filterMap (fun c =>
      let v := cellCfg x c
      if lineFires before after t (c / 64) (recBits v 136 3) (bitAt v 139) then some (c, ffEdge before t c, ffEdgeAt after before t c)
      else none)
    takeCells s1 t (new_.map (fun p => (p.1, ffChoice s.fresh p.1 (fun _ => true) p.2.2 p.2.1))) (new_.any (fun p => p.2.1 != p.2.2))

/-- Tiles with a configured logic cell or a fabric RAM block in use. -/
def fabricTiles (s : State) : List Nat :=
  (s.tiles.filter (fun p => !(usedCells p.2).isEmpty || (List.range 16).any (fun q => ramOn p.2 q))).map (·.1)

/-- The fabric follows a change: line edges and asynchronous set/reset, until nothing changes or n rounds. -/
def settleRounds : Nat → State → State → State
  | 0, _, s => s
  | n + 1, before, s =>
    let ts := fabricTiles s
    let s1 := ts.foldl (fun a t => lineEdges before s t a) s
    let s2 := ts.foldl asyncPass s1
    if (ts.map (fun t => (getTile s t).fab.ffs)) = (ts.map (fun t => (getTile s2 t).fab.ffs)) then s2
    else settleRounds n s s2

/-! ### Source edges (R180, R187, R215, R411) -/

/-- The level that TM_EVSEL of timer k selects (R211). -/
def tmSource (s : State) (t k : Nat) : Bool :=
  let x := getTile s t
  let e := recBits (tmrWord x k 0) 4 5
  if e < 16 then (getCmp x e).out else if e < 24 then tinLevel s t (e - 16) else tmrOut x (e - 24)

/-- A level has an edge from one state to another, of the kinds asked for. -/
def hasEdge (rise fall : Bool) (a b : Bool) : Bool := a != b && (if b then rise else fall)

/-- Edges that samplers of a tile see as one state becomes another, by the records that stand after it. -/
def newEdges (before after : State) (t : Nat) : List EdgeSink :=
  let x := getTile after t
  let rises := fun code => hasEdge true false (srcLevel before t code) (srcLevel after t code)
  ((List.range 4).filter (fun j => x.cv.on && bitAt (cvSlotSource x j) 12 && rises (recBits (cvSlotSource x j) 0 12))).map .slot ++
  ((List.range 32).filter (fun a => x.cv.on && bitAt (accRec x a) 12 && rises (recBits (accRec x a) 0 12))).map .snap ++
  ((List.range 8).filter (fun k => (tmMode x k == 2 || tmMode x k == 4) &&
      hasEdge (bitAt (tmrWord x k 0) 9) (bitAt (tmrWord x k 0) 10) (tmSource before t k) (tmSource after t k))).map
    (fun k => .timer k (tmCountAt after t k 1)) ++
  (((after.rcd.design.filter (fun b => b.tile.val = t)).map (fun b => b.src.toNat)).dedup.filter rises).map .design

/-- Source edges are noted with their device time; those of one sampler in one instant are one. -/
def noteEdges (before after : State) : State :=
  (after.tiles.map (·.1)).foldl (fun s t =>
    let new_ := ((newEdges before after t).map (fun k => ({ sink := k, at_ := s.dev.now } : EdgeNote))).filter
      (fun n => !(getTile s t).edges.contains n)
    if new_.isEmpty then s else modTile s t (fun x => { x with edges := x.edges ++ new_ })) after

/-- The fabric after an event that took one state into another, and the source edges that it makes (R104, R114). -/
def settleFabric (before after : State) : State := noteEdges before (settleRounds 4096 before after)

/-- The first edge of a sampler that counts by now: `second` asks for the second 100 MHz edge after it, which comes 10 ns to
20 ns later (R180, R215, R411). -/
def dueEdge (s : State) (t : Nat) (second : Bool) (p : EdgeSink → Bool) : Option EdgeNote :=
  (getTile s t).edges.find? (fun n => p n.sink && (!second || decide (10 < (s.dev.now - n.at_).toNat)))

/-- An edge has counted. -/
def dropEdge (s : State) (t : Nat) (n : EdgeNote) : State := modTile s t (fun x => { x with edges := x.edges.erase n })

end Sys2Proof.Machine
end

