-- ==== Sys2Proof/Machine/Levels.lean ====
section
/-! DEFINITION. The switches of a tile's analogue matrix and the levels on its nets, trunks and cell terminals
(spec/06_analog_cells.md), as one reading finds them; levels are in nV (assumption 9). -/

namespace Sys2Proof.Machine

/-! ### Records (R157, R159) -/

/-- The 96-bit record of cell k (R157). -/
def acRecord (x : Tile) (k : Nat) : Nat := cfgRead x 0x20 (12 * k) 12

/-- AC_CONFIG of a record. -/
def acConfig (r : Nat) : Nat := recBits r 0 4

/-- AC_INP, AC_INN and AC_OUT of a record. -/
def acInp (r : Nat) : Nat := recBits r 64 6
def acInn (r : Nat) : Nat := recBits r 72 6
def acOut (r : Nat) : Nat := recBits r 80 6

/-- The record of net n (R159). -/
def netRecord (x : Tile) (n : Nat) : Nat := cfgRead x 0x20 (96 + 4 * n) 4

/-- A net record imports from a trunk, or exports to it. -/
def netImports (r : Nat) : Bool := bitAt r 2 && !bitAt r 5
def netExports (r : Nat) : Bool := bitAt r 2 && bitAt r 5

/-- The settling flag of a reference (R160, R183). -/
def refFlag (x : Tile) : RefLevel → Bool
  | .vrefInt => x.an.vrefInt
  | .vrefExt => x.an.vrefExt
  | .vmid => x.an.vmid
  | .van => x.an.van

/-- The reference that a code of CV_REF or CMP_REF names (R173, R200). -/
def refOfCode : Nat → RefLevel
  | 0 => .vrefInt
  | 1 => .vrefExt
  | _ => .van

/-- The level of a net's reference tap (R159). -/
def tapLevel (r : Nat) : Option RefLevel := match recBits r 0 2 with
  | 1 => some .vrefInt
  | 2 => some .vrefExt
  | 3 => some .vmid
  | _ => none

/-! ### Switches (R152, R160, R162, R164) -/

/-- A number that tells what a switch joins its point to, none where the records leave the point open. A cell that is off
has all terminals open, and a follower lends its op-amp only (R156). -/
def switchTo (x : Tile) : AnSwitch → Option Nat
  | .inp k => let r := acRecord x k; if acConfig r != 0 && decide (acInp r < 32) then some (acInp r) else none
  | .inn k => let r := acRecord x k; if acConfig r != 0 && decide (acInn r < 32) then some (acInn r) else none
  | .out k => let r := acRecord x k
    if acConfig r != 0 && acConfig r != 8 && decide (acOut r < 32) then some (acOut r) else none
  | .pin j => if ainSelect x j < 32 then some (ainSelect x j) else none
  | .ref n => (tapLevel (netRecord x n)).map (fun _ => recBits (netRecord x n) 0 2)
  | .tap n => if bitAt (netRecord x n) 2 then some (recBits (netRecord x n) 3 3) else none

/-- The switches of a tile. -/
def allSwitches : List AnSwitch :=
  (List.range 8).flatMap (fun k => [.inp k, .inn k, .out k]) ++ (List.range 6).map .pin ++
    (List.range 32).flatMap (fun n => [.ref n, .tap n])

/-- The switches that a change of records adds (R162). -/
def addedSwitches (old new_ : Tile) : List AnSwitch :=
  allSwitches.filter (fun w => (switchTo new_ w).isSome && switchTo new_ w != switchTo old w)

/-- A capture of CAL_CELL_ZERO holds a cell's terminals open: its OUT until the capture ends, its inputs until the trim
stands (R227). -/
def zeroing (x : Tile) (k : Nat) (out : Bool) : Bool := match x.cv.capture with
  | some { kind := .cellZero cell .., waiting := false, done := d, .. } => cell == k && (out || !d)
  | _ => false

/-- A switch is closed: its records close it, it has had its instant of R164, and neither a change under way, a reference not
settled, a cell zero nor a disconnected output keeps it open. -/
def switchClosed (s : State) (t : Nat) (w : AnSwitch) : Bool :=
  let x := getTile s t
  x.dom.an == .on && (switchTo x w).isSome && !x.an.changes.any (fun c => !c.closed && c.adds.contains w) &&
  (match w with
   | .inp k | .inn k => x.an.inputs && !zeroing x k false
   | .out k => x.an.connected && !x.an.cut && !x.an.changes.any (fun c => c.cells.contains k) && !zeroing x k true
   | .pin j => padRow s (1152 + 6 * t + j) == .active
   | .ref n => x.an.connected && !x.an.cut && (match tapLevel (netRecord x n) with | some l => refFlag x l | none => false)
   | .tap n => if netExports (netRecord x n) then x.an.inputs else x.an.connected)

/-- Net n of a tile has a connected driver (R152, R161). -/
def netDriven (s : State) (t n : Nat) : Bool :=
  let x := getTile s t
  (List.range 8).any (fun k => switchTo x (.out k) == some n && switchClosed s t (.out k)) || switchClosed s t (.ref n) ||
    (netImports (netRecord x n) && switchClosed s t (.tap n))

/-! ### Levels (R156, R160, R161) -/

/-- A reference level as it stands: VREF_INT keeps within 0.25 % of 1.250 V (R160). -/
def refVolts (w : AnalogIn) : RefLevel → Nat
  | .vrefInt => max 1246875000 (min 1253125000 w.vrefInt)
  | .vrefExt => w.aref
  | .vmid => w.van / 2
  | .van => w.van

/-- A level that nothing defines, from 0 V to VAN (R161). `site` tells the points apart. -/
def openLevel (s : State) (w : AnalogIn) (site : Nat) : Int := (Config.freeNat s.fresh (4000 + site) % (w.van + 1) : Nat)

/-- The level that external sources give the pins on a net, where they agree; two that fight leave it open (R153). -/
def sourceLevel (vs : List Nat) (undef : Int) : Option Int := match vs.dedup with
  | [] => none
  | [v] => some v
  | _ => some undef

/-- G of a cell (R156). -/
def cellGain (r : Nat) : Nat := match acConfig r with
  | 1 => 2 ^ recBits r 4 3
  | 5 => [10, 20, 50, 100].getD (recBits r 4 3) 1
  | 7 => [1, 2, 5, 10, 20, 50, 100, 200].getD (recBits r 4 3) 1
  | _ => 1

/-- The greatest n with n ^ k ≤ v, below 2 ^ bits. -/
def rootBelow (v k : Nat) : Nat → Nat
  | 0 => 0
  | b + 1 => let hi := rootBelow (v / 2 ^ k) k b * 2; if (hi + 1) ^ k ≤ v then hi + 1 else hi

/-- The frequency of configurations 2 and 3 in mHz, rounded down: 10 Hz × 2 ^ (AC_FREQ ÷ 1,024) (R156). -/
def cellMilliHz (r : Nat) : Nat := rootBelow (10000 ^ 1024 * 2 ^ recBits r 8 14) 1024 28

/-- The control input of a cell, after AC_CTRLINV (R157). -/
def cellControl (s : State) (t r : Nat) : Bool := srcLevel s t (recBits r 32 12) != bitAt r 44

/-- An output clamped at 0.10 V from each rail (R156). -/
def cellSwing (w : AnalogIn) (v : Int) : Int := max 100000000 (min ((w.van : Int) - 100000000) v)

/-- What a cell's past adds. -/
def cellPast (w : AnalogIn) (t k : Nat) : Int := ((w.past.find? (fun p => p.1 = 8 * t + k)).map (·.2)).getD 0

/-- OUT of a cell from the difference INP − INN (R156). An integrator adds 2π·f_u times the integral of its input. A biquad's
answer to its input history is open but for its parameters: the spec names the filter and no more. -/
def cellOut (s : State) (w : AnalogIn) (t k : Nat) (diff : Int) : Int :=
  let r := acRecord (getTile s t) k
  let past := cellPast w t k
  let mid : Int := (w.van / 2 : Nat)
  match acConfig r with
  | 2 => if cellControl s t r then mid else cellSwing w (mid + past * (cellMilliHz r * 6283185307 : Nat) / 10 ^ 21)
  | 3 => cellSwing w (mid + Config.biquad (recBits r 25 2) (recBits r 22 3) (recBits r 8 14) past)
  | 4 => cellSwing w (mid + if cellControl s t r then diff else past)
  | 6 => cellSwing w ((recBits r 48 8 * 6250000 : Nat) + past)
  | _ => cellSwing w (mid + cellGain r * diff)

/-- A point that has a level. -/
inductive AnPoint where
  | net (t n : Nat)
  | cell (t k : Nat)
  /-- INP or INN of a cell -/
  | term (t k : Nat) (neg : Bool)
  /-- trunk k of a sector -/
  | trunk (sec k : Nat)
  deriving DecidableEq, Repr

/-- A number for a point. -/
def pointSite : AnPoint → Nat
  | .net t n => 4 * (32 * t + n)
  | .cell t k => 4 * (32 * t + k) + 1
  | .term t k b => 4 * (32 * t + 2 * k + b.toNat) + 2
  | .trunk c k => 4 * (4 * c + k) + 3

/-- External sources on the pins that join a net. -/
def pinSources (s : State) (w : AnalogIn) (t n : Nat) : List Nat :=
  (List.range 6).filterMap (fun j =>
    if switchTo (getTile s t) (.pin j) == some n && switchClosed s t (.pin j)
    then (w.pins.find? (fun p => p.1 = 1152 + 6 * t + j)).map (·.2) else none)

/-- The net that exports to trunk k of a sector, with its tile (R153, R161). -/
def exporter (s : State) (sec k : Nat) : Option (Nat × Nat) :=
  ((s.tiles.filter (fun p => p.1 / 24 = sec)).flatMap (fun p => ((List.range 32).filter (fun n =>
    netExports (netRecord p.2 n) && recBits (netRecord p.2 n) 3 2 == k && switchClosed s p.1 (.tap n))).map (fun n => (p.1, n)))).head?

/-- The level of a point, with at most n points passed; a loop through cells runs out of them and is open. A net without a
connected driver takes the level of the source on its pins, and with both they fight (R153, R161). -/
def levelOf : Nat → State → AnalogIn → AnPoint → Int
  | 0, s, w, p => openLevel s w (pointSite p)
  | f + 1, s, w, .net t n =>
    let x := getTile s t
    let undef := openLevel s w (pointSite (.net t n))
    match (List.range 8).find? (fun k => switchTo x (.out k) == some n && switchClosed s t (.out k)) with
    | some k => if (pinSources s w t n).isEmpty then levelOf f s w (.cell t k) else undef
    | none =>
      let ref := if switchClosed s t (.ref n) then tapLevel (netRecord x n) else none
      match ref with
      | some l => if (pinSources s w t n).isEmpty then refVolts w l else undef
      | none =>
        if netImports (netRecord x n) && switchClosed s t (.tap n) then
          (if (pinSources s w t n).isEmpty then levelOf f s w (.trunk (t / 24) (recBits (netRecord x n) 3 2)) else undef)
        else (sourceLevel (pinSources s w t n) undef).getD undef
  | f + 1, s, w, .cell t k =>
    cellOut s w t k (levelOf f s w (.term t k false) - levelOf f s w (.term t k true))
  | f + 1, s, w, .term t k neg =>
    let sw : AnSwitch := if neg then .inn k else .inp k
    match switchTo (getTile s t) sw with
    | some n => if switchClosed s t sw then levelOf f s w (.net t n) else openLevel s w (pointSite (.term t k neg))
    | none => openLevel s w (pointSite (.term t k neg))
  | f + 1, s, w, .trunk sec k => match exporter s sec k with
    | some p => levelOf f s w (.net p.1 p.2)
    | none => openLevel s w (pointSite (.trunk sec k))

/-- More points than any path without a loop passes: 24 tiles of 32 nets and 8 cells in a sector. -/
def levelFuel : Nat := 2000

/-- The level of net n of a tile. -/
def netLevel (s : State) (w : AnalogIn) (t n : Nat) : Int := levelOf levelFuel s w (.net t n)

/-- The level at analogue pin j of a tile through its direct sense tap: its external source, else its net (R200). -/
def pinLevel (s : State) (w : AnalogIn) (t j : Nat) : Int :=
  match (w.pins.find? (fun p => p.1 = 1152 + 6 * t + j)).map (·.2), switchTo (getTile s t) (.pin j) with
  | some v, none => v
  | some v, some n => if switchClosed s t (.pin j) then netLevel s w t n else v
  | none, some n => if switchClosed s t (.pin j) then netLevel s w t n else openLevel s w (100000 + 6 * t + j)
  | none, none => openLevel s w (100000 + 6 * t + j)

/-- OUT of a cell whose inputs CAL_CELL_ZERO ties to VMID: its offset, the past operand, and the trim of the round under way in
steps of 25 µV, referred to the input (R220, R227). -/
def zeroLevel (w : AnalogIn) (x : Tile) (t k : Nat) (trim : Int) : Int :=
  cellSwing w ((w.van / 2 : Nat) + cellGain (acRecord x k) * (cellPast w t k + 25000 * trim))

end Sys2Proof.Machine
end

