-- ==== Sys2Proof/Machine/Pins.lean ====
section
/-! DEFINITION. Pins and the pin crossbar (spec/05_pins.md): the pad, window and lock events and the
descriptors 0x40 to 0x45. -/

namespace Sys2Proof.Machine

/-- Device pin index of pin byte n of a tile: 0-11 DIO, 16-21 AIN (R129, R149). -/
def pinIndex (t n : Nat) : Option Nat :=
  if n < 12 then some (12 * t + n) else if 16 ≤ n && n < 22 then some (1152 + 6 * t + (n - 16)) else none

/-- A pin is assigned to a casement (R352). -/
def pinOf (s : State) (p c : Nat) : Bool := match mfind s.dev.pinCase p with
  | some k => k.val == c
  | none => false

/-- The pins assigned to a casement. -/
def casePins (s : State) (c : Nat) : List Nat := (s.dev.pinCase.filter (fun q => q.2.val == c)).map (·.1)

/-- A pin is locked (R142). -/
def pinLocked (s : State) (p : Nat) : Bool := s.dev.locks.getLsbD p

/-- A reserved output source code (R134). -/
def badSlotCode (c : Nat) : Bool :=
  !(decide (c < 0x800) || (0x900 ≤ c && c < 0x910) || (0x910 ≤ c && c < 0x918) || (0x940 ≤ c && c < 0x94C) ||
    (0x950 ≤ c && c < 0x95C) || c == 0xFFE || c == 0xFFF)

/-- A reserved code of R110. -/
def badSrcCode (c : Nat) : Bool :=
  !(decide (c < 0x918) || (0x920 ≤ c && c < 0x940) || (0xA00 ≤ c && c < 0xC10) || c == 0xFFE || c == 0xFFF)

/-- A set-up record with a field outside its range (R132 to R134). -/
def badPinRecord (w0 w1 w2 : Nat) : Bool :=
  recBits w0 18 14 != 0 || decide (95 < recBits w0 8 7) ||
  [w1, w2].any (fun w => badSlotCode (recBits w 0 12) || badSlotCode (recBits w 12 12) || decide (95 < recBits w 24 7))

/-- A PIN_DSRC that a reflex output may have (R137). -/
def reflexSource (c : Nat) : Bool := decide (c < 0x800) || (0x900 ≤ c && c < 0x910)

/-- The row of R137 for a record with slot B enabled: no refusal, BAD_FIELD or CONFLICT. `pair` says whether two
tiles form a duplex pair. -/
def slotConflict (pair : Nat → Nat → Bool) (w0 w1 w2 : Nat) : Option Status :=
  if !bitAt w0 6 then none
  else if pair (recBits w1 24 7) (recBits w2 24 7) && recBits w1 0 12 == recBits w2 0 12 &&
      recBits w1 12 12 == recBits w2 12 12 then none
  else if bitAt w1 31 && bitAt w2 31 && reflexSource (recBits w1 0 12) && reflexSource (recBits w2 0 12) then none
  else if [w1, w2].any (fun w => bitAt w 31 && !reflexSource (recBits w 0 12)) then some .badField
  else some .conflict

/-- Two tiles form a duplex pair as the role table stands. -/
def pairNow (s : State) (a b : Nat) : Bool := partnerOf s a == some b

/-- A line select word that the loader refuses (R139), for a line of tile t. -/
def badLineWord (t w : Nat) : Bool :=
  recBits w 18 10 != 0 || bitAt w 31 || recBits w 28 2 == 3 ||
  (recBits w 28 2 == 1 && decide (1151 < recBits w 0 11)) ||
  (recBits w 28 2 == 2 && (recBits w 11 7 == t || decide (95 < recBits w 11 7)))

/-- The conflict flag of timer input k of a tile brought up to date; a new conflict is posted with the pin that
brought it (R138). -/
def settleTin (s : State) (t k p : Nat) : State :=
  let y := (getTile s t).pin
  let many := decide (2 ≤ (tinPins s t k).length)
  if many && !y.conflict.getLsbD k then
    postTile (modPin s t (fun y => { y with conflict := setBit y.conflict k true, conflicts := bump y.conflicts }))
      t 0x781 1 t k p
  else if !many && y.conflict.getLsbD k then modPin s t (fun y => { y with conflict := setBit y.conflict k false })
  else s

/-- What a pad's latch holds at a change of its set-up: the old V and E, driven in the old mode (R144). -/
def padHeld (s : State) (p : Nat) : HeldPad :=
  match mfind (getTile s (p / 12)).pin.switching (p % 12) with
  | some h => h
  | none => { mode := Fin.ofNat 4 (pinMode (getTile s (p / 12)) (p % 12)),
              v := wire wireFuel s (.padV p), e := wire wireFuel s (.padE p) }

/-- The latch of a pin that takes words w0 to w2 (R144): an output that takes a new mode, slot or source holds it for
10 ns, and a new output stays released for as long. Any other change leaves it as it is. -/
def padLatch (s : State) (p w0 w1 w2 : Nat) : Map HeldPad :=
  let x := getTile s (p / 12)
  let n := p % 12
  let old := fun w => pinWord x n w
  if recBits w0 0 2 < 2 then mdel x.pin.switching n
  else if pinMode x n < 2 then mset x.pin.switching n { mode := 0, v := false, e := false }
  else if recBits w0 0 2 = pinMode x n && bitAt w0 6 == bitAt (old 0) 6 && w1 = old 1 && w2 = old 2 then x.pin.switching
  else mset x.pin.switching n (padHeld s p)

/-- A pin's set-up changes at its pad-clock edge (R144). -/
def changePin (s : State) (p w0 w1 w2 : Nat) : State :=
  let t := p / 12
  let n := p % 12
  let x := getTile s t
  let old := pinWord x n 0
  let sw := padLatch s p w0 w1 w2
  let x1 := cfgWrite x 0x18 (8 + 12 * n) 12 (w0 + 2 ^ 32 * w1 + 2 ^ 64 * w2)
  let s1 := setTile s t { x1 with pin := { x1.pin with switching := sw } }
  let s2 := if bitAt old 7 then settleTin s1 (recBits old 8 7) (recBits old 15 3) p else s1
  let s3 := if bitAt w0 7 then settleTin s2 (recBits w0 8 7) (recBits w0 15 3) p else s2
  settleFabric s s3

/-- A number of twelve bits. -/
def bits12 (f : Nat → Bool) : Nat := (List.range 12).foldl (fun v n => v + 2 ^ n * (f n).toNat) 0

/-- Level of a pad as a reader of the pin window sees it; a pin without an active function passes none (R145), and its bit
is open. -/
def pinReadBit (s : State) (p : Nat) : Bool :=
  if pinActive s p then padIn s p 2 else Config.freeBit s.fresh (wireSite (.pad p 3))

/-- Input levels of a tile's twelve pads. -/
def pinLevels (s : State) (t : Nat) : Nat := bits12 (fun n => pinReadBit s (12 * t + n))

/-- The window latches after a masked store (R141); reserved bits of the word are ignored. -/
def windowStore (s : State) (t mask word : Nat) : State :=
  let m := BitVec.ofNat 12 mask
  let o := BitVec.ofNat 12 (recBits word 0 12)
  let e := BitVec.ofNat 12 (recBits word 16 12)
  settleFabric s (modPin s t (fun y =>
    { y with outLatch := (y.outLatch &&& ~~~m) ||| (o &&& m),
             enLatch := if bitAt word 31 then (y.enLatch &&& ~~~m) ||| (e &&& m) else y.enLatch }))

/-- The word that a read at any address of a tile's pin window returns: pad input levels and output latches (R141). -/
def windowWord (s : State) (t : Nat) : BitVec 32 :=
  BitVec.ofNat 32 (pinLevels s t + 2 ^ 16 * (getTile s t).pin.outLatch.toNat)

/-- A lock takes effect (R142). -/
def lockPin (s : State) (p : Nat) : State :=
  postTile (modDev s (fun d => { d with locks := setBit d.locks p true })) (pinTile p) 0x783 1 (pinTile p) 0 p

/-! ### Events -/

/-- PIN_SWITCH_SETTLE: 10 ns after edge E the new set-up drives the pad (R144). -/
def execPinSwitchSettle (t : TileId) (n : Fin 12) (s : State) : Host.Outcome State Fault Refusal :=
  .next (settleFabric s (modPin s t.val (fun y => { y with switching := mdel y.switching n.val })))

/-- PAD_INPUT_CHANGE: the board changes what it does at a pad; lines, clocks and set/reset inputs fed by the pad
follow (R135, R139). -/
def execPadInputChange (t : TileId) (n : Fin 12) (drive : PadDrive) (s : State) : Host.Outcome State Fault Refusal :=
  .next (settleFabric s (modPin s t.val (fun y => { y with board := mset y.board n.val drive })))

/-- PIN_WINDOW_STORE: a 32-bit store at TC_PIN_WINDOW + (M << 2) (R141). -/
def execPinWindowStore (t : TileId) (mask : BitVec 12) (word : BitVec 32) (s : State) :
    Host.Outcome State Fault Refusal :=
  .next (windowStore s t.val mask.toNat word.toNat)

/-- PIN_LOCK_WRITE: one write to TC_PIN_LOCK (R142). -/
def execPinLockWrite (t : TileId) (word : BitVec 32) (s : State) : Host.Outcome State Fault Refusal :=
  let key := recBits word.toNat 0 16
  let p := recBits word.toNat 16 11
  let own := decide (p < 1728) && pinTile p == t.val
  let y := (getTile s t.val).pin
  let s1 := modPin s t.val (fun y => { y with lockSeq := if key = 0x5A5A && own then some (BitVec.ofNat 11 p) else none })
  .next (if key = 0xA5A5 && own && y.lockSeq == some (BitVec.ofNat 11 p) && !pinLocked s p then lockPin s1 p else s1)

/-! ### Descriptors -/

/-- Bits [4:0] of bytes 2-3 name the casement. -/
def caseBits : Nat := 0x1F

def shPinWrite : Shape := (shapeOf caseBits false false false [(28, 1), (32, 4)]).withBits [(30, 0xFF), (31, 0x0F)]
def shPinRead : Shape := shapeOf caseBits false false false [(28, 1)]
def shPinSetup : Shape := shapeOf caseBits false false false [(28, 2), (32, 12)]
def shPinLine : Shape := shapeOf caseBits false false false [(28, 3), (32, 4)]
def shPinLock : Shape := shapeOf caseBits false false false [(28, 2)]
def shTileCopy : Shape := shapeOf caseBits true false true [(28, 1)]

/-- R59 with the row of R148 in place of the tile row: `mine` says that every pin or line named is the casement's. -/
def r59Pins (q : Req) (a : Access) (mine : Bool) (s : State) : List (Bool × Status) :=
  r59 q a (some (dByte q.d 28)) mine s

/-- The named pin, if there is one, is assigned to the casement. -/
def minePin (q : Req) (p : Option Nat) (s : State) : Bool := match p with
  | some p => pinOf s p (dCase q.d).val
  | none => false

/-- PIN_READ and PIN_STATUS name a whole tile and no pin of it: the tile is the casement's, or one of its digital pins is
(DEDUCED, assumption 36). -/
def mineTile (q : Req) (s : State) : Bool :=
  tileInside q (dByte q.d 28) s ||
    (decide (dByte q.d 28 < 96) && (List.range 12).any (fun n => pinOf s (12 * dByte q.d 28 + n) (dCase q.d).val))

/-- A pin byte outside its range is BAD_FIELD before it can name a pin. -/
def pinByte (q : Req) : Option Nat := if dByte q.d 28 < 96 then pinIndex (dByte q.d 28) (dByte q.d 29) else none

/-- Mask of PIN_WRITE, bits [11:0] of bytes 30-31 (R149). -/
def pinWriteMask (q : Req) : Nat := dW16 q.d 30 % 4096

/-- Reserved bits of the stored word of PIN_WRITE (R149). -/
def pinWriteBad (q : Req) : Bool := dirty shPinWrite q || recBits (dW32 q.d 32) 12 4 != 0 || recBits (dW32 q.d 32) 28 3 != 0

/-- Every pin in the mask is assigned to the casement (R148). -/
def mineMask (q : Req) (s : State) : Bool :=
  decide (dByte q.d 28 < 96) && (List.range 12).all (fun n =>
    !bitAt (pinWriteMask q) n || pinOf s (12 * dByte q.d 28 + n) (dCase q.d).val)

def pinWriteBody (q : Req) (s : State) : Reply × State :=
  checked (r59Pins q .poke (mineMask q s) s ++ [(pinWriteBad q, .badField)])
    (fun s => let e := edgeTime s
      (.done .ok e.1.toNat, windowStore e.2 (dByte q.d 28) (pinWriteMask q) (dW32 q.d 32))) s

/-- PIN_WRITE: one masked store to a tile's pin window (R141, R149). -/
def execPinWrite (q : Req) (s : State) : Host.Outcome State Fault Refusal :=
  .next (runDesc (.pinWrite q) 0x40 q (pinWriteBody q) s)

/-- The result of PIN_READ (R149). -/
def pinReadResult (s : State) (t : Nat) : Nat :=
  (windowWord s t).toNat + 2 ^ 32 * bits12 (fun n => wire wireFuel s (.padE (12 * t + n)))

def pinReadBody (q : Req) (s : State) : Reply × State :=
  checked (r59Pins q .peek (mineTile q s) s ++ [(dirty shPinRead q, .badField)])
    (fun s => (.done .ok (pinReadResult s (dByte q.d 28)), { s with fresh := s.fresh + 1 })) s

/-- PIN_READ: pad levels and latches in the result (R149). -/
def execPinRead (q : Req) (s : State) : Host.Outcome State Fault Refusal :=
  .next (runDesc (.pinRead q) 0x41 q (pinReadBody q) s)

def pinSetupBody (q : Req) (s : State) : Reply × State :=
  let t := dByte q.d 28
  let n := dByte q.d 29
  let p := 12 * t + n
  let w0 := dW32 q.d 32
  let w1 := dW32 q.d 36
  let w2 := dW32 q.d 40
  let bad := dirty shPinSetup q || badPinRecord w0 w1 w2 || slotConflict (pairNow s) w0 w1 w2 == some .badField
  checked (r59Pins q .poke (minePin q (if n < 12 then pinByte q else none) s) s ++
      [(bad, .badField),
       (pinLocked s p, .locked),
       (slotConflict (pairNow s) w0 w1 w2 == some .conflict, .conflict)])
    (fun s => let e := edgeTime s
      (.done .ok e.1.toNat, markChanged (changePin e.2 p w0 w1 w2) (dCase q.d).val)) s

/-- PIN_SETUP: one digital pin's record, applied at the next pad-clock edge; a write to a locked record completes LOCKED
also where it changes nothing (R9 RWL, R143, R144, R149). -/
def execPinSetup (q : Req) (s : State) : Host.Outcome State Fault Refusal :=
  .next (runDesc (.pinSetup q) 0x42 q (pinSetupBody q) s)

/-- The line is one of the casement's tiles, and so is the pin that a word of kind 1 names (R148). -/
def mineLine (q : Req) (s : State) : Bool :=
  let w := dW32 q.d 32
  tileInside q (dByte q.d 28) s && (recBits w 28 2 != 1 || pinOf s (recBits w 0 11) (dCase q.d).val)

def pinLineBody (q : Req) (s : State) : Reply × State :=
  let t := dByte q.d 28
  let qn := dByte q.d 29
  let l := dByte q.d 30
  let w := dW32 q.d 32
  let bad := dirty shPinLine q || decide (15 < qn) || decide (31 < l) || badLineWord t w
  checked (r59Pins q .poke (mineLine q s) s ++ [(bad, .badField)])
    (fun s => let e := edgeTime s
      (.done .ok e.1.toNat, markChanged (settleFabric e.2
        (modTile e.2 t (fun x => cfgWrite x 0x18 (256 + 4 * (32 * qn + l)) 4 w))) (dCase q.d).val)) s

/-- PIN_LINE: one line select word (R139, R149). -/
def execPinLine (q : Req) (s : State) : Host.Outcome State Fault Refusal :=
  .next (runDesc (.pinLine q) 0x43 q (pinLineBody q) s)

/-- From the second check of the locks until start-up ends, a lock of a pin of the load's target is refused (R345). -/
def lockClosed (s : State) (p : Nat) : Bool :=
  s.load.purpose == .load && (s.load.phase == .takeover || s.load.phase == .pass2 || s.load.phase == .startUp) &&
    (s.load.full || pinOf s p s.load.case_.val)

def pinLockBody (q : Req) (s : State) : Reply × State :=
  let p := (pinByte q).getD 0
  checked (r59Pins q .peek (minePin q (pinByte q) s) s ++ [(dirty shPinLock q, .badField), (lockClosed s p, .busy)])
    (fun s => if pinLocked s p then (.done .ok 1, s) else (.done .ok 0, lockPin s p)) s

/-- PIN_LOCK: the lock sequence for one pin (R142, R149). -/
def execPinLock (q : Req) (s : State) : Host.Outcome State Fault Refusal :=
  .next (runDesc (.pinLock q) 0x44 q (pinLockBody q) s)

/-- The bank byte of PIN_STATUS (R130, R150). -/
def bankByte (y : PinState) : Nat := if y.mismatch then 3 else y.measured.val

/-- The 64 bytes of PIN_STATUS (R150). -/
def pinStatusBytes (s : State) (t : Nat) : List Byte :=
  let x := getTile s t
  let bits := fun (m : Nat) (f : Nat → Bool) => (List.range m).foldl (fun v n => v + 2 ^ n * (f n).toNat) 0
  layout 64 [(0, 2, bits 12 (fun n => pinLocked s (12 * t + n))), (2, 1, bits 6 (fun n => pinLocked s (1152 + 6 * t + n))),
    (3, 1, bankByte x.pin), (4, 2, bits 12 (fun n => padRow s (12 * t + n) == .sill)),
    (6, 2, bits 12 (fun n => bitAt (pinWord x n 0) 6)), (8, 1, cfgRead x 0x18 1 1), (9, 1, x.pin.conflict.toNat),
    (12, 4, x.pin.conflicts)]

def pinStatusBody (q : Req) (s : State) : Reply × State :=
  checked (r59Pins q .peek (mineTile q s) s ++ [(dirty shTileCopy q || short q 64, .badField)])
    (fun s => replyCopy q (pinStatusBytes s (dByte q.d 28)) 0 s) s

/-- PIN_STATUS: a tile's pin state (R150). -/
def execPinStatus (q : Req) (s : State) : Host.Outcome State Fault Refusal :=
  .next (runDesc (.pinStatus q) 0x45 q (pinStatusBody q) s)

end Sys2Proof.Machine
end

