-- ==== Sys2Proof/Machine/Analog.lean ====
section
/-! DEFINITION. Analogue cells and the switch matrix (spec/06_analog_cells.md): limits, references, the steps of a
matrix change, and the descriptors 0x50 to 0x53. -/

namespace Sys2Proof.Machine

/-- A net field that is neither a net nor none (R157). -/
def badNetField (n : Nat) : Bool := decide (32 ≤ n) && n != 63

/-- A cell record for cell k with a reserved code or field, or against a rule of R156. -/
def badCellRecord (k r : Nat) : Bool :=
  bitAt r 7 || recBits r 27 5 != 0 || recBits r 45 3 != 0 || recBits r 56 8 != 0 || recBits r 70 2 != 0 ||
  recBits r 78 2 != 0 || recBits r 86 10 != 0 || decide (9 ≤ acConfig r) || decide (14630 < recBits r 8 14) ||
  decide (240 < recBits r 48 8) || badSrcCode (recBits r 32 12) || badNetField (recBits r 64 6) ||
  badNetField (recBits r 72 6) || badNetField (acOut r) || (acConfig r == 5 && decide (4 ≤ recBits r 4 3)) ||
  (acConfig r == 7 && k % 2 == 1) || (acConfig r == 6 && recBits r 72 6 != 63) ||
  (acConfig r == 8 && (k % 2 == 0 || recBits r 64 6 != 63 || recBits r 72 6 != 63 || acOut r != 63))

/-- The record that a leader gives its follower (R158). -/
def followerRecord : Nat := 8 + 0x3F3F3F * 2 ^ 64

/-- Cells 2k and 2k + 1 form a pair (R158). -/
def acPaired (x : Tile) (k : Nat) : Bool := acConfig (acRecord x k) == 7 && acConfig (acRecord x (k + 1)) == 8

/-- A record written to a cell, with what it does to the other cell of a pair (R158). The other cell of a pair that is
dissolved goes to configuration 0 and keeps its other fields: DESIGN CHOICE, since the rule names the configuration alone
(assumption 25). -/
def writeCell (x : Tile) (k r : Nat) : Tile :=
  let even := k - k % 2
  let other := if k % 2 = 0 then k + 1 else even
  let x1 := cfgWrite x 0x20 (12 * k) 12 r
  if acConfig r = 7 then cfgWrite x1 0x20 (12 * other) 12 followerRecord
  else if acPaired x even then
    cfgWrite x1 0x20 (12 * other) 12 (acRecord x other - acConfig (acRecord x other))
  else x1

/-- Drivers that the records of a tile give net n (R152, R153). -/
def netDrivers (x : Tile) (n : Nat) : Nat :=
  ((List.range 8).filter (fun k => let r := acRecord x k
      acConfig r != 0 && acConfig r != 8 && acOut r == n)).length +
    (recBits (netRecord x n) 0 2 != 0).toNat + (netImports (netRecord x n)).toNat

/-- Nets of a tile that export to trunk k. -/
def exportsTo (x : Tile) (k : Nat) : Nat :=
  ((List.range 32).filter (fun n => let r := netRecord x n
      netExports r && recBits r 3 2 == k)).length

/-- Some net of the tile has two drivers, or some trunk of its sector has two exporting nets (R153). -/
def driverConflict (s : State) (t : Nat) (x : Tile) : Bool :=
  (List.range 32).any (fun n => decide (2 ≤ netDrivers x n)) ||
  (List.range 4).any (fun k => decide (0 < exportsTo x k) &&
    decide (2 ≤ exportsTo x k + (s.tiles.map (fun p =>
      if p.1 / 24 = t / 24 && p.1 != t then exportsTo p.2 k else 0)).sum))

/-! ### Events -/

/-- The switch by which an output drives its net (R154). -/
def outputSwitch : AnOutput → AnSwitch
  | .cell k => .out k.val
  | .refTap n => .ref n.val

/-- Number of an output in AN_CURRENT_LIMIT (R167). -/
def anOutputCode : AnOutput → Nat
  | .cell k => k.val
  | .refTap n => 8 + n.val

/-- CURRENT_LIMIT_EXPIRY: a connected output has been more than 10 µs in limit; posted and counted, it stays connected
(R154). -/
def execCurrentLimitExpiry (t : TileId) (o : AnOutput) (s : State) : Host.Outcome State Fault Refusal :=
  .next (if switchClosed s t.val (outputSwitch o) then
      postTile (modAn s t.val (fun a => { a with limits := bump a.limits })) t.val 0x801 1 t.val (anOutputCode o) 0
    else s)

/-- A settling flag set. -/
def setRefFlag (a : AnState) : RefLevel → AnState
  | .vrefInt => { a with vrefInt := true }
  | .vrefExt => { a with vrefExt := true }
  | .vmid => { a with vmid := true }
  | .van => { a with van := true }

/-- REFERENCE_SETTLED: a level's settling flag is set; VREF_EXT needs AREF_s within its range (R160, R183). A
converter that changed to this reference sees it settled. -/
def execReferenceSettled (t : TileId) (l : RefLevel) (s : State) : Host.Outcome State Fault Refusal :=
  .next (if (getTile s t.val).dom.an != .on || (l == .vrefExt && !s.dev.aref.getLsbD (sectorOf t.val)) then s
    else modTile s t.val (fun x => { x with
      an := setRefFlag x.an l,
      cv := { x.cv with refNew := x.cv.refNew && refOfCode (recBits x.cv.ctrl.toNat 2 2) != l } }))

/-- The first change of a list that satisfies a test, changed. -/
def onFirst (p : AnChange → Bool) (f : AnChange → AnChange) : List AnChange → List AnChange
  | [] => []
  | c :: r => if p c then f c :: r else c :: onFirst p f r

/-- AN_SWITCH_CLOSE: E + 100 ns, the switches that the oldest open change adds close (R162). -/
def execAnSwitchClose (t : TileId) (s : State) : Host.Outcome State Fault Refusal :=
  .next (modAn s t.val (fun a => { a with changes := onFirst (fun c => !c.closed) (fun c => { c with closed := true }) a.changes }))

/-- AN_OUT_CLOSE: E + 5 µs, the changed cell's OUT closes and the descriptor completes with E (R162, R165). -/
def execAnOutClose (t : TileId) (s : State) : Host.Outcome State Fault Refusal :=
  .next (match (getTile s t.val).an.changes.find? (·.closed) with
    | none => s
    | some c => complete c.req .ok c.atE.toNat (modAn s t.val (fun a => { a with changes := a.changes.erase c })))

/-! ### Descriptors

"Treated as BP_POKE (or BP_PEEK) is treated" is read as the access row of R59: the table of R65, with its lintels and duplex
tiles, and the SHUTTERED of R393 speak of pokes and peeks and are not applied to 0x50 to 0x53 (DEDUCED, assumption 25). -/

def shAnCell : Shape := shapeOf caseBits false false false [(28, 2), (32, 12)]
def shAnNet : Shape := shapeOf caseBits false false false [(28, 2), (32, 4)]
def shAnPin : Shape := shapeOf caseBits false false false [(28, 2), (32, 1)]

/-- A change begins: the new records stand, the switches that it removes are open, those that it adds close later, and so does
the OUT of a cell whose record changes (R162). -/
def beginChange (q : Req) (x : Tile) (s : State) : Reply × State :=
  let t := dByte q.d 28
  let e := edgeTime s
  let old := getTile s t
  let c : AnChange :=
    { req := q, cells := (List.range 8).filter (fun k => acRecord old k != acRecord x k), adds := addedSwitches old x,
      atE := e.1, closed := false }
  (.later, markChanged (setTile e.2 t { x with an := { x.an with changes := x.an.changes ++ [c] } }) (dCase q.d).val)

/-- AN_CELL_SET takes configuration 8 too: on an odd cell with all net fields 63 it is no reserved code, and dissolves a pair
that it meets (R156, R158). -/
def anCellSetBody (q : Req) (s : State) : Reply × State :=
  let t := dByte q.d 28
  let k := dByte q.d 29
  let r := dBits q.d 32 12
  let x := writeCell (getTile s t) k r
  let bad := dirty shAnCell q || decide (7 < k) || badCellRecord k r
  checked (r59Tile q .poke s ++ [(bad, .badField), (driverConflict s t x, .conflict)]) (beginChange q x) s

/-- AN_CELL_SET: one cell record (R157, R158, R162, R165). -/
def execAnCellSet (q : Req) (s : State) : Host.Outcome State Fault Refusal :=
  .next (runDesc (.anCellSet q) 0x50 q (anCellSetBody q) s)

/-- The casement that owns a trunk, key 4·sector + k (R155). -/
def trunkOther (s : State) (key c : Nat) : Bool := match mfind s.dev.trunks key with
  | some o => o.val != c
  | none => false

def anNetSetBody (q : Req) (s : State) : Reply × State :=
  let t := dByte q.d 28
  let n := dByte q.d 29
  let r := dW32 q.d 32
  let key := 4 * sectorOf t + recBits r 3 2
  let x := cfgWrite (getTile s t) 0x20 (96 + 4 * n) 4 r
  let bad := dirty shAnNet q || decide (31 < n) || decide (64 ≤ r)
  checked (r59Tile q .poke s ++
      [(bad, .badField), (bitAt r 2 && trunkOther s key (dCase q.d).val, .refusedOwnership),
       (driverConflict s t x, .conflict)])
    (fun s => beginChange q x (if bitAt r 2
      then modDev s (fun d => { d with trunks := mset d.trunks key (dCase q.d) }) else s)) s

/-- AN_NET_SET: one net record; a trunk that no casement owns is taken into the issuer's (R159, R163, R165). -/
def execAnNetSet (q : Req) (s : State) : Host.Outcome State Fault Refusal :=
  .next (runDesc (.anNetSet q) 0x51 q (anNetSetBody q) s)

/-- AN_PIN_SET names a pin, by its assignment, and with a select other than 63 a net, which is its tile's casement's (R155, R163,
R352). So an AIN pin assigned to another casement than its tile's can be joined to no net: DEDUCED (assumption 25). -/
def anPinSetBody (q : Req) (s : State) : Reply × State :=
  let t := dByte q.d 28
  let n := dByte q.d 29
  let v := dByte q.d 32
  let p := 1152 + 6 * t + n
  let inside := decide (t < 96) && decide (n < 6) && pinOf s p (dCase q.d).val && (v == 63 || tileInside q t s)
  checked (r59 q .poke (some t) inside s ++
      [(dirty shAnPin q || badNetField v, .badField),
       (pinLocked s p && ainSelect (getTile s t) n != v, .locked)])
    (beginChange q (cfgWrite (getTile s t) 0x18 (152 + n) 1 v)) s

/-- AN_PIN_SET: one analogue pin select, which a lock freezes (R143, R159, R165). -/
def execAnPinSet (q : Req) (s : State) : Host.Outcome State Fault Refusal :=
  .next (runDesc (.anPinSet q) 0x52 q (anPinSetBody q) s)

/-- The 256 bytes of AN_STATUS (R166). Bit n of bytes 232-235 tells of a driver connected now, as R161 speaks of one, not of the
records alone: DEDUCED (assumption 25). -/
def anStatusBytes (s : State) (t : Nat) : List Byte :=
  let x := getTile s t
  memGets cfgCold x.cfg (cfgAddr 0x20 0) 224 ++ memGets cfgCold x.cfg (cfgAddr 0x18 152) 6 ++
    layout 26 [(0, 1, x.an.vrefInt.toNat + 2 * x.an.vrefExt.toNat + 4 * x.an.vmid.toNat),
      (2, 4, (List.range 32).foldl (fun v n => v + 2 ^ n * (netDriven s t n).toNat) 0),
      (6, 4, x.an.limits)]

def anStatusBody (q : Req) (s : State) : Reply × State :=
  checked (r59Tile q .peek s ++ [(dirty shTileCopy q || short q 256, .badField)])
    (fun s => replyCopy q (anStatusBytes s (dByte q.d 28)) 0 s) s

/-- AN_STATUS: a tile's analogue state (R166). -/
def execAnStatus (q : Req) (s : State) : Host.Outcome State Fault Refusal :=
  .next (runDesc (.anStatus q) 0x53 q (anStatusBody q) s)

end Sys2Proof.Machine
end

