-- ==== Sys2Proof/Machine/JnlOps.lean ====
section
/-! DEFINITION. Tile state as checkpoints hold it, and the writing of journal records
(spec/15_replay.md, R380 to R391). -/

namespace Sys2Proof.Machine

/-! ### Emulated state of a tile -/

/-- Instruction words that are not zero, as numbers ((32c + m)·1,024 + s) of class 0x01 (R326). -/
def usedWords (x : Tile) : List Nat :=
  ((x.cfg.filter (fun c => cfgAddr 0x01 0 ≤ c.1 && c.1 < cfgAddr 0x01 8388608)).map
    (fun c => (c.1 - cfgAddr 0x01 0) / 8)).dedup

/-- An instruction word (R30). -/
def insWord (x : Tile) (b st : Nat) : Nat := cfgRead x 0x01 (8 * (1024 * b + st)) 8

def insDst (w : Nat) : Nat := recBits w 7 9
def insKeep (w : Nat) : Bool := bitAt w 6

/-- The emulated flip-flops of a tile at schedule depth d, by BP index: slots that an executed word writes with
KEEP = 1 (R40, R51). -/
def ffSlots (x : Tile) (d : Nat) : Map (BitVec 384) :=
  (usedWords x).foldl (fun m a =>
    let b := a / 1024
    let w := insWord x b (a % 1024)
    if a % 1024 < d && insKeep w && insDst w < 384 then mset m b (setBit (mget 0 m b) (insDst w) true) else m) []

/-- Slots with everything but flip-flops at 0 (R35, R389). -/
def keepFfs (slots ffs : Map (BitVec 384)) : Map (BitVec 384) :=
  slots.filterMap (fun p => let v := p.2 &&& mget 0 ffs p.1; if v = 0 then none else some (p.1, v))

/-- The state of a tile that checkpoints and the hold bank hold (R389, R421). -/
def snapOf (x : Tile) (d : Nat) : Snap :=
  { slots := keepFfs x.bp.slots (ffSlots x d), emem := x.bp.emem, staging := x.bp.staging, outB := x.bp.outB,
    inRef := x.bp.inRef }

/-- The 114,784 bytes of a tile's state (R389). -/
def snapBytes (z : Snap) : List Byte :=
  (List.range 1024).flatMap (fun b => vecBytes (mget 0 z.slots b)) ++ memGets zeroes z.emem 0 65536 ++
    vecBytes z.staging ++ vecBytes z.outB ++ vecBytes z.inRef

/-- State taken back from a snapshot, non-flip-flop slots at 0 (R394, R422). -/
def restoreSnap (b : BpState) (z : Snap) : BpState :=
  { b with slots := z.slots, emem := z.emem, staging := z.staging, outB := z.outB, inRef := z.inRef }

/-! ### Casement views -/

/-- Image tile index of a tile (R381). -/
def imageIndex (k : Casement) (t : Nat) : Option Nat := (k.tileOf.find? (fun p => p.2 = t)).map (·.1)

/-- The tile of the casement whose cycle number stands for it: its lowest live tile. -/
def leadTile (k : Casement) (s : State) : Nat :=
  ((tilesOf k.region).find? (fun t => shutterCounts (getTile s t))).getD 0

/-- Cycle number of a casement. -/
def caseCycle (k : Casement) (s : State) : Nat := (getTile s (leadTile k s)).cyc.cycle.toNat

/-- What the journal records of a casement: image tile index and tile; a duplex pair once, under its lower index,
from its reference tile or the one that is live (R360, R381, R390). -/
def jnlUnits (k : Casement) (s : State) : List (Nat × Nat) :=
  k.tileOf.filterMap (fun p =>
    if !shutterCounts (getTile s p.2) || !k.region.getLsbD p.2 then none
    else
      match partnerOf s p.2 with
      | some m => match imageIndex k m with
        | some j =>
          if !shutterCounts (getTile s m) then some (min p.1 j, p.2) else if j < p.1 then none else some p
        | none => some p
      | none =>
        match (roleOf s p.2).bind (fun r => mfind k.lost r) with
        | some former => some (min p.1 ((imageIndex k former).getD p.1), p.2)
        | none => some p)

/-! ### Records (R382 to R387) -/

/-- A record: type, casement, length in units, low cycle bits, and the data padded to a whole unit (R382). -/
def jnlBytes (type c cycle : Nat) (body : List Byte) : List Byte :=
  let b := padTo ((body.length + 7) / 8 * 8) body
  leBytes 1 type ++ leBytes 1 c ++ leBytes 2 (1 + b.length / 8) ++ leBytes 4 cycle ++ b

/-- Bytes of the window. -/
def windowSize : Nat := 2 ^ 26

/-- Bytes not yet exported (R386). -/
def jnlUnexported (j : Journal) : Nat := (j.head - j.export_).toNat

/-- A byte string fits: modes 1 and 2 never overwrite unexported bytes (R386, R387). -/
def jnlFits (j : Journal) (n : Nat) : Bool := j.mode == 0 || decide (jnlUnexported j + n ≤ windowSize)

/-- Bytes written at head, at their places in the ring. -/
def windowPut (w : List Host.Cell) (off : Nat) : List Byte → List Host.Cell
  | [] => w
  | b :: r => windowPut (memPut zeroes w (off % windowSize) b) (off + 1) r

/-- The engine stops: every journalled casement loses its cycles from the first that is not closed on (R387). -/
def jnlStop (s : State) : State :=
  let s1 := modJnl s (fun j => { j with stopped := true })
  { s1 with cases := mmap (fun _ k =>
      if k.jnl.on && k.jnl.gapFrom.isNone
      then { k with jnl := { k.jnl with gapFrom := some (BitVec.ofNat 64 k.chan.closeDone) } } else k) s1.cases }

/-- Bytes appended to the journal, or the engine stopped where they do not fit (R387). -/
def jnlAppend (s : State) (bytes : List Byte) : State :=
  if s.jnl.stopped then s
  else if jnlFits s.jnl bytes.length then
    modJnl s (fun j => { j with window := windowPut j.window j.head.toNat bytes,
                                head := j.head + BitVec.ofNat 64 bytes.length })
  else jnlStop s

/-- A SYNC record (R383, R384). -/
def jnlSync (s : State) (c cycle : Nat) : State :=
  modJnlCase (jnlAppend s (jnlBytes 0x01 c cycle (leBytes 8 cycle ++ leBytes 8 s.dev.now.toNat))) c
    (fun n => { n with syncHi := some (BitVec.ofNat 32 (cycle / 2 ^ 32)) })

/-- A SYNC where bits [63:32] of the cycle differ from the last one's (R384). -/
def jnlNeedSync (s : State) (c cycle : Nat) : State := match getCase s c with
  | some k => if k.jnl.syncHi == some (BitVec.ofNat 32 (cycle / 2 ^ 32)) then s else jnlSync s c cycle
  | none => s

/-- A record of a casement, with the SYNC that R384 asks for. -/
def jnlRecord (s : State) (c type cycle : Nat) (body : List Byte) : State :=
  jnlAppend (jnlNeedSync s c cycle) (jnlBytes type c cycle body)

/-- The casement is journalled (R380); an isolated one is not (R393). -/
def jnlOn (k : Casement) : Bool := k.jnl.on && !k.isolated

/-- Word w of a boundary vector. -/
def vecWord (v : BitVec 256) (w : Nat) : Nat := bitsOf v.toNat (32 * w) 32

/-- Data of a BOUNDARY or OUTPUT record: tile index, word mask, XOR words (R383, R385). -/
def vecRecord (idx : Nat) (ref v : BitVec 256) : List Byte :=
  let ws := (List.range 8).filter (fun w => vecWord (ref ^^^ v) w != 0)
  leBytes 1 idx ++ leBytes 1 (ws.foldl (fun m w => m + 2 ^ w) 0) ++ leBytes 6 0 ++
    ws.flatMap (fun w => leBytes 4 (vecWord (ref ^^^ v) w))

/-- Input records of a release. At cycle 0 and at a resumption a record is written for every tile (R385). -/
def jnlInputs (s : State) (c cycle : Nat) (all : Bool) : State := match getCase s c with
  | none => s
  | some k => (jnlUnits k s).foldl (fun s u =>
      let b := (getTile s u.2).bp
      if all || b.inB != b.inRef then
        let s1 := jnlRecord s c 0x04 cycle (vecRecord u.1 b.inRef b.inB)
        let s2 := modBp s1 u.2 (fun y => { y with inRef := y.inB })
        match partnerOf s2 u.2 with
        | some m => modBp s2 m (fun y => { y with inRef := b.inB })
        | none => s2
      else s) s

/-- Output records of a close; `all` as for the inputs. -/
def jnlOutputs (s : State) (c cycle : Nat) (all : Bool) : State := match getCase s c with
  | none => s
  | some k => (jnlUnits k s).foldl (fun s u =>
      let b := (getTile s u.2).bp
      if all || b.outB != b.outRef then
        let s1 := jnlRecord s c 0x05 cycle (vecRecord u.1 b.outRef b.outB)
        let s2 := modBp s1 u.2 (fun y => { y with outRef := y.outB })
        match partnerOf s2 u.2 with
        | some m => modBp s2 m (fun y => { y with outRef := b.outB })
        | none => s2
      else s) s

/-- Digest records of a close. -/
def jnlDigests (s : State) (c cycle : Nat) : State := match getCase s c with
  | none => s
  | some k => (jnlUnits k s).foldl (fun s u =>
      jnlRecord s c 0x09 cycle (leBytes 1 u.1 ++ leBytes 7 0 ++ leBytes 8 (getTile s u.2).bp.handed.toNat)) s

/-- Both reference vectors of a casement's tiles at zero (R385). -/
def jnlZeroRefs (s : State) (k : Casement) : State :=
  modTiles s (tilesOf k.region) (fun _ x => { x with bp := { x.bp with inRef := 0, outRef := 0 } })

/-- The oldest held offset (R386). -/
def jnlOldest (j : Journal) : Nat := if j.head.toNat < windowSize then 0 else j.head.toNat - windowSize

/-- n bytes of the journal from an offset. -/
def jnlGet (j : Journal) (off n : Nat) : List Byte :=
  (List.range n).map (fun i => memGet zeroes j.window ((off + i) % windowSize))

/-! ### Checkpoints (R389 to R391) -/

/-- The drain of a checkpoint ends abandoned: CKPT_END marked, JNL_CKPT_ABANDONED, and the descriptor that asked
completes with ABORTED_RESET (R391, R398). -/
def abandonCkpt (s : State) (c : Nat) : State := match getCase s c with
  | none => s
  | some k => match k.jnl.drain with
    | none => s
    | some (n, num, q) =>
      let s1 := jnlRecord s c 0x0C n.toNat (leBytes 4 num ++ leBytes 4 1)
      let s2 := modJnlCase (modJnl s1 (fun j => { j with abandoned := bump j.abandoned })) c
        (fun j => { j with drain := none })
      let s3 := modTiles s2 (tilesOf k.region) (fun _ x => { x with bp := { x.bp with ckptBank := none } })
      let s4 := post s3 0xA04 3 c 0 num
      match q with
      | some q => complete q .abortedReset 0 s4
      | none => s4

/-- At the close signal of cycle n - 1 it is settled whether the lintel takes checkpoint n; one that is due while a drain
is unfinished is skipped (R390, R391). -/
def decideCkpt (s : State) (c n : Nat) : State := match getCase s c with
  | none => s
  | some k =>
    let due := k.jnl.ckptL != 0 && n % 2 ^ k.jnl.ckptL == 0
    if !jnlOn k || k.jnl.gapFrom.isSome || !(due || k.jnl.asked.isSome) then s
    else if k.jnl.drain.isSome then
      (if due then post (modJnl s (fun j => { j with skipped := bump j.skipped })) 0xA03 3 c 0 n else s)
    else modJnlCase s c (fun j => { j with taking := true })

/-- Checkpoint n begins: SYNC, CKPT_BEGIN, and its drain is under way (R384, R390). -/
def beginCkpt (s : State) (c n : Nat) : State := match getCase s c with
  | none => s
  | some k =>
    if !k.jnl.taking then s
    else
      let s1 := jnlAppend (jnlSync s c n) (jnlBytes 0x0A c n
        (leBytes 8 n ++ leBytes 4 k.jnl.number ++ leBytes 1 (jnlUnits k s).length ++ leBytes 3 0))
      modJnlCase s1 c (fun j => { j with
        drain := some (BitVec.ofNat 64 n, k.jnl.number, k.jnl.asked), asked := none, number := k.jnl.number + 1,
        taking := false })

/-- A casement resumes after a gap at the release of a cycle: SYNC, GAP, references at zero, JNL_GAP; a drain that
the stop cut is abandoned (R387). -/
def resumeGap (s : State) (c cycle : Nat) : State := match getCase s c with
  | none => s
  | some k => match k.jnl.gapFrom with
    | none => s
    | some g =>
      if s.jnl.stopped && s.jnl.mode != 0 && jnlUnexported s.jnl + 2 ^ 23 > windowSize then s
      else
        let s1 := modJnl s (fun j => { j with stopped := false, gaps := bump j.gaps })
        let lost := cycle - g.toNat
        let s2 := jnlAppend (jnlSync (modJnlCase s1 c (fun n => { n with gapFrom := none, full := true })) c cycle)
          (jnlBytes 0x0D c cycle (leBytes 8 g.toNat ++ leBytes 8 lost))
        abandonCkpt (post (jnlZeroRefs s2 k) 0xA01 3 c 0 lost) c

/-- LOAD record of a start-up (R383). -/
def jnlLoadRecord (s : State) (c : Nat) : State := match getCase s c with
  | none => s
  | some k => if !jnlOn k then s else
      jnlRecord (jnlSync s c 0) c 0x02 0 (padTo 16 (k.digest.take 16) ++ leBytes 1 k.tileOf.length ++ leBytes 7 0 ++
        leBytes 12 k.imageRegion.toNat)

/-- RESET record of a CASEMENT reset (R383). -/
def jnlResetRecord (s : State) (c last : Nat) : State := match getCase s c with
  | none => s
  | some k => if !jnlOn k then s else jnlRecord (jnlSync s c 0) c 0x03 0 (leBytes 8 last)

end Sys2Proof.Machine
end

