-- ==== Sys2Proof/Machine/BpExec.lean ====
section
/-! DEFINITION. One programme step of a tile: operand reads, results, side operations, the tile exchange, the
memory ports, the digest and the bundles (spec/02_boolean_processors.md R26 to R49, R361, R73 to R81). -/

namespace Sys2Proof.Machine

/-- Value-file entry e of member m of cluster c at a step (R34). Entries 500 to 511 are reserved, and the loader
keeps them out of every programme (R32). -/
def valueEntry (x : Tile) (c m e : Nat) : Bool :=
  if e < 384 then (mget 0 x.bp.slots (32 * c + m)).getLsbD e
  else if e < 416 then x.bp.clusterLane.getLsbD (32 * c + (e - 384))
  else if e < 448 then x.bp.tileLane.getLsbD (32 * c + (e - 416))
  else if e < 480 then x.bp.importLane.getLsbD (32 * c + (e - 448))
  else if e < 496 then x.bp.inB.getLsbD (16 * (c % 16) + (e - 480))
  else if e = 497 then true
  else if e = 498 then x.cyc.cycle.getLsbD 0
  else if e = 499 then x.bp.portRead.getLsbD (32 * c + m)
  else false

/-- A function dictionary entry (R33). -/
def dictEntry (x : Tile) (f : Nat) : Nat := cfgRead x 0x03 (2 * f) 2

/-- The result of BP 32c + m for an instruction word (R26). -/
def bpResult (x : Tile) (b w : Nat) : Bool :=
  let v := fun lo => (valueEntry x (b / 32) (b % 32) (recBits w lo 9)).toNat
  bitAt (dictEntry x (recBits w 52 12)) (8 * v 16 + 4 * v 25 + 2 * v 34 + v 43)

/-- BP indices. -/
def allBps : List Nat := List.range 1024

/-- The words and results of a step, by BP index; all are read before any is written (R27). -/
def stepResults (x : Tile) (st : Nat) : List (Nat × Nat × Bool) :=
  allBps.map (fun b => let w := insWord x b st; (b, w, bpResult x b w))

/-- The exchange word of cluster c at a step (R37). -/
def exchWord (x : Tile) (c st : Nat) : Nat := cfgRead x 0x02 (8 * (1024 * c + st)) 8

/-- The 256 exchange wires of a step (R38). -/
def exchWires (x : Tile) (st : Nat) (rs : List (Nat × Nat × Bool)) : BitVec 256 :=
  (List.range 256).foldl (fun v n =>
    let c := n / 8
    let src := recBits (exchWord x c st) (5 * (n % 8)) 5
    match rs[32 * c + src]? with
    | some (_, w, r) => setBit v n (bitAt w 4 && r)
    | none => v) 0

/-- The tile-lane deliveries that the wires of a step offer (R37, R38). -/
def laneDeliveries (x : Tile) (st : Nat) (wires : BitVec 256) : BitVec 1024 :=
  (List.range 1024).foldl (fun v n =>
    let oct := recBits (exchWord x (n / 32) st) (40 + 5 * (n % 32 / 8)) 5
    setBit v n (wires.getLsbD (8 * oct + n % 8))) 0

/-- OPX of a word (R31). -/
def insOpx (w : Nat) : Nat := recBits w 0 4

/-- A memory access that a step issues: cluster, block, word, whether it writes, data (R44). -/
structure Access32 where
  cluster : Nat
  block : Nat
  word : Nat
  write : Bool
  data : Nat
  deriving DecidableEq, Repr

/-- The accesses of a step, with the port registers as they stood before it (R43, R44). A WRITE_IF with result 0
writes nothing. -/
def stepAccesses (x : Tile) (st : Nat) (rs : List (Nat × Nat × Bool)) : List Access32 :=
  rs.filterMap (fun p =>
    let c := p.1 / 32
    let op := insOpx p.2.1
    let a : Access32 :=
      { cluster := c, block := recBits (exchWord x c st) 60 3, word := bitsOf x.bp.portAddr.toNat (32 * c) 11,
        write := op == 4, data := bitsOf x.bp.portData.toNat (32 * c) 32 }
    if op = 3 || (op = 4 && p.2.2) then some a else none)

/-- A word of emulated memory (R48). -/
def ememWord (m : List Host.Cell) (block word : Nat) : Nat := leNat (memGets zeroes m (8192 * block + 4 * word) 4)

def ememPut (m : List Host.Cell) (block word v : Nat) : List Host.Cell :=
  memPuts zeroes m (8192 * block + 4 * word) (leBytes 4 v)

/-- The bytes that a step adds to the state digest (R361): flip-flop writes in BP order, then memory writes in
ascending block order. -/
def digestBytes (rs : List (Nat × Nat × Bool)) (accs : List Access32) : List Byte :=
  (rs.filterMap (fun p => if insKeep p.2.1 && insDst p.2.1 < 384 then some (BitVec.ofNat 8 p.2.2.toNat) else none)) ++
  (List.range 8).flatMap (fun b => (accs.filter (fun a => a.write && a.block = b)).flatMap (fun a =>
    leBytes 1 b ++ [0] ++ leBytes 2 a.word ++ leBytes 4 a.data))

/-- One BP's writes at the end of a step: slot, cluster lane, port registers, staging bit (R26, R31). -/
def applyResult (b : BpState) (p : Nat × Nat × Bool) : BpState :=
  let n := p.1
  let w := p.2.1
  let r := p.2.2
  let b1 := if insDst w < 384 then { b with slots := mset b.slots n (setBit (mget 0 b.slots n) (insDst w) r) } else b
  let b2 := if bitAt w 5 then { b1 with clusterLane := setBit b1.clusterLane n r } else b1
  match insOpx w with
  | 1 => { b2 with portAddr := setBit b2.portAddr n r }
  | 2 => { b2 with portData := setBit b2.portData n r }
  | 5 => { b2 with staging := setBit b2.staging (8 * (n / 32) + n % 8) r }
  | _ => b2

/-- The export step word of a step (R73). -/
def exportWord (x : Tile) (st : Nat) : Nat := cfgRead x 0x07 (8 * st) 8

/-- Octets that a step appends to a bundle, ascending (R73). -/
def capOctets (w : Nat) (wires : BitVec 256) : List Byte :=
  ((List.range 32).filter (fun n => bitAt w n)).map (fun n => BitVec.ofNat 8 (bitsOf wires.toNat (8 * n) 8))

/-- The bundle that a step with SEND closes (R74, R77). -/
def bundlePacket (s : State) (t e : Nat) (octets : List Byte) : Packet :=
  let x := getTile s t
  let ent := cfgRead x 0x08 (4 * e) 4
  let bank := tileBank s t
  let role := roleByte s t
  mkPacket 0x01 x.net.vc0Epoch 0 (rtTenure (roleEntry bank role)) role (rtTenure (roleEntry bank (recBits ent 0 8)))
    (recBits ent 0 8)
    (leBytes 1 (recBits ent 8 7) ++ leBytes 1 t ++ leBytes 2 octets.length ++ leBytes 4 (x.cyc.cycle.toNat % 2 ^ 32) ++ octets)

/-- Read data that appears at a step (R45). -/
def readsDue (b : BpState) (st : Nat) : BpState :=
  let due := b.reads.filter (fun r => r.1 = st)
  { b with reads := b.reads.filter (fun r => r.1 != st),
           portRead := due.foldl (fun v r =>
             (v &&& ~~~ (BitVec.ofNat 1024 (0xFFFFFFFF * 2 ^ (32 * r.2.1)))) |||
               BitVec.ofNat 1024 (r.2.2.toNat * 2 ^ (32 * r.2.1))) b.portRead }

/-- The state digest is formed: by each tile of a duplex pair, and by every tile of a journalled casement with
digests enabled (R361, R383). -/
def formsDigest (s : State) (t : Nat) : Bool :=
  (partnerOf s t).isSome || (match caseOfTile s t with
    | some p => p.2.jnl.on && p.2.jnl.digestL.isSome || p.2.replay.isSome
    | none => false)

/-- What the tile lane holds next, and what is on its way to it, once a step has offered its deliveries (R38). Deliveries
offered at the last two steps of a cycle of d steps are discarded: nothing lands after step d - 1. -/
def laneNext (b : BpState) (d st : Nat) (offered : BitVec 1024) : BitVec 1024 × BitVec 1024 :=
  (if st + 1 < d then b.tileNext else b.tileLane, if st + 2 < d then offered else 0)

/-- Schedule depth of the casement of a tile, 0 for none. -/
def tileDepth (s : State) (t : Nat) : Nat := match caseOfTile s t with
  | some p => p.2.depth
  | none => 0

/-- The Boolean processors of a tile execute a step (R26 to R49, R73). -/
def execStep (s : State) (t : Nat) : State :=
  let x0 := getTile s t
  let st := x0.cyc.step
  let x := { x0 with bp := readsDue x0.bp st }
  let rs := stepResults x st
  let accs := stepAccesses x st rs
  let wires := exchWires x st rs
  let b1 := rs.foldl applyResult x.bp
  let rd := (accs.filter (fun a => !a.write)).map (fun a =>
    (st + 4, a.cluster, BitVec.ofNat 32 (ememWord x.bp.emem a.block a.word)))
  let em := (accs.filter (·.write)).foldl (fun m a => ememPut m a.block a.word a.data) b1.emem
  let dg := if formsDigest s t then crc64 b1.digest (digestBytes rs accs) else b1.digest
  let ew := exportWord x st
  let e := recBits ew 33 7
  let octs := mget [] b1.assembly e ++ capOctets ew wires
  let sends := bitAt ew 32
  let asm_ := if sends then mdel b1.assembly e else if recBits ew 0 32 = 0 then b1.assembly else mset b1.assembly e octs
  let lane := laneNext x.bp (tileDepth s t) st (laneDeliveries x st wires)
  let b2 := { b1 with reads := b1.reads ++ rd, emem := em, digest := dg, assembly := asm_,
                      tileLane := lane.1, tileNext := lane.2 }
  let s1 := setTile s t { x with bp := b2, cyc := { x.cyc with step := st + 1 } }
  if sends then modNet s1 t (fun r => { r with injectQ := r.injectQ ++ [bundlePacket s t e octs] }) else s1

/-! ### Imports (R75 to R81) -/

/-- Import-table entry e (R75). -/
def importWord (x : Tile) (e : Nat) : Nat := cfgRead x 0x09 (8 * e) 8

/-- Import entries due at a step. -/
def dueImports (x : Tile) (st : Nat) : List Nat :=
  (List.range 128).filter (fun e => let w := importWord x e; bitAt w 49 && recBits w 0 10 = st)

/-- The buffered bundle of an import entry for the cycle in progress. -/
def bundleFor (x : Tile) (e : Nat) : Option Bundle :=
  x.cyc.bundles.find? (fun b => b.imp = e && b.tag.toNat = x.cyc.cycle.toNat % 2 ^ 32)

/-- The first import entry due at a step whose bundle has not arrived (R81). -/
def importAwaited (x : Tile) (st : Nat) : Option Nat := (dueImports x st).find? (fun e => (bundleFor x e).isNone)

/-- One octet lands where the landing map puts it (R76). -/
def landOctet (x : Tile) (base j : Nat) (o : Byte) (lane : BitVec 1024) : BitVec 1024 :=
  let m := cfgRead x 0x0A (base + j) 1
  if bitAt m 7 then
    (List.range 8).foldl (fun v i => setBit v (32 * recBits m 2 5 + 8 * recBits m 0 2 + i) (o.getLsbD i)) lane
  else lane

/-- A bundle lands at its DUE_STEP (R80). -/
def landBundle (x : Tile) (e : Nat) : Tile :=
  match bundleFor x e with
  | none => x
  | some b =>
    let base := recBits (importWord x e) 27 14
    let lane := (b.data.zipIdx).foldl (fun v p => landOctet x base p.2 p.1 v) x.bp.importLane
    { x with bp := { x.bp with importLane := lane },
             cyc := { x.cyc with bundles := x.cyc.bundles.erase b, landed := e :: x.cyc.landed } }

/-- Every bundle due at a step lands, in ascending entry order. The spec gives no order for two bundles due at one step
that land in one import-lane entry: DESIGN CHOICE, the higher import-table entry stands (assumption 23). -/
def landDue (x : Tile) (st : Nat) : Tile := (dueImports x st).foldl landBundle x

end Sys2Proof.Machine
end

