-- ==== Sys2Proof/Machine/Exports.lean ====
section
/-! DEFINITION. Accumulator exports of the bulk stream port: the shared-exponent word and the export queue
(spec/07_converters.md R191 to R193, spec/12_bulk_stream.md R314, R315). -/

namespace Sys2Proof.Machine

/-- Bits that a number needs. -/
def bitLen (v : Nat) : Nat := if v = 0 then 0 else Nat.log2 v + 1

/-- The shared-exponent word of a value (R191, R192). -/
def sewWord (v : Nat) (full excl : Bool) : Nat :=
  let e := if v < 2 ^ 24 then 0 else bitLen v - 24
  v / 2 ^ e + 2 ^ 24 * e + 2 ^ 30 * excl.toNat + 2 ^ 31 * full.toNat

/-- The four words of an export record, from the snapshot set (R193). -/
def exportRecord (x : Tile) (a : Nat) : List Byte :=
  let c := (getAcc x a).snap
  let k := (getTrk x a).snap
  let w := fun v => leBytes 4 (sewWord v c.full (c.excl != 0))
  w c.sum.toNat ++ w c.sumsq.toNat ++ w c.count.toNat ++ leBytes 4 (k.min.toNat + 2 ^ 16 * k.max.toNat)

/-- Entries that the port queues (R315). -/
def exportRoom : Nat := 4096

/-- The 32 bytes of an export entry (R314). -/
def exportBytes (s : State) (t a : Nat) (time : Time) : List Byte :=
  leBytes 1 t ++ leBytes 1 a ++ leBytes 1 (caseByte s t) ++ leBytes 1 s.bsp.lost.toNat ++
    leBytes 4 s.bsp.exportSeq.toNat ++ leBytes 8 time.toNat ++ exportRecord (getTile s t) a

/-- An export entry queued, or discarded where the queue is full; an overrun is posted once per episode, and the
entry queued after it carries LOST (R314, R315). -/
def queueExport (s : State) (t a : Nat) (time : Time) : State :=
  let b := s.bsp
  if b.exports.length < exportRoom then
    modBsp s (fun b => { b with exports := b.exports ++ [{ bytes := exportBytes s t a time }],
                                exportSeq := b.exportSeq + 1, lost := false })
  else
    let s1 := modBsp s (fun b => { b with exportSeq := b.exportSeq + 1, lost := true, discarded := bump b.discarded })
    if b.lost then s1 else post s1 0x505 5 t a 0

end Sys2Proof.Machine
end

