-- ==== Sys2Proof/Machine/CvOps.lean ====
section
/-! DEFINITION. The converter's records, codes, accumulators, boundaries and triggers, and the calibration block
(spec/07_converters.md, spec/09_calibration.md). -/

namespace Sys2Proof.Machine

/-! ### Records (R173, R174, R180, R188) -/

/-- Shadow CV_CTRL. -/
def cvShadowCtrl (x : Tile) : Nat := cfgRead x 0x21 0 4

/-- Shadow sequence entry e. -/
def cvShadowEntry (x : Tile) (e : Nat) : Nat := cfgRead x 0x21 (8 + 8 * e) 8

/-- Entry of injected slot j. -/
def cvSlotEntry (x : Tile) (j : Nat) : Nat := cfgRead x 0x21 (136 + 16 * j) 8

/-- Sequence entry e in use. -/
def cvEntry (x : Tile) (e : Nat) : Nat := (mget 0 x.cv.table e).toNat

def entSelP (r : Nat) : Nat := recBits r 0 6
def entSelN (r : Nat) : Nat := recBits r 6 6
def entTs (r : Nat) : Nat := recBits r 12 10
def entGain (r : Nat) : Nat := recBits r 22 3
def entAcc (r : Nat) : Nat := recBits r 25 5
def entAccEn (r : Nat) : Bool := bitAt r 30
def entTrk (r : Nat) : Nat := recBits r 31 5
def entTrkEn (r : Nat) : Bool := bitAt r 36
def entPolicy (r : Nat) : Nat := recBits r 37 2
def entSlice (r : Nat) : Nat := recBits r 39 2
def entRepeat (r : Nat) : Nat := recBits r 41 16 + 1
def entLast (r : Nat) : Bool := bitAt r 57

/-- CV_MODE in use. -/
def cvMode (x : Tile) : Nat := recBits x.cv.ctrl.toNat 0 2

/-- A reserved code in CV_CTRL (R173). -/
def badCvCtrl (w : Nat) : Bool :=
  recBits w 0 2 == 3 || recBits w 2 2 == 3 || decide (17 ≤ recBits w 4 5) || recBits w 9 7 != 0

/-- An entry that R177 refuses. -/
def badCvEntry (r : Nat) : Bool :=
  decide (50 ≤ entSelP r) || (decide (32 ≤ entSelN r) && entSelN r != 63) || decide (5 ≤ entGain r) ||
  entPolicy r == 3 || recBits r 58 6 != 0 || decide (entTs r < 4) ||
  (entPolicy r == 1 && (entTs r + 16) % 4 != 0) || (decide (entSelN r < 32) && decide (32 ≤ entSelP r))

/-- The sequence's last entry: the first with LAST = 1, else 15 (R175). -/
def lastEntry (tbl : Nat → Nat) : Nat := ((List.range 16).find? (fun e => entLast (tbl e))).getD 15

/-- A sequence table that R177 refuses. -/
def badCvTable (tbl : Nat → Nat) : Bool := (List.range (lastEntry tbl + 1)).any (fun e => badCvEntry (tbl e))

/-- The reserved bits of an entry hold something (R8, R174). -/
def dirtyEntry (r : Nat) : Bool := recBits r 58 6 != 0

/-- A slot that R8, R177 or R180 refuses: beyond its reserved bits, its entry is checked where INJ_EN = 1. -/
def badCvSlot (entry source : Nat) : Bool :=
  dirtyEntry entry || recBits source 13 3 != 0 || badSrcCode (recBits source 0 12) || (bitAt source 12 && badCvEntry entry)

/-- A reserved field of an accumulator record (R188). -/
def badAccRecord (r : Nat) : Bool :=
  bitAt r 15 || recBits r 30 2 != 0 || recBits r 56 8 != 0 || badSrcCode (recBits r 0 12)

/-! ### Codes (R169, R222) -/

/-- A number clamped to the 14-bit codes. -/
def clampCode (v : Int) : Nat := if v < 0 then 0 else min 16383 v.toNat

/-- The raw code of an entry from its inputs and the reference, all in one unit (R169). The spec states no result
for a reference of 0 V: an open code. -/
def rawCode (fresh r : Nat) (vP vN : Int) (vRef : Nat) : Nat :=
  let g : Int := (2 ^ entGain r : Nat)
  if vRef = 0 then Config.freeNat fresh 20 % 16384
  else if entSelN r = 63 then clampCode (16384 * g * vP / vRef)
  else clampCode (8192 + (8192 * g * (vP - vN)) / vRef)

/-- The level of an input code of INSEL_P or INSEL_N (R169). CMPDAC_n gives V_TH of comparator n (R201). -/
def inputLevel (s : State) (w : AnalogIn) (t code : Nat) : Int :=
  if code < 32 then netLevel s w t code
  else if code < 48 then
    let r := cmpWord (getTile s t) (code - 32) 0
    (recBits r 4 10 * refVolts w (refOfCode (recBits r 2 2)) / 1024 : Nat)
  else if code = 48 then refVolts w .vmid
  else 0

/-- A two's-complement field of n bits. -/
def signed (n v : Nat) : Int := if v < 2 ^ (n - 1) then v else (v : Int) - 2 ^ n

/-- The corrected code of a raw code under a coefficient word (R221, R222). -/
def correctedCode (word raw : Nat) : Nat :=
  let ofs := signed 16 (recBits word 0 16)
  let gq : Int := 65536 + signed 16 (recBits word 16 16)
  clampCode (((16 * (raw : Int) - ofs) * gq + 2 ^ 19) / 2 ^ 20)

/-! ### Accumulators and trackers (R185 to R187) -/

/-- One result merged into a live accumulator; a full one takes none (R185, R186). -/
def accMerge (a : AccSet) (c : Nat) : AccSet :=
  if a.full then a
  else { a with sum := a.sum + BitVec.ofNat 40 c,
                sumsq := a.sumsq + BitVec.ofNat 56 (c * c),
                count := a.count + 1,
                full := a.count.toNat + 1 == 16777215 }

/-- One result merged into a live tracker (R185). -/
def trkMerge (k : TrkSet) (c : Nat) : TrkSet :=
  { k with min := BitVec.ofNat 14 (min k.min.toNat c),
           max := BitVec.ofNat 14 (max k.max.toNat c),
           count := BitVec.ofNat 24 (satAdd 16777215 k.count.toNat 1) }

def setAcc (x : Tile) (n : Nat) (a : Acc) : Tile := { x with cv := { x.cv with accs := mset x.cv.accs n a } }
def setTrk (x : Tile) (n : Nat) (k : Trk) : Tile := { x with cv := { x.cv with trks := mset x.cv.trks n k } }

/-- A saturating 32-bit count one higher. -/
def inc32 (n : BitVec 32) : BitVec 32 := BitVec.ofNat 32 (bump n.toNat)

/-- A settled result merges into the targets of its entry; CV_ACC_FULL is posted as an accumulator fills (R186). -/
def mergeResult (s : State) (t r c : Nat) : State :=
  let n := entAcc r
  let x := getTile s t
  let a := getAcc x n
  let live := accMerge a.live c
  let x1 := if entAccEn r then setAcc x n { a with live := live } else x
  let k := getTrk x1 (entTrk r)
  let x2 := if entTrkEn r then setTrk x1 (entTrk r) { k with live := trkMerge k.live c } else x1
  let s1 := setTile s t x2
  if entAccEn r && live.full && !a.live.full then postTile s1 t 0x844 1 t n 0 else s1

/-- An unsettled result: counted as excluded, and posted at the first of an episode (R183). `src` is the entry, or
16 + slot. -/
def excludeResult (s : State) (t r src : Nat) : State :=
  let x := getTile s t
  let n := entAcc r
  let a := getAcc x n
  let x1 := if entAccEn r
    then setAcc x n { a with live := { a.live with excl := BitVec.ofNat 16 (satAdd 65535 a.live.excl.toNat 1) } }
    else { x with cv := { x.cv with exclTotal := inc32 x.cv.exclTotal } }
  let s1 := setTile s t { x1 with cv := { x1.cv with unsettled := true } }
  if x.cv.unsettled then s1 else postTile s1 t 0x845 1 t (recBits x.cv.ctrl.toNat 2 2) src

/-- A snap of accumulator n: both live sets move to the snapshot sets with a device time and are emptied; snaps asked for at
one edge are a single one (R187). An exported accumulator queues an entry (R314). -/
def snapAcc (s : State) (t n : Nat) (time : Time) : State :=
  let x := getTile s t
  if (getAcc x n).snapAt == some time then s
  else
    let a := (getAcc x n).live
    let k := (getTrk x n).live
    let x1 := setTrk (setAcc x n { live := AccSet.empty, snap := { a with time := time }, snapAt := some time })
      n { live := TrkSet.empty, snap := { k with time := time } }
    let s1 := setTile s t x1
    if x.cv.expMask.getLsbD n then queueExport s1 t n time else s1

/-! ### The calibration block (R230, R231) -/

/-- The block in use; factory values where no copy serves (R232). -/
def calBlock (x : Tile) : CalBlock :=
  if x.cal.factory then CalBlock.factory else if x.cal.useB then x.cal.copyB.block else x.cal.copyA.block

/-- Offset trim of cell k in a block: the field value, else the factory value (R219). -/
def blockCellTrim (t : Nat) (b : CalBlock) (k : Nat) : BitVec 8 := mget (Config.factoryTrim t k) b.cells k

/-- Offset trim of slice k in a block. -/
def blockSliceTrim (t : Nat) (b : CalBlock) (k : Nat) : BitVec 8 := mget (Config.factoryTrim t (8 + k)) b.slices k

/-- Bytes 0-435 of a block (R230). -/
def blockBody (t : Nat) (b : CalBlock) : List Byte :=
  leBytes 4 b.seqNo.toNat ++
  (List.range 20).flatMap (fun k => leBytes 4 (mget 0 b.sets k).toNat) ++
  (List.range 8).map (blockCellTrim t b) ++ (List.range 4).map (blockSliceTrim t b) ++
  leBytes 2 b.ofsLimit.toNat ++ leBytes 2 b.gainLimit.toNat ++
  (List.range 28).flatMap (fun k => leBytes 4 (mget 0 b.counts k)) ++
  (List.range 28).flatMap (fun k => leBytes 8 (mget 0 b.times k).toNat)

/-- The 512 bytes of a block (R230). -/
def blockBytes (t : Nat) (b : CalBlock) (mark : Byte) : List Byte :=
  let body := blockBody t b
  padTo 512 (body ++ leBytes 4 (crc32 body).toNat ++ [mark])

/-- A commit begins: the block that it will write, with the next sequence number (R231). -/
def beginCommit (q : Req) (what : CommitFor) (b : CalBlock) (x : Tile) : Tile :=
  let c : CalCommit := { req := q, what := what, block := { b with seqNo := (calBlock x).seqNo + 1 }, steps := 0 }
  { x with cal := { x.cal with commit := some c } }

/-- Step n of a commit in the copy that it writes: the mark goes to 0x00, the bytes are written, then the CRC, then the mark
0xA5 (R231). -/
def commitStep (b : CalBlock) (n : Nat) (c : CalCopy) : CalCopy := match n with
  | 0 => { c with mark := 0 }
  | 1 => { c with block := b, crcGood := false }
  | 2 => { c with crcGood := true }
  | _ => { c with mark := 0xA5 }

/-- The next step of a commit: it writes the copy that is not in use, which after the last step is the one in use (R231). -/
def commitNext (k : CalState) (c : CalCommit) : CalState :=
  let toA := k.factory || k.useB
  let k1 := if toA then { k with copyA := commitStep c.block c.steps k.copyA } else { k with copyB := commitStep c.block c.steps k.copyB }
  if c.steps < 3 then { k1 with commit := some { c with steps := c.steps + 1 } }
  else { k1 with commit := none, useB := !toA, factory := false }

/-- A calibration counted and dated in a block: index 0-19 a set, 20-27 a cell (R230). -/
def calDated (b : CalBlock) (k : Nat) (now : Time) : CalBlock :=
  { b with counts := mset b.counts k (bump (mget 0 b.counts k)), times := mset b.times k now }

/-- A copy that may be used (R232). -/
def copyGood (c : CalCopy) : Bool := c.mark == 0xA5 && c.crcGood

/-- The choice of a copy at a power-up of the AN domain, with its repair and event (R232). -/
def calSelect (s : State) (t : Nat) : State :=
  let x := getTile s t
  let a := x.cal.copyA
  let b := x.cal.copyB
  let use := fun (c : CalState) => modCal s t (fun _ => c)
  match copyGood a, copyGood b with
  | true, true => use { x.cal with useB := decide (a.block.seqNo.toNat < b.block.seqNo.toNat), factory := false }
  | true, false =>
    if b.mark == 0xA5 then postTile (use { x.cal with copyB := a, useB := false, factory := false }) t 0x904 1 t 1 0
    else postTile (use { x.cal with useB := false, factory := false }) t 0x903 1 t 1 0
  | false, true =>
    if a.mark == 0xA5 then postTile (use { x.cal with copyA := b, useB := true, factory := false }) t 0x904 1 t 0 0
    else postTile (use { x.cal with useB := true, factory := false }) t 0x903 1 t 0 0
  | false, false => postTile (use { x.cal with factory := true }) t 0x905 1 t 0 0

/-- Coefficients and trims of the block in use taken into the converter and cells (R164 step 2). -/
def calInUse (s : State) (t : Nat) : State :=
  modTile s t (fun x => { x with cal := { x.cal with
    coef := (calBlock x).sets, trims := (calBlock x).slices, cellTrims := (calBlock x).cells, pending := [] } })

/-! ### Conversions (R171, R175, R181, R223) -/

/-- The reference in use (R173). -/
def cvRefLevel (x : Tile) : RefLevel := refOfCode (recBits x.cv.ctrl.toNat 2 2)

/-- The reference's flag, as the converter sees it (R183). -/
def cvRefOk (x : Tile) : Bool := refFlag x (cvRefLevel x) && !x.cv.refNew

/-- A capture is under way, no longer waiting. -/
def capturing (x : Tile) : Bool := match x.cv.capture with
  | some c => !c.waiting
  | none => false

def sliceFree (x : Tile) (k : Nat) : Bool := !x.cv.inFlight.any (fun c => c.slice = k)

/-- The slice that conversion i of an entry issues on, when it is free (R171, R175). -/
def sliceFor (x : Tile) (r i : Nat) : Option Nat :=
  match entPolicy r with
  | 0 => if sliceFree x (entSlice r) then some (entSlice r) else none
  | 1 => if i = 0 then (if (List.range 4).all (sliceFree x) then some 0 else none)
    else if sliceFree x (i % 4) then some (i % 4) else none
  | _ => (List.range 4).find? (sliceFree x)

/-- The record of a calibration conversion of VMID, or of a cell's output: Ts = 44 (R227, R228). -/
def calRecord (selP selN gain slice_ : Nat) : Nat :=
  selP + 2 ^ 6 * selN + 2 ^ 12 * 44 + 2 ^ 22 * gain + 2 ^ 39 * slice_

/-- The record that a capture converts now. -/
def captureRecord (c : Capture) : Nat := match c.kind with
  | .system _ _ => c.entry.toNat
  | .cellZero _ _ _ _ => calRecord 0 0 4 0
  | .slices k _ => calRecord 48 63 0 k

/-- A capture asks for another conversion (R223). -/
def captureWants (x : Tile) (c : Capture) : Bool :=
  let open_ := (x.cv.inFlight.filter (fun v => v.for_ == .capture)).length
  !c.waiting && !c.done && decide (c.got + open_ < c.want) && decide (c.tried < 2 * c.want)

/-- The conversion to issue next: what it serves, its record and its number. -/
def nextConv (x : Tile) : Option (ConvFor × Nat × Nat) :=
  if capturing x then
    match x.cv.capture with
    | some c => if captureWants x c then some (.capture, captureRecord c, c.tried) else none
    | none => none
  else match x.cv.inj with
    | some (j, i) => if i < entRepeat (cvSlotEntry x j) then some (.slot j, cvSlotEntry x j, i) else none
    | none =>
      if x.cv.capture.isSome then none
      else match x.cv.seq with
        | some (e, i) => if e < 16 then some (.entry e, cvEntry x e, i) else none
        | none => none

/-- Progress after a conversion has issued. -/
def countIssue (x : Tile) : ConvFor → CvState
  | .capture => { x.cv with capture := x.cv.capture.map (fun c => { c with tried := c.tried + 1 }) }
  | .slot _ => { x.cv with inj := x.cv.inj.map (fun p => (p.1, p.2 + 1)) }
  | .entry e =>
    let r := cvEntry x e
    { x.cv with seq := x.cv.seq.map (fun p =>
        if p.2 + 1 < entRepeat r then (e, p.2 + 1) else if entLast r || e == 15 then (16, 0) else (e + 1, 0)) }

/-! ### Boundaries and the order of activities (R175, R176, R181, R182, R226) -/

/-- The set-ups waiting in the shadows are copied into use in one SAR cycle (R176). Where CV_REF changes, the flag of the new
reference is clear, so a conversion of an injected slot that is in progress is not settled (R183). -/
def copyShadow (s : State) (t : Nat) : State :=
  let x := getTile s t
  if x.cv.shadowWait.isEmpty then s
  else
    let e := edgeTime s
    let ctrl := cvShadowCtrl x
    let s1 := modCv e.2 t (fun v => { v with
      ctrl := BitVec.ofNat 32 ctrl,
      table := (List.range 16).map (fun k => (k, BitVec.ofNat 64 (cvShadowEntry x k))),
      refNew := v.refNew || recBits v.ctrl.toNat 2 2 != recBits ctrl 2 2,
      inFlight := if recBits v.ctrl.toNat 2 2 = recBits ctrl 2 2 then v.inFlight else v.inFlight.map (fun c => { c with refOk := false }),
      delay := v.delay && recBits ctrl 0 2 == 1,
      latched := v.latched && recBits ctrl 0 2 == 1,
      shadowWait := [] })
    x.cv.shadowWait.foldl (fun s q => complete q .ok e.1.toNat s) s1

/-- Result of a calibration at its apply: the word of a set, or the four slice trims (R233). -/
def applyResultOf (t : Nat) (x : Tile) (k : Nat) : Nat :=
  if k < 20 then (mget 0 (calBlock x).sets k).toNat
  else leNat ((List.range 4).map (blockSliceTrim t (calBlock x)))

/-- One committed calibration takes effect (R226). -/
def applyOne (t : Nat) (s : State) (p : Nat × Req) : State :=
  let x := getTile s t
  let b := calBlock x
  let s1 := modCal s t (fun c => if p.1 < 20 then { c with coef := mset c.coef p.1 (mget 0 b.sets p.1) }
    else { c with trims := b.slices })
  let n := if p.1 < 20 then mget 0 b.counts p.1 else 0
  complete p.2 .ok (applyResultOf t x p.1) (postTile s1 t 0x901 1 t p.1 n)

/-- Committed coefficients and trims take effect at a boundary (R226). -/
def applyPending (s : State) (t : Nat) : State :=
  let ps := (getTile s t).cal.pending
  ps.foldl (applyOne t) (modCal s t (fun c => { c with pending := [] }))

/-- The lowest-numbered pending slot starts, or a waiting capture begins once nothing converts (R181, R182). -/
def startInserted (s : State) (t : Nat) : State :=
  let v := (getTile s t).cv
  if v.inj.isSome || capturing (getTile s t) then s
  else match (List.range 4).find? (fun j => v.injPending.getLsbD j) with
    | some j => modCv s t (fun v => { v with inj := some (j, 0),
                                             injPending := setBit v.injPending j false,
                                             injExcluded := false })
    | none =>
      if v.capture.isSome && v.inFlight.isEmpty
      then modCv s t (fun v => { v with capture := v.capture.map (fun c => { c with waiting := false }) })
      else s

/-- At a boundary, the shadows and calibrations take effect and the next sequence or delay starts (R176, R178). -/
def atBoundary (s : State) (t : Nat) : State :=
  if (getTile s t).cv.seq.isSome then s
  else
    let s1 := applyPending (copyShadow s t) t
    let x := getTile s1 t
    if x.cv.capture.isSome then s1
    else if cvMode x = 2 then modCv s1 t (fun v => { v with seq := some (0, 0) })
    else if cvMode x = 1 && x.cv.latched && !x.cv.delay
    then modCv s1 t (fun v => { v with delay := true, latched := false })
    else s1

/-- The converter goes on to whatever may run now. -/
def cvPump (s : State) (t : Nat) : State :=
  if (getTile s t).cv.on then atBoundary (startInserted s t) t else s

/-- A commit has ended: sets and slice trims wait for a boundary, a cell's trim and the limits are done (R226, R227, R233). -/
def commitDone (s : State) (t : Nat) (c : CalCommit) : State := match c.what with
  | .apply k => cvPump (modCal s t (fun y => { y with pending := y.pending ++ [(k, c.req)] })) t
  | .cell k => complete c.req .ok (mget 0 c.block.cells k).toNat (postTile s t 0x901 1 t (32 + k) (mget 0 c.block.counts (20 + k)))
  | .limits => complete c.req .ok 0 s

/-- A commit goes on by a step. -/
def commitTick (s : State) (t : Nat) : State := match (getTile s t).cal.commit with
  | none => s
  | some c =>
    let s1 := modCal s t (fun k => commitNext k c)
    if c.steps < 3 then s1 else commitDone s1 t c

/-- Every commit under way goes on by a step. -/
def commitTicks (s : State) : State :=
  ((s.tiles.filter (fun p => p.2.cal.commit.isSome)).map (·.1)).foldl commitTick s

/-! ### Triggers and requests (R179, R182) -/

/-- How a trigger was handled. -/
inductive TrigOutcome where
  | taken | discarded | missed
  deriving DecidableEq, Repr

/-- A trigger arrives (R179). -/
def cvTrigger (s : State) (t : Nat) : TrigOutcome × State :=
  let x := getTile s t
  if !x.cv.on || cvMode x != 1 then (.taken, s)
  else if capturing x then
    let n := inc32 x.cv.missed
    (.missed, postTile (modCv s t (fun v => { v with missed := n })) t 0x843 1 t 0 n.toNat)
  else if x.cv.latched then
    let n := inc32 x.cv.overruns
    (.discarded, postTile (modCv s t (fun v => { v with overruns := n })) t 0x841 1 t 0 n.toNat)
  else if x.cv.delay || x.cv.seq.isSome then (.taken, modCv s t (fun v => { v with latched := true }))
  else (.taken, modCv s t (fun v => { v with delay := true }))

/-- A trigger or PWM period event of a timer reaches the converter (R173). -/
def timerTrigger (s : State) (t k : Nat) (period : Bool) : State :=
  let trig := recBits (getTile s t).cv.ctrl.toNat 4 5
  if trig = (if period then 9 else 1) + k then (cvTrigger s t).2 else s

/-- A request for injected slot j: true when it is discarded (R182). -/
def cvRequest (s : State) (t j : Nat) : Bool × State :=
  let x := getTile s t
  let running := match x.cv.inj with | some p => p.1 == j | none => false
  if x.cv.injPending.getLsbD j || running then
    let n := inc32 (mget 0 x.cv.injOverruns j)
    (true, postTile (modCv s t (fun v => { v with injOverruns := mset v.injOverruns j n })) t 0x842 1 t j n.toNat)
  else (false, cvPump (modCv s t (fun v => { v with injPending := setBit v.injPending j true })) t)

end Sys2Proof.Machine
end

