-- ==== Sys2Proof/Machine/ReplayOps.lean ====
section
/-! DEFINITION. Reading a journal back: records, checkpoints, the comparison of a replayed cycle, and the report
(spec/15_replay.md R382 to R395). -/

namespace Sys2Proof.Machine

/-- Bytes of the journal that a replay reads. -/
def replayBytes (s : State) (r : Replay) (off n : Nat) : List Byte := match r.host with
  | some l => slice l off n
  | none => jnlGet s.jnl off n

/-- Length of that journal, or its head. -/
def replayLimit (s : State) (r : Replay) : Nat := match r.host with
  | some l => l.length
  | none => s.jnl.head.toNat

/-- What stands at the offset of a replay. -/
inductive JRec where
  /-- type, casement, low cycle bits, length in bytes -/
  | rec_ (ty c lo len : Nat)
  | ended | lost | bad
  deriving DecidableEq, Repr

/-- A number of bytes in whole units. -/
def units8 (n : Nat) : Nat := (n + 7) / 8 * 8

/-- The length in bytes that a record of a type has by its first fields, from byte 8 on (R383). -/
def recLength (ty : Nat) (b : List Byte) : Nat := match ty with
  | 0x02 => 48
  | 0x04 | 0x05 => 16 + units8 (4 * ((List.range 8).filter (fun w => bitAt (byteAt b 1) w)).length)
  | 0x06 => 16 + units8 ((byteAt b 3 * fieldAt b 6 2 + 7) / 8)
  | 0x07 | 0x08 => 16 + units8 (4 * fieldAt b 6 2)
  | 0x0B => 16 + 114784
  | 0x03 | 0x0C | 0x0E => 16
  | _ => 24

/-- Fields of a record that R383 leaves reserved, or that name no place of a tile. -/
def badRecord (ty : Nat) (b : List Byte) : Bool := match ty with
  | 0x02 => fieldAt b 17 7 != 0
  | 0x04 | 0x05 => fieldAt b 2 6 != 0
  | 0x06 => decide (31 < byteAt b 1) || decide (32 < byteAt b 2 + byteAt b 3) || decide (384 < fieldAt b 4 2 + fieldAt b 6 2)
  | 0x07 | 0x08 => decide (7 < byteAt b 1) || fieldAt b 2 2 != 0 || decide (2048 < fieldAt b 4 2 + fieldAt b 6 2)
  | 0x09 => fieldAt b 1 7 != 0
  | 0x0A => fieldAt b 13 3 != 0
  | 0x0B => fieldAt b 1 3 != 0
  | 0x0C => decide (1 < byteAt b 4) || fieldAt b 5 3 != 0
  | _ => false

/-- The record at the offset (R382, R394). -/
def nextRec (s : State) (r : Replay) : JRec :=
  let at_ := r.offset
  let top := replayLimit s r
  if r.host.isNone && decide (at_ < jnlOldest s.jnl) then .lost
  else if top < at_ + 8 then (if !r.req.io.srcOk && r.host.isSome then .lost else if r.host.isSome && at_ < top then .bad else .ended)
  else
    let h := replayBytes s r at_ 8
    let ty := byteAt h 0
    let len := 8 * fieldAt h 2 2
    if ty = 0 || 14 < ty || 31 < byteAt h 1 || len = 0 then .bad
    else if top < at_ + len then (if !r.req.io.srcOk && r.host.isSome then .lost else .bad)
    else
      let b := replayBytes s r (at_ + 8) (min 40 (len - 8))
      if len != recLength ty b || badRecord ty b then .bad else .rec_ ty (byteAt h 1) (fieldAt h 4 4) len

/-- The bytes of the record at the offset, from its byte 8 on. -/
def recBody (s : State) (r : Replay) (len : Nat) : List Byte := replayBytes s r (r.offset + 8) (len - 8)

/-- Cycle of a record, by the last SYNC (R384). -/
def recCycle (r : Replay) (lo : Nat) : Nat := r.hi * 2 ^ 32 + lo

def skipRec (r : Replay) (len : Nat) : Replay := { r with offset := r.offset + len }

/-- SYNC at the offset (R383). -/
def takeSync (s : State) (r : Replay) (len : Nat) : Replay :=
  { r with offset := r.offset + len, hi := fieldAt (recBody s r len) 0 8 / 2 ^ 32 }

/-- Units of 8 bytes from the offset on: more than the records there. -/
def replayFuel (s : State) (r : Replay) : Nat := (replayLimit s r - r.offset) / 8 + 1

/-- Whether the journal holds cycle n whole; if not, the kind with which the replay ends before it (R394). `closing` says that a
record of the cycle's close has been met: the release is whole, and what follows is for the close to find. -/
def cycleScan : Nat → State → Replay → Nat → Bool → Bool → Option Nat
  | 0, _, _, _, _, _ => some 0
  | f + 1, s, r, n, seen, closing => match nextRec s r with
    | .ended => if seen then none else some 0
    | .lost => if closing then none else some 5
    | .bad => if closing then none else some 6
    | .rec_ ty c lo len =>
      if c != r.jcase then cycleScan f s (skipRec r len) n seen closing
      else if ty = 0x01 then cycleScan f s (takeSync s r len) n seen closing
      else if ty = 0x0D then (if n < fieldAt (recBody s r len) 0 8 then none else some 4)
      else if ty = 0x02 || ty = 0x03 then (if seen then none else some 0)
      else if ty = 0x0B || ty = 0x0C || recCycle r lo < n then cycleScan f s (skipRec r len) n seen closing
      else if n < recCycle r lo then none
      else cycleScan f s (skipRec r len) n true (closing || ty = 0x05 || ty = 0x09)

/-- The scan from the offset on. -/
def cycleAhead (f : Nat) (s : State) (r : Replay) (n : Nat) : Option Nat := cycleScan f s r n false false

/-! ### Checkpoint state (R389) -/

/-- The cells of a byte string that are not 0. -/
def cellsOf (l : List Byte) : List Host.Cell :=
  l.zipIdx.filterMap (fun p => if p.1 = 0 then none else some (p.2, p.1))

/-- The state that 114,784 bytes hold. -/
def parseSnap (l : List Byte) : Snap :=
  { slots := (List.range 1024).filterMap (fun b =>
      let v := BitVec.ofNat 384 (fieldAt l (48 * b) 48)
      if v = 0 then none else some (b, v)),
    emem := cellsOf (slice l 49152 65536), staging := BitVec.ofNat 256 (fieldAt l 114688 32),
    outB := BitVec.ofNat 256 (fieldAt l 114720 32), inRef := BitVec.ofNat 256 (fieldAt l 114752 32) }

/-- The first of n units whose values differ, with both values. -/
def firstDiff (n : Nat) (a b : Nat → Nat) : Option (Nat × Nat × Nat) :=
  ((List.range n).find? (fun i => a i != b i)).map (fun i => (i, a i, b i))

/-- The report of a checkpoint that differs: the lowest flip-flop slot, else the lowest memory word (R395). -/
def snapReport (idx tile n off : Nat) (j z : Snap) : Report :=
  let base : Report := { kind := 3, index := idx, tile := tile, cluster := 0xFF, member := 0xFF, cycle := n, word := 0,
                         journalled := 0, replayed := 0, offset := off }
  let slot := fun (w : Snap) (i : Nat) => ((mget 0 w.slots (i / 384)).getLsbD (i % 384)).toNat
  let word := fun (w : Snap) (i : Nat) => leNat (memGets zeroes w.emem (4 * i) 4)
  match firstDiff 393216 (slot j) (slot z) with
  | some (i, a, b) => { base with cluster := i / 384 / 32, member := i / 384 % 32, word := i % 384, journalled := a, replayed := b }
  | none => match firstDiff 16384 (word j) (word z) with
    | some (i, a, b) => { base with cluster := i / 2048, word := i % 2048, journalled := a, replayed := b }
    | none => base

/-- CKPT_DATA at the offset compared with the state kept for it (R394). -/
def takeCkptData (s : State) (k : Casement) (r : Replay) (len n : Nat) : Replay :=
  let b := recBody s r len
  let idx := byteAt b 0
  let r1 := skipRec r len
  match mfind r.snaps idx with
  | some z =>
    let j := parseSnap (b.drop 8)
    if fieldAt b 4 4 = r.ckpt && j != z && r.found.isNone
    then { r1 with found := some (snapReport idx (mget 0xFF k.tileOf idx) n r.offset j z) } else r1
  | none => r1

/-! ### Releases and closes (R394) -/

/-- A vector after the XOR words of a BOUNDARY or OUTPUT record (R383, R385). -/
def xorWords (v : BitVec 256) (body : List Byte) : BitVec 256 :=
  let ws := (List.range 8).filter (fun w => bitAt (byteAt body 1) w)
  (ws.zipIdx).foldl (fun v p => v ^^^ BitVec.ofNat 256 (fieldAt body (8 + 4 * p.2) 4 * 2 ^ (32 * p.1))) v

/-- Records of the release of cycle n taken: inputs, deliveries and pokes; checkpoint data on the way. -/
def takeRelease : Nat → State → Casement → Replay → Nat → Replay
  | 0, _, _, r, _ => r
  | f + 1, s, k, r, n => match nextRec s r with
    | .rec_ ty c lo len =>
      if c != r.jcase then takeRelease f s k (skipRec r len) n
      else if ty = 0x01 then takeRelease f s k (takeSync s r len) n
      else if ty = 0x0B then takeRelease f s k (takeCkptData s k r len n) n
      else if ty = 0x0C || (ty = 0x0A && recCycle r lo ≤ n) then takeRelease f s k (skipRec r len) n
      else if recCycle r lo != n || ty = 0x05 || ty = 0x09 || ty = 0x0D || ty = 0x02 || ty = 0x03 || ty = 0x0A then r
      else
        let b := recBody s r len
        let r1 := skipRec r len
        if ty = 0x04 then takeRelease f s k { r1 with ins := mset r1.ins (byteAt b 0) (xorWords (mget 0 r1.ins (byteAt b 0)) b) } n
        else if ty = 0x0E then takeRelease f s k r1 n
        else takeRelease f s k { r1 with now := r1.now ++ [(ty, b)] } n
    | _ => r

/-- The state of a casement's tiles, by image tile index. -/
def snapsOf (s : State) (k : Casement) : Map Snap := (jnlUnits k s).map (fun u => (u.1, snapOf (getTile s u.2) k.depth))

/-- Records of the close of cycle n taken: outputs, digests, checkpoints. -/
def takeClose : Nat → State → Casement → Replay → Nat → Replay
  | 0, _, _, r, _ => r
  | f + 1, s, k, r, n => match nextRec s r with
    | .rec_ ty c lo len =>
      let b := recBody s r len
      let r1 := skipRec r len
      if c != r.jcase then takeClose f s k r1 n
      else if ty = 0x01 then takeClose f s k (takeSync s r len) n
      else if ty = 0x0B then takeClose f s k (takeCkptData s k r len n) n
      else if ty = 0x0A && recCycle r lo = n + 1 then
        takeClose f s k { r1 with ckpt := fieldAt b 8 4, snaps := snapsOf s k } n
      else if ty = 0x0C then takeClose f s k r1 n
      else if recCycle r lo != n then r
      else if ty = 0x05 then
        takeClose f s k { r1 with outs := mset r1.outs (byteAt b 0) (xorWords (mget 0 r1.outs (byteAt b 0)) b) } n
      else if ty = 0x09 then
        let idx := byteAt b 0
        let t := mget 0xFF k.tileOf idx
        let d := (getTile s t).bp.handed.toNat
        let p : Report := { kind := 2, index := idx, tile := t, cluster := 0xFF, member := 0xFF, cycle := n, word := 0,
                            journalled := fieldAt b 8 8, replayed := d, offset := r.offset }
        if fieldAt b 8 8 != d && r.found.isNone then takeClose f s k { r1 with found := some p } n
        else takeClose f s k r1 n
      else if ty = 0x0E then takeClose f s k r1 n
      else r
    | _ => r

/-- The first tile whose outputs differ from the journal's (R394 kind 1). -/
def outputReport (s : State) (k : Casement) (r : Replay) (n : Nat) : Option Report :=
  (jnlUnits k s).findSome? (fun u =>
    let a := mget 0 r.outs u.1
    let b := (getTile s u.2).bp.outB
    match firstDiff 8 (vecWord a) (vecWord b) with
    | some (w, x, y) => some { kind := 1, index := u.1, tile := u.2, cluster := 0xFF, member := 0xFF, cycle := n, word := w,
                               journalled := x, replayed := y, offset := r.offset }
    | none => none)

/-- A report without a divergence. -/
def plainReport (kind n off : Nat) : Report :=
  { kind := kind, index := 0xFFFF, tile := 0xFF, cluster := 0xFF, member := 0xFF, cycle := n, word := 0, journalled := 0,
    replayed := 0, offset := off }

/-- The 64 bytes of a report (R395). -/
def reportBytes (p : Report) : List Byte :=
  layout 64 [(0, 1, p.kind), (2, 2, p.index), (4, 1, p.tile), (5, 1, p.cluster), (6, 1, p.member), (8, 8, p.cycle),
    (16, 2, p.word), (24, 8, p.journalled), (32, 8, p.replayed), (40, 8, p.offset)]

/-- Status of a report kind (R394). -/
def reportStatus (kind : Nat) : Status := if kind ≤ 3 then .ok else if kind = 6 then .badField else .overrun

/-- The replay ends after cycle `last`: the casement is paused, the report is written and posted, and the descriptor
completes (R394, R395, R398, R399). -/
def replayEnd (s : State) (c : Nat) (r : Replay) (last : Nat) (p : Report) : State :=
  let s1 := modCase s c (fun k => { k with replay := none, st := .paused })
  let s2 := if 1 ≤ p.kind && p.kind ≤ 3 then post s1 0xA05 3 c p.kind p.index else post s1 0xA06 3 c p.kind 0
  if r.req.io.bufOk then
    complete r.req (reportStatus p.kind) (p.kind + 256 * (last % 2 ^ 56)) (hostWrite s2 r.req.host r.req.d.addrB (reportBytes p))
  else dmaFail 0x97 r.req s2

/-- After the close of cycle n: outputs, digests and checkpoints are compared, and the replay goes on to n + 1 or ends. -/
def replayClose (s : State) (c n : Nat) : State := match getCase s c with
  | none => s
  | some k => match k.replay with
    | none => s
    | some r =>
      let r1 := takeClose (replayFuel s r) s k r n
      let stop := fun (kind : Nat) => replayEnd s c r1 n (plainReport kind n r1.offset)
      match nextRec s r1, outputReport s k r1 n, r1.found with
      | .bad, _, _ => stop 6
      | .lost, _, _ => stop 5
      | _, some p, _ | _, none, some p => replayEnd s c r1 n p
      | _, none, none =>
        if r1.endCycle.toNat ≤ n then stop 0
        else match cycleAhead (replayFuel s r1) s r1 (n + 1) with
          | some kind => stop kind
          | none => modCase s c (fun k => { k with replay := some r1 })

/-- The records of a release taken into the replay before its first tile releases. -/
def replayRelease (s : State) (c n : Nat) : State := match getCase s c with
  | none => s
  | some k => match k.replay with
    | none => s
    | some r => modCase s c (fun k0 => { k0 with replay := some (takeRelease (replayFuel s r) s k { r with now := [] } n) })

/-- Bit k of a byte string. -/
def bitOf (l : List Byte) (k : Nat) : Bool := bitAt (byteAt l (k / 8)) (k % 8)

/-- Flip-flops written from a poke's data, in the layout of R61. -/
def pokeSlots (m : Map (BitVec 384)) (cluster first count entry entries : Nat) (data : List Byte) : Map (BitVec 384) :=
  (List.range count).foldl (fun m i =>
    let b := 32 * cluster + first + i
    mset m b ((List.range entries).foldl (fun v j => setBit v (entry + j) (bitOf data (i * entries + j))) (mget 0 m b))) m

/-- A journalled delivery or poke applied to a tile (R383, R394). -/
def replayApply (x : Tile) (idx : Nat) (p : Nat × List Byte) : Tile :=
  let b := p.2
  if byteAt b 0 != idx then x
  else if p.1 = 0x06 then
    let m := pokeSlots x.bp.slots (byteAt b 1 % 32) (byteAt b 2) (byteAt b 3) (fieldAt b 4 2) (fieldAt b 6 2) (b.drop 8)
    { x with bp := { x.bp with slots := m } }
  else
    let m := memPuts zeroes x.bp.emem (8192 * (byteAt b 1 % 8) + 4 * fieldAt b 4 2) (slice b 8 (4 * fieldAt b 6 2))
    { x with bp := { x.bp with emem := m } }

end Sys2Proof.Machine
end

