-- ==== Sys2Proof/Machine/Fabric.lean ====
section
/-! DEFINITION. Fabric clocks and fabric RAM (spec/04_logic_fabric.md): clock edges, port A and port B accesses,
and the descriptors 0x78 to 0x7B. -/

namespace Sys2Proof.Machine

/-- The record of fabric clock k (R114, R326). -/
def fclkWord (x : Tile) (k : Nat) : Nat := cfgRead x 0x13 (4 * k) 4

/-- Frequency of a fabric clock in kHz from MUL and DIV. Where it is no whole number of kHz the spec does not say how it is
reported (R126, R127): DESIGN CHOICE, rounded down (assumption 33). -/
def fclkKHz (mul div_ : Nat) : Nat := 25000 * mul / div_

/-- MUL or DIV outside R114, or a frequency above 500 MHz. -/
def badFclk (mul div_ : Nat) : Bool :=
  decide (mul < 4) || decide (40 < mul) || decide (div_ < 1) || decide (64 < div_) || decide (20 * div_ < mul)

/-- Upset bytes of a block: the stored content and a parity that fails (R118). -/
def ramUpset (y : FabState) (q : Nat) (ups : List (Nat × Byte)) : FabState :=
  ups.foldl (fun y u => { y with ram := memPut zeroes y.ram (4096 * q + u.1 % 4096) u.2,
                                 badParity := (4096 * q + u.1 % 4096) :: y.badParity }) y

/-- FABRIC_RAM_PORT_A_ACCESS: the access of port A of block q that its last active edge with CE = 1 began (R115, R116).
`upsets` are stored bytes that fail parity; `meetsPortB` says that the last port B write of the row lies within 0.5 ns
(R117); `broken` says that a set-up or hold requirement was broken, and gives the other address between which the inputs
changed (R119). -/
def execFabricRamPortAAccess (t : TileId) (q : Fin 16) (upsets : List (Nat × Byte)) (meetsPortB : Bool)
    (broken : Option (Fin 32768)) (s : State) : Host.Outcome State Fault Refusal :=
  let s0 := modFab s t.val (fun y => ramUpset y q.val upsets)
  .next (match mfind (getTile s0 t.val).fab.portA q.val with
    | none => s0
    | some p =>
      let s1 := match broken with
        | none => portAAccess s0 t.val q.val p meetsPortB
        | some other => portABroken s0 t.val q.val p other.val
      settleFabric s0 (modFab s1 t.val (fun y => { y with portA := mdel y.portA q.val })))

/-- A fabric clock runs: enabled, after start-up step (a), not held by FABRIC_CLOCK and not gated by DOZE
(R114, R127, R418). -/
def fclkRuns (s : State) (t k : Nat) : Bool :=
  let x := getTile s t
  x.fab.clocksOn && bitAt (fclkWord x k) 16 && (mfind x.fab.clkHold k).isNone &&
    !dozed s t

/-- The frequency of clock j is a whole multiple of that of clock k (R114). -/
def fclkMultiple (x : Tile) (j k : Nat) : Bool :=
  let f := fun i => (recBits (fclkWord x i) 0 8, recBits (fclkWord x i) 8 8)
  (f j).1 * (f k).2 % ((f k).1 * (f j).2) == 0

/-- The running clocks that take an edge now: those named whose level is the other one, and with each that rises the clocks
of a whole multiple of its frequency, whose rising edges coincide (R114). -/
def edgeClocks (s : State) (t : Nat) (ks : BitVec 4) (rising : Bool) : List Nat :=
  let x := getTile s t
  let takes := fun k => fclkRuns s t k && x.fab.level.getLsbD k != rising
  (List.range 4).filter (fun j => takes j &&
    (ks.getLsbD j || rising && (List.range 4).any (fun k => ks.getLsbD k && takes k && fclkMultiple x j k)))

/-- FABRIC_CLOCK_EDGE: a rising or a falling edge of the fabric clocks `ks` of a tile. The flip-flops and the fabric RAM
blocks for which it is the active edge all sample the levels before it (R103, R104, R114 to R116); `broken` lists the
flip-flops 2c + k whose set-up or hold requirement is broken (R119). -/
def execFabricClockEdge (t : TileId) (ks : BitVec 4) (rising : Bool) (broken : List (Fin 2048)) (s : State) :
    Host.Outcome State Fault Refusal :=
  let es := edgeClocks s t.val ks rising
  .next (if es.isEmpty then s
    else
      let s1 := modFab s t.val (fun y => { y with level := es.foldl (fun l k => setBit l k rising) y.level })
      let s2 := clockCells s s1 t.val (fun v => es.contains (recBits v 136 3) && bitAt v 139 != rising) (broken.map (·.val))
      settleFabric s (clockRams s s2 t.val (fun _ w => es.contains (recBits w 3 3) && bitAt w 6 != rising)))

/-- A FABRIC_CLOCK begins: its clock is held low (R127). -/
def holdClock (s : State) (q : Req) : State :=
  modFab s (dByte q.d 28) (fun y => { y with clkHold := mset y.clkHold (dByte q.d 29) q, level := setBit y.level (dByte q.d 29) false })

/-- The hold ends: the clock takes its new MUL and DIV and the descriptor completes (R127). -/
def restartClock (s : State) (t k : Nat) : State :=
  match mfind (getTile s t).fab.clkHold k with
  | none => s
  | some q =>
    let mul := dByte q.d 30
    let div_ := dByte q.d 31
    let s1 := modTile s t (fun x =>
      let x1 := cfgWrite (cfgWrite x 0x13 (4 * k) 1 mul) 0x13 (4 * k + 1) 1 div_
      { x1 with fab := { x1.fab with clkHold := mdel x1.fab.clkHold k } })
    complete q .ok (fclkKHz mul div_) s1

/-- The next FABRIC_CLOCK of the tile begins (R127). -/
def nextClock (s : State) (t : Nat) : State :=
  match (getTile s t).fab.clkWait with
  | [] => s
  | q :: r => holdClock (modFab s t (fun y => { y with clkWait := r })) q

/-- FABRIC_CLOCK_RESTART: the end of a clock's hold (R127). -/
def execFabricClockRestart (t : TileId) (k : Fin 4) (s : State) : Host.Outcome State Fault Refusal :=
  .next (if (mfind (getTile s t.val).fab.clkHold k.val).isSome then nextClock (restartClock s t.val k.val) t.val else s)

/-! ### Descriptors -/

def shRam : Shape := shapeOf caseBits true false true [(28, 2), (32, 4)]
def shFabStatus : Shape := (shapeOf caseBits true false true [(28, 1)]).withBits [(29, 1)]
def shFabClock : Shape := shapeOf caseBits false false false [(28, 4)]

/-- Field checks of FABRIC_RAM_READ and FABRIC_RAM_WRITE (R125). -/
def badRamFields (q : Req) : Bool :=
  let first := dW16 q.d 32
  let n := dW16 q.d 34
  dirty shRam q || decide (15 < dByte q.d 29) || decide (4095 < first) || decide (n < 1) || decide (4096 < first + n) ||
    short q n

/-- One row of a port B access: the part of it that the access still has to move, as one unit (R117, R118, R125). -/
def portBRow (s : State) (t : Nat) (p : PortB) : State × PortB :=
  let y := (getTile s t).fab
  let n := min p.left (4 - p.pos % 4)
  let row := 1024 * p.block + p.pos / 4
  let a := 4096 * p.block + p.pos
  let rest := { p with pos := p.pos + n, left := p.left - n }
  if p.write then
    (modFab s t (fun y => { y with
      ram := memPuts zeroes y.ram a (p.data.take n),
      lastRow := some (row, BitVec.ofNat 32 (leNat (memGets zeroes y.ram (4 * row) 4))),
      badParity := y.badParity.filter (fun b => b < a || a + n ≤ b) }), { rest with data := p.data.drop n })
  else
    (if (List.range 4).any (fun i => y.badParity.contains (4 * row + i)) then ramParityFail s t p.block (p.pos / 4) else s,
      { rest with data := p.data ++ memGets zeroes y.ram a n })

/-- A port B access has moved its last row: its descriptor completes with the byte count (R125). -/
def portBDone (s : State) (p : PortB) : State := match p.req with
  | none => s
  | some q =>
    if p.write then complete q .ok (dW16 q.d 34) s
    else if q.io.bufOk then complete q .ok (dW16 q.d 34) (hostWrite s q.host q.d.addrA p.data)
    else dmaFail 0x78 q s

/-- The oldest port B access of a tile moves one row. -/
def portBStep (s : State) (t : Nat) : State := match (getTile s t).fab.portB with
  | [] => s
  | p :: r =>
    let m := portBRow s t p
    if m.2.left = 0 then portBDone (modFab m.1 t (fun y => { y with portB := r })) m.2
    else modFab m.1 t (fun y => { y with portB := m.2 :: r })

/-- A port B access begins, with its first row at once, or waits for those before it. -/
def portBQueue (s : State) (t : Nat) (p : PortB) : State :=
  if p.left = 0 then portBDone s p
  else
    let s1 := modFab s t (fun y => { y with portB := y.portB ++ [p] })
    if (getTile s t).fab.portB.isEmpty then portBStep s1 t else s1

/-- Every port B access of a tile moves all its rows. -/
def portBAll (s : State) (t : Nat) : State :=
  (List.range ((getTile s t).fab.portB.foldl (fun n p => n + p.left) 0)).foldl (fun s _ => portBStep s t) s

/-- One row of the oldest port B access of every tile, as time passes (R125, assumption 4). -/
def portBTick (s : State) : State := (s.tiles.map (·.1)).foldl portBStep s

def fabricRamReadBody (q : Req) (s : State) : Reply × State :=
  checked (r59Tile q .peek s ++ [(badRamFields q, .badField)])
    (fun s => (.later, portBQueue s (dByte q.d 28)
      { req := some q, write := false, block := dByte q.d 29, pos := dW16 q.d 32, left := dW16 q.d 34, data := [] })) s

/-- FABRIC_RAM_READ: bytes of a block through port B, row by row (R117, R125). -/
def execFabricRamRead (q : Req) (s : State) : Host.Outcome State Fault Refusal :=
  .next (runDesc (.fabricRamRead q) 0x78 q (fabricRamReadBody q) s)

def fabricRamWriteBody (q : Req) (s : State) : Reply × State :=
  let n := dW16 q.d 34
  checked (r59Tile q .poke s ++ [(badRamFields q, .badField)])
    (fun s => if q.io.bufOk
      then (.later, portBQueue s (dByte q.d 28)
        { req := some q, write := true, block := dByte q.d 29, pos := dW16 q.d 32, left := n, data := padTo n (q.io.dataA.take n) })
      else (.dma, s)) s

/-- FABRIC_RAM_WRITE: bytes of a block through port B, row by row (R117, R125). -/
def execFabricRamWrite (q : Req) (s : State) : Host.Outcome State Fault Refusal :=
  .next (runDesc (.fabricRamWrite q) 0x79 q (fabricRamWriteBody q) s)

/-- The 64 bytes of FABRIC_STATUS (R126). While FABRIC_CLOCK holds a clock low the spec does not say which frequency it has:
DESIGN CHOICE, the one before the change (assumption 33). -/
def fabricStatusBytes (x : Tile) : List Byte :=
  let f := fun k => let w := fclkWord x k; if bitAt w 16 then fclkKHz (recBits w 0 8) (recBits w 8 8) else 0
  let en := (List.range 16).foldl (fun v q => v + 2 ^ q * (bitAt (ramWord x q) 7).toNat) 0
  layout 64 [(0, 4, f 0), (4, 4, f 1), (8, 4, f 2), (12, 4, f 3), (16, 4, x.fab.parityCount), (20, 4, x.fab.collisions),
    (24, 4, x.fab.scanPasses), (28, 4, x.fab.upsets), (32, 2, en)]

def fabricStatusBody (q : Req) (s : State) : Reply × State :=
  let t := dByte q.d 28
  checked (r59Tile q .peek s ++ [(dirty shFabStatus q || short q 64, .badField)])
    (fun s =>
      let r := replyCopy q (fabricStatusBytes (getTile s t)) 0 s
      if q.io.bufOk && bitAt (dByte q.d 29) 0 then
        (r.1, modFab r.2 t (fun y => { y with parityCount := 0, collisions := 0, scanPasses := 0, upsets := 0 }))
      else r) s

/-- FABRIC_STATUS: fabric clocks and counts, which it may clear (R126). -/
def execFabricStatus (q : Req) (s : State) : Host.Outcome State Fault Refusal :=
  .next (runDesc (.fabricStatus q) 0x7A q (fabricStatusBody q) s)

def fabricClockBody (q : Req) (s : State) : Reply × State :=
  let t := dByte q.d 28
  let k := dByte q.d 29
  let bad := dirty shFabClock q || decide (3 < k) || badFclk (dByte q.d 30) (dByte q.d 31) ||
    !bitAt (fclkWord (getTile s t) k) 16
  checked (r59Tile q .poke s ++ [(bad, .badField)])
    (fun s =>
      let s1 := markChanged s (dCase q.d).val
      if (getTile s1 t).fab.clkHold.isEmpty then (.later, holdClock s1 q)
      else (.later, modFab s1 t (fun y => { y with clkWait := y.clkWait ++ [q] }))) s

/-- FABRIC_CLOCK: a new frequency for one fabric clock, after a hold (R127). -/
def execFabricClock (q : Req) (s : State) : Host.Outcome State Fault Refusal :=
  .next (runDesc (.fabricClock q) 0x7B q (fabricClockBody q) s)

end Sys2Proof.Machine
end

