-- ==== Sys2Proof/Machine/BspOps.lean ====
section
/-! DEFINITION. Credits, control blocks and the delivery of decoded pattern frames
(spec/12_bulk_stream.md R303, R307 to R313). -/

namespace Sys2Proof.Machine

/-- A control block of a type with its field bytes 1-7 as a number (R303). -/
def ctlBlock (ty fields : Nat) : BitVec 64 := BitVec.ofNat 64 (ty + 256 * fields)

/-- A control block in line for the lanes. -/
def sendCtl (s : State) (b : BitVec 64) : State := modBsp s (fun x => { x with txQueue := x.txQueue ++ [{ sync := 2, bits := b }] })

def getStream (s : State) (k : Nat) : Stream := mget Stream.unbound s.bsp.streams k

def modStream (s : State) (k : Nat) (f : Stream → Stream) : State :=
  modBsp s (fun b => { b with streams := mset b.streams k (f (mget Stream.unbound b.streams k)) })

/-- Credits that the device grants at most (R307). -/
def creditTop (k : Nat) : Nat := if k = 12 then 64 else 32

/-- Credits that a payload uses. -/
def creditsOf (n : Nat) : Nat := (n + 255) / 256

/-- The target of a binding takes no frame now: its casement is isolated or its tile's shutter is not OPEN (R313,
R393). -/
def targetShut (s : State) (b : Bind) : Bool := match getCase s b.case_.val with
  | some k => k.isolated || takenOver s b.case_.val || caseShut k (some (servedBy s b.tile.val)) s
  | none => true

/-- The stream grants no credits: a decoded frame waits, or the target takes none (R312, R313). -/
def streamBlocked (s : State) (k : Nat) : Bool :=
  let x := getStream s k
  !x.ready.isEmpty || (match x.bind with | some b => targetShut s b | none => false)

/-- Credits granted up to the stream's limit with one CREDIT block (R307). -/
def topUp (s : State) (k : Nat) : State :=
  let x := getStream s k
  if !s.bsp.up || streamBlocked s k || creditTop k ≤ x.granted then s
  else sendCtl (modStream s k (fun x => { x with granted := creditTop k })) (ctlBlock 0x03 (k + 256 * (creditTop k - x.granted)))

/-- A refused frame: counted, posted, and the reference invalid (R311). -/
def refuseFrame (s : State) (k reason frame : Nat) : State :=
  post (modStream (modBsp s (fun b => { b with refused := bump b.refused })) k (fun x => { x with ref := none }))
    0x504 5 k reason frame

/-- Bytes in a tile's delivery buffer of 16 KiB. -/
def bufferUsed (y : CycState) : Nat := y.deliveries.foldl (fun n d => n + d.bytes.length) 0

/-- The tiles that a delivery reaches: the tile that serves the binding, and its live partner (R65). -/
def deliveryTiles (s : State) (t : Nat) : List Nat :=
  let u := servedBy s t
  match partnerOf s u with
  | some m => if (getTile s m).ctl.failSilent then [u] else [u, m]
  | none => [u]

/-- A delivery among others, in the order of decoding (R312). -/
def putInOrder (d : Delivery) : List Delivery → List Delivery
  | [] => [d]
  | e :: r => if d.order < e.order then d :: e :: r else e :: putInOrder d r

/-- A decoded frame delivered, none where it must wait (R312, R313). -/
def deliverFrame (s : State) (b : Bind) (d : Delivery) : Option State :=
  if targetShut s b then none
  else if b.fabric then some (portBQueue s b.tile.val
    { req := none, write := true, block := d.block, pos := d.first, left := d.bytes.length, data := d.bytes })
  else
    let ts := deliveryTiles s b.tile.val
    if ts.any (fun t => decide (16384 < bufferUsed (getTile s t).cyc + d.bytes.length)) then none
    else
      let due := ts.foldl (fun n t => max n (openRelease (getTile s t).cyc)) 0
      some (modTiles s ts (fun _ x => { x with cyc := { x.cyc with
        deliveries := putInOrder { d with due := due } x.cyc.deliveries } }))

/-- A waiting frame goes on, where no earlier one of its stream must wait; the streams that wait. -/
def flushFrame (a : State × List Nat) (d : Delivery) : State × List Nat :=
  if a.2.contains d.stream then a
  else match (getStream a.1 d.stream).bind.bind (fun b => deliverFrame a.1 b d) with
    | some s1 => (modStream s1 d.stream (fun x => { x with ready := x.ready.drop 1 }), a.2)
    | none => (a.1, d.stream :: a.2)

/-- Waiting frames of streams go on in the order of decoding, and credits are granted (R307, R312, R313). -/
def flushStreams (s : State) (ks : List Nat) : State :=
  let waiting := (ks.flatMap (fun k => (getStream s k).ready)).foldr putInOrder []
  ks.foldl topUp (waiting.foldl flushFrame (s, [])).1

/-- Streams bound to a casement. -/
def streamsOf (s : State) (c : Nat) : List Nat :=
  (s.bsp.streams.filter (fun p => match p.2.bind with | some b => b.case_.val == c | none => false)).map (·.1)

/-- Every stream of a casement goes on. -/
def flushCase (s : State) (c : Nat) : State := flushStreams s (streamsOf s c)

/-- The stream has a frame that waits, or credits to grant. -/
def streamStalls (p : Nat × Stream) : Bool := !p.2.ready.isEmpty || decide (p.2.granted < creditTop p.1)

/-- Streams whose target may take frames again go on (R312, R313). -/
def flushAll (s : State) : State :=
  if s.bsp.streams.any streamStalls then flushStreams s (s.bsp.streams.map (·.1)) else s

/-- Deliveries of a casement not yet applied are discarded and the references invalidated (R313, R357). -/
def dropDeliveries (s : State) (c : Nat) : State :=
  let s1 := match getCase s c with
    | some k => modTiles s (tilesOf k.region) (fun _ x => { x with cyc := { x.cyc with deliveries := [] } })
    | none => s
  (streamsOf s1 c).foldl (fun s k => modStream s k (fun x => { x with ready := [], ref := none })) s1

/-- Bindings of a casement clear; frames buffered for them are discarded and refused with reason 1 (R308, R313). -/
def unbindCase (s : State) (c : Nat) : State :=
  (streamsOf s c).foldl (fun s k =>
    let x := getStream s k
    let held := match x.bind with
      | some b => (getTile s (servedBy s b.tile.val)).cyc.deliveries.filter (fun d => d.stream = k)
      | none => []
    let s1 := (held ++ x.ready).foldl (fun s d => refuseFrame s k 1 d.frame) s
    let s2 := modStream s1 k (fun x => { x with bind := none, ready := [], ref := none })
    topUp { s2 with tiles := mmap (fun _ t => { t with cyc := { t.cyc with
        deliveries := t.cyc.deliveries.filter (fun d => d.stream != k) } }) s2.tiles } k) s

/-- The content of an emulated memory after a delivery (R312). -/
def applyDelivery (m : List Host.Cell) (d : Delivery) : List Host.Cell :=
  memPuts zeroes m (8192 * d.block + 4 * d.first) d.bytes

/-- What applying a delivery costs in lintel stall steps (R312). -/
def deliveryCost (d : Delivery) : Nat := 2 + d.bytes.length / 4

end Sys2Proof.Machine
end

