-- ==== Sys2Proof/Machine/CtOps.lean ====
section
/-! DEFINITION. Decisions, outputs and edges of comparators, wakes, and the running of timers
(spec/08_comparators_timers.md). -/

namespace Sys2Proof.Machine

/-! ### Records (R200, R211) -/

def cmpMode (x : Tile) (k : Nat) : Nat := recBits (cmpWord x k 0) 0 2
def cmpRef (x : Tile) (k : Nat) : Nat := recBits (cmpWord x k 0) 2 2
def cmpInsel (x : Tile) (k : Nat) : Nat := recBits (cmpWord x k 0) 16 6
def cmpInv (x : Tile) (k : Nat) : Bool := bitAt (cmpWord x k 0) 22
def cmpInit (x : Tile) (k : Nat) : Bool := bitAt (cmpWord x k 0) 23

/-- A comparator record with a reserved code (R200). -/
def badCmpRecord (w0 w1 : Nat) : Bool :=
  recBits w0 0 2 == 3 || recBits w0 2 2 == 3 || decide (38 ≤ recBits w0 16 6) || recBits w0 28 4 != 0 ||
  recBits w1 25 7 != 0 ||
  (recBits w0 0 2 == 2 && (decide (recBits w1 0 20 < 1) || decide (1000000 < recBits w1 0 20)))

/-- A timer record with a reserved code, for timer k (R211). -/
def badTmRecord (k w0 : Nat) : Bool :=
  decide (5 ≤ recBits w0 0 3) || recBits w0 12 20 != 0 ||
  ((recBits w0 0 3 == 2 || recBits w0 0 3 == 4) && recBits w0 4 5 == 24 + k)

/-! ### Comparators -/

def modCmp (s : State) (t k : Nat) (f : Cmp → Cmp) : State :=
  modCt s t (fun c => { c with cmps := mset c.cmps k (f (mget Cmp.cold c.cmps k)) })

/-- Hysteresis H in nV (R200). -/
def cmpHyst (x : Tile) (k : Nat) : Nat := match recBits (cmpWord x k 0) 14 2 with
  | 0 => 0
  | 1 => 8000000
  | 2 => 16000000
  | _ => 32000000

/-- The decision of an input against V_UP and V_LO, none inside the band; h is the hysteresis (R201). -/
def cmpDecide (x : Tile) (k : Nat) (vIn : Int) (vRef : Nat) (h : Int) : Option Bool :=
  let th : Int := (2 * recBits (cmpWord x k 0) 4 10 * vRef : Nat)
  if th + 1024 * h < 2048 * vIn then some true else if 2048 * vIn + 1024 * h < th then some false else none

/-- A number kept within m of 0. -/
def within (m v : Int) : Int := max (-m) (min m v)

/-- What comparator k reads: net or pin, with an error inside the input offset and the DAC's step (R200, R202). -/
def cmpInput (s : State) (w : AnalogIn) (t k : Nat) : Int :=
  let x := getTile s t
  let n := recBits (cmpWord x k 0) 16 6
  let v := if n < 32 then netLevel s w t n else pinLevel s w t (n - 32)
  v + within (1500000 + refVolts w (refOfCode (recBits (cmpWord x k 0) 2 2)) / 1024) w.err

/-- H as it stands, within 25 % of its nominal value (R202). -/
def cmpBand (w : AnalogIn) (x : Tile) (k : Nat) : Int := cmpHyst x k * (1000 + within 250 w.hystErr) / 1000

/-- A comparator that runs from the always-on domain in HOLD and SLEEP (R205). -/
def cmpAlwaysOn (x : Tile) (k : Nat) : Bool :=
  cmpMode x k == 2 && decide (32 ≤ cmpInsel x k) && decide (cmpInsel x k < 38) && cmpRef x k == 0

/-- The comparator runs: after start-up step (c), while the fabric is not held, as the tile's power state lets it
(R205, R341, R344). -/
def cmpRuns (x : Tile) (k : Nat) : Bool :=
  cmpMode x k != 0 && !x.fab.held && (x.dom.an == .on || cmpAlwaysOn x k)

/-- The comparator's reference flag (R206). -/
def cmpRefOk (x : Tile) (k : Nat) : Bool :=
  if x.dom.an != .on then true
  else match cmpRef x k with
    | 0 => x.an.vrefInt
    | 1 => x.an.vrefExt
    | _ => x.an.van

/-- What the output shows: 0 when off or before start-up step (c), CMP_INIT while UNDECIDED, else D XOR CMP_INV (R200, R201, R206). -/
def cmpWanted (x : Tile) (k : Nat) : Bool :=
  let c := getCmp x k
  cmpMode x k != 0 && !x.fab.held && (if c.decided then c.d != cmpInv x k else cmpInit x k)

/-- The device or the casement of a decided comparator wakes; the first wake is posted (R425). -/
def cmpWake (s : State) (t k : Nat) : State :=
  let x := getTile s t
  let told := fun s => post (modDev s (fun d => { d with lastWake := 1 })) 0x005 0 1 t k
  if s.dev.sleep != .awake then
    if cmpAlwaysOn x k && !s.dev.wake then told (modDev s (fun d => { d with wake := true })) else s
  else match caseOfTile s t with
    | none => s
    | some (c, n) =>
      let aim := match n.pwrWant with | p :: _ => p.1 | [] => n.pwr
      if aim == .run || n.wake || (aim == .hold && !cmpAlwaysOn x k) then s
      else told (modCase s c (fun n => { n with wake := true }))

/-- An entry of kind 0x01 (R282). -/
def edgeEntry (t k : Nat) (v : Bool) (n : Nat) (time : Time) : List Byte :=
  leBytes 1 t ++ leBytes 1 k ++ leBytes 1 v.toNat ++ [0, 0x01, 0] ++ leBytes 2 n ++ leBytes 8 time.toNat

/-- A merge of edge entries: counted, and posted at the first of an episode (R209). -/
def coalesced (s : State) (t k : Nat) (first : Bool) : State :=
  let s1 := modCt s t (fun c => { c with coalesced := bump c.coalesced })
  if first then postTile s1 t 0x8A2 1 t k 0 else s1

/-- An edge delivered to the bound event ring; it merges with one still waiting (R209, R282). -/
def deliverEdge (s : State) (t k : Nat) (writeOk : Bool) (e : List Byte) : State :=
  let x := getTile s t
  let c := getCmp x k
  match c.bound with
  | none => s
  | some r =>
    if x.dom.tk != .on then s
    else if x.ctl.restarting then
      match c.held with
      | none => modCmp s t k (fun c => { c with held := some e })
      | some old => coalesced (modCmp s t k (fun c => { c with held := some (mergeEntry old e) })) t k
          (!(old.getD 5 0).getLsbD 1)
    else
      let key := entryKey 1 (16 * t + k)
      let first := match mfind s.hif.rings r.toNat with
        | some y => y.waiting.any (fun w => w.key = key && !(w.bytes.getD 5 0).getLsbD 1)
        | none => false
      let p := putEntryIo s writeOk r.toNat key e
      if p.1 then coalesced p.2 t k first else p.2

/-- Edges of a code: 0 none, 1 rising, 2 falling, 3 both. -/
def edgeSelected (code : Nat) (rising : Bool) : Bool := if rising then bitAt code 0 else bitAt code 1

/-- Blanking of a comparator as the timer outputs stand (R207). -/
def cmpBlank (x : Tile) (k : Nat) : Bool :=
  let w := cmpWord x k 1
  bitAt w 23 && tmrOut x (recBits w 20 3) != bitAt w 24

/-- The output takes its value, unless blanked or held by a check; a change is an edge (R201, R207 to R209). -/
def cmpRefresh (s : State) (t k : Nat) (writeOk : Bool) : State :=
  let x := getTile s t
  let c := getCmp x k
  let v := cmpWanted x k
  if v = c.out || (cmpBlank x k || c.check.isSome) && cmpMode x k != 0 then s
  else
    let s1 := settleFabric s (modCmp s t k (fun c => { c with out := v }))
    if !c.decided || cmpMode x k = 0 then s1
    else
      let w := cmpWord x k 0
      let s2 := if edgeSelected (recBits w 26 2) v then deliverEdge s1 t k writeOk (edgeEntry t k v 1 s.dev.now) else s1
      if edgeSelected (recBits w 24 2) v then cmpWake s2 t k else s2

/-- A decision is taken: inside the band it holds, and an UNDECIDED comparator stays so, as does one whose reference flag is
clear (R201, R206). The reading may have met open levels. -/
def cmpTake (s0 : State) (t k : Nat) (w : AnalogIn) (writeOk : Bool) : State :=
  let x := getTile s0 t
  let s := { s0 with fresh := s0.fresh + 1 }
  match cmpDecide x k (cmpInput s0 w t k) (refVolts w (refOfCode (cmpRef x k))) (cmpBand w x k) with
  | none => s
  | some d =>
    if !cmpRefOk x k then s
    else cmpRefresh (modCmp s t k (fun c => { c with decided := true, d := d })) t k writeOk

/-- A comparator enters UNDECIDED: its destinations see CMP_INIT, with no entry and no wake (R206). -/
def cmpUndecide (s : State) (t k : Nat) : State :=
  cmpRefresh (modCmp s t k (fun c => { c with decided := false })) t k true

/-- Where blanking ends the output takes the current decision (R207). -/
def refreshBlank (s : State) (t : Nat) : State := (List.range 16).foldl (fun s k => cmpRefresh s t k true) s

/-! ### Timers (R211 to R215) -/

def modTmr (s : State) (t k : Nat) (f : Tmr → Tmr) : State :=
  modCt s t (fun c => { c with tmrs := mset c.tmrs k (f (mget Tmr.cold c.tmrs k)) })

/-- A timer changed, with the fabric and the blanking that its output drives. -/
def changeTmr (s : State) (t k : Nat) (f : Tmr → Tmr) : State :=
  let s1 := modTmr s t k f
  if tmrOut (getTile s t) k = tmrOut (getTile s1 t) k then s1 else refreshBlank (settleFabric s s1) t

/-- A write that waits for a wrap takes effect: the timer wraps, or runs no more (R213). -/
def takeNext (x : Tile) (k : Nat) : Tile := match (getTmr x k).next with
  | some p =>
    let y := cfgWrite x 0x22 (132 + 16 * k) 8 (p.1.toNat + 2 ^ 32 * p.2.toNat)
    { y with ct := { y.ct with tmrs := mset y.ct.tmrs k { getTmr x k with next := none } } }
  | none => x

/-- A timer starts: TM_COUNT at 0, its output as the mode gives (R212, R214). -/
def startTmr (s : State) (t k : Nat) : State :=
  let x := getTile s t
  let mode := tmMode x k
  if mode = 0 then s
  else changeTmr s t k (fun m => { m with
    running := mode != 2 || tmPeriod x k != 0,
    count := 0,
    since := s.dev.now,
    hit := false,
    out := (mode == 1 && m.out) || (mode == 2 && tmPeriod x k != 0) || (mode == 3 && tmCmp x k != 0) })

/-- A timer stops: TM_COUNT holds, the output is 0, and a waiting write takes effect (R213, R214). -/
def stopTmr (s : State) (t k : Nat) : State :=
  let n := tmCount s t k
  modTile (changeTmr s t k (fun m => { m with running := false, count := n, out := false, fallAt := none })) t (fun x => takeNext x k)

/-- A timer's counts cleared and TM_AUTO applied; a waiting write has taken effect (R213, R214). -/
def restartTmr (s : State) (t k : Nat) : State :=
  let s1 := changeTmr (modTile s t (fun x => takeNext x k)) t k (fun m => { m with
    running := false, count := 0, cap := 0, caps := 0, out := false, hit := false, fallAt := none })
  if bitAt (tmrWord (getTile s1 t) k 0) 3 then startTmr s1 t k else s1

/-- The counts of a tile's running timers taken again, as the clock that they count or its bounds change (R71, R454). What is
left of a period stays. -/
def rebaseTmrs (s : State) (t : Nat) : State :=
  (List.range 8).foldl (fun s k =>
    let x := getTile s t
    let m := getTmr x k
    if !m.running || dozed s t then s
    else
      let e := tmSpan s m
      let exact := (tickRange x e).2 == some (tickRange x e).1
      let n := tmCount s t k
      modTmr { s with fresh := s.fresh + 1 } t k (fun m => { m with
        count := n, since := s.dev.now - BitVec.ofNat 64 (if exact then e % 10 else 0) })) s

/-- Outputs of capture timers fall one clock period after their capture (R212). -/
def timerFalls (s : State) : State :=
  (s.tiles.flatMap (fun p => (p.2.ct.tmrs.filter (fun m => match m.2.fallAt with
      | some a => decide (a.toNat ≤ s.dev.now.toNat) && !dozed s p.1
      | none => false)).map (fun m => (p.1, m.1)))).foldl
    (fun s p => changeTmr s p.1 p.2 (fun m => { m with out := false, fallAt := none })) s

end Sys2Proof.Machine
end

