-- ==== Sys2Proof/Machine/Epochs.lean ====
section
/-! DEFINITION. Epoch changes of the role tables and the fence of a shutter
(spec/10_network.md R250 to R257, R366). -/

namespace Sys2Proof.Machine

/-! ### Epoch changes (R251 to R253) -/

/-- Routers that take part in an epoch change: those whose TK domain is ON (R253). -/
def poweredRouters (s : State) : List Nat := allTiles.filter (fun t => (getTile s t).dom.tk == .on)

/-- Every router of a list is in a set. -/
def allIn (ts : List Nat) (m : BitVec 96) : Bool := ts.all (fun t => m.getLsbD t)

/-- An epoch change is under way or waits: one not yet drained (R252). -/
def epochBusy (s : State) : Bool := s.hub.epoch.isSome || !s.hub.waiting.isEmpty

/-- An entry without a tile, at the next tenure (R365). -/
def retireEntry (e : BitVec 64) (t : Nat) : BitVec 64 :=
  let ten := nextTenure (rtTenure e)
  if rtTile0 e = t then
    (if rtLive1 e then mkEntry (rtTile1 e) true 127 false ten (rtCase e) 1 else mkEntry 127 false 127 false ten (rtCase e) 1)
  else mkEntry (rtTile0 e) (rtLive0 e) 127 false ten (rtCase e) 1

/-- The entries that a change writes; a retirement computes its own from the bank in force. -/
def changeRoles (w : EpochWait) (old : Bank) : Map (BitVec 64) := match w.why with
  | .retire r t _ => [(r, retireEntry (roleEntry old r) t.val)]
  | .load | .dissolve | .link | .promote | .shadow => w.roles

/-- The new bank of a change. -/
def changeBank (w : EpochWait) (old : Bank) : Bank :=
  { roles := (changeRoles w old).foldl (fun m p => if p.2 = coldEntry then mdel m p.1 else mset m p.1 p.2) old.roles,
    avoid := match w.avoid with
      | some (i, b) => setBit old.avoid i b
      | none => old.avoid }

/-- Step 1: the hub writes the inactive bank of all routers; assigned roles' tenures are kept (R251, R366). -/
def startEpoch (s : State) (w : EpochWait) : State :=
  let old := hubBank s
  let bank := changeBank w old
  let new_ := !s.hub.cur
  modHub s (fun h => { h with
    epoch := some { why := w.why, newEpoch := new_, stage := .updating, bank := bank, written := 0, acked := 0,
                    switched := 0, switchAcked := 0, flipped := 0, reports := [], asked := 0 },
    copy0 := if new_ then h.copy0 else bank, copy1 := if new_ then bank else h.copy1,
    tenures := (changeRoles w old).foldl (fun m p =>
      if rtState p.2 = 1 then mset m p.1 (BitVec.ofNat 16 (rtTenure p.2)) else m) h.tenures })

/-- A change begins, or waits for the one under way (R244, R250). -/
def requestEpoch (s : State) (w : EpochWait) : State :=
  if s.hub.epoch.isNone then startEpoch s w else modHub s (fun h => { h with waiting := h.waiting ++ [w] })

def modEpoch (s : State) (f : Epoch → Epoch) : State := modHub s (fun h => { h with epoch := h.epoch.map f })

/-- A tile leaves its casement's barrier mask (R89). -/
def leaveMask (s : State) (t : Nat) : State :=
  { s with cases := mmap (fun _ k => { k with chan := { k.chan with
      mask := setBit k.chan.mask t false, arrived := setBit k.chan.arrived t false } }) s.cases }

/-- A duplex role is left with one live tile (R369, R378). -/
def halfRole (s : State) (c role t : Nat) : State := modCase s c (fun k => { k with lost := mset k.lost role t })

/-- Peeks of a tile that stops serving are served by its partner, and the partner's copies of its pokes complete (R63,
R65). -/
def handOver (s : State) (t m : Nat) : State :=
  let y := (getTile s t).cyc
  let mine := (y.pokes.filter (·.completes)).map (·.req)
  modCyc (modCyc s m (fun z => { z with
    peeks := z.peeks ++ y.peeks,
    pokes := z.pokes.map (fun p => if mine.contains p.req then { p with completes := true } else p) }))
    t (fun z => { z with peeks := [], pokes := [] })

/-- A router flips its tile's VC0 epoch (R251 step 4). A tile that the change retires is RETIRED from then on and
leaves the barrier mask, and its partner serves what waits in it (R65, R367). -/
def flipVc0 (s : State) (t : Nat) : State := match s.hub.epoch with
  | none => s
  | some e =>
    let s1 := modEpoch (modNet s t (fun r => { r with vc0Epoch := e.newEpoch })) (fun e => { e with flipped := setBit e.flipped t true })
    match e.why with
    | .retire r u _ => if u.val = t
        then
          let s2 := leaveMask (modTile s1 t (fun x => { x with
            net := { x.net with localSt := .retired, shut := .shut }, cyc := { x.cyc with phase := .idle } })) t
          settleFaultN (match liveTiles (roleEntry e.bank r) with
            | [] => s2
            | m :: _ => halfRole (handOver s2 t m) (rtCase (roleEntry e.bank r)) r t)
        else s1
    | .load | .dissolve | .link | .promote | .shadow => s1

/-- A tile flips only at a release: its casement is RUNNING, in no low-power state, and the tile steps (R253). -/
def flipsAtRelease (s : State) (t : Nat) : Bool := match caseOfTile s t with
  | some p => p.2.st == .running && p.2.chan.mask.getLsbD t
  | none => false

/-- Every router of a casement that takes part has acknowledged EPOCH_SWITCH. -/
def caseAcked (s : State) (k : Casement) : Bool := match s.hub.epoch with
  | some e => (tilesOf k.region).all (fun t => e.switchAcked.getLsbD t || (getTile s t).dom.tk != .on)
  | none => true

/-- After the last acknowledgement the hub sends EPOCH_SWITCH, naming for each RUNNING casement the cycle 4,096 after
its current one (R251 step 2). -/
def sendSwitch (s : State) : State :=
  let s1 := { s with cases := mmap (fun _ k => { k with
    flipAt := if k.st == .running then some (BitVec.ofNat 64 (caseCycle4096 k s)) else none }) s.cases }
  modHub s1 (fun h => { h with
    cur := match h.epoch with | some e => e.newEpoch | none => h.cur,
    epoch := h.epoch.map (fun e => { e with stage := .switching }),
    promo := h.promo.map (fun p => if p.stage == .switching
      then { p with atCycle := match (getCase s1 p.case_.val).bind (fun k => k.flipAt) with
        | some n => n
        | none => p.atCycle } else p) })
where
  /-- The cycle that EPOCH_SWITCH names for a casement. -/
  caseCycle4096 (k : Casement) (s : State) : Nat :=
    (getTile s (((tilesOf k.region).find? (fun t => k.chan.mask.getLsbD t)).getD 0)).cyc.cycle.toNat + 4096

/-- After the last flip NET_EPOCH_SWITCHED is posted and DRAIN_QUERY sent (R251 step 5). -/
def sendQuery (s : State) (e : Epoch) : State :=
  modEpoch (post s 0x304 3 0 e.newEpoch.toNat 0) (fun e => { e with stage := .draining, reports := [], asked := 0 })

/-- A running casement routes VC0 through the router of a tile (R93, R416). -/
def routesThrough (s : State) (t : Nat) : Bool :=
  s.cases.any (fun p => p.2.st == .running && (tilesOf p.2.region).any (fun u =>
    let x := getTile s u
    (List.range 128).any (fun e =>
      let w := cfgRead x 0x08 (4 * e) 4
      bitAt w 15 && (liveTiles (roleEntry (tileBank s u) (bitsOf w 0 8))).any (fun d => onRoute (tileBank s u) t d 24 u))))

/-- The TK domain of a tile powers up: the hub writes both banks and both epochs of its router from its own copy, and the router
has no part left in the steps of a change that it missed (R253). -/
def powerTk (s : State) (t : Nat) : State :=
  if (getTile s t).dom.tk == .on then s
  else
    let h := s.hub
    let s1 := modTile s t (fun x => { x with
      dom := { x.dom with tk := .on },
      net := { x.net with bank0 := h.copy0, bank1 := h.copy1, vc0Epoch := h.cur, svcEpoch := h.cur } })
    modEpoch s1 (fun e => match e.stage with
      | .updating => { e with written := setBit e.written t true, acked := setBit e.acked t true }
      | .switching | .draining => { e with
          written := setBit e.written t true, acked := setBit e.acked t true, switched := setBit e.switched t true,
          switchAcked := setBit e.switchAcked t true, flipped := setBit e.flipped t true })

/-- A TK domain that is OFF in HOLD powers up as a running casement comes to route VC0 through its router; it stays ON until the
exit of its own casement (R93, R416; DESIGN CHOICE, assumption 26). -/
def wakeRouters (s : State) : State :=
  ((s.tiles.filter (fun p => p.2.dom.tk != .on)).map (·.1)).foldl (fun s t => if routesThrough s t then powerTk s t else s) s

/-- The epoch change goes on as far as what has come in lets it: the switch after the last acknowledgement; flips of
routers whose tiles do not step; the query after the last flip (R251, R253). -/
def epochGo (s : State) : State := match s.hub.epoch with
  | none => s
  | some e => match e.stage with
    | .updating => if allIn (poweredRouters s) e.acked then sendSwitch s else s
    | .switching =>
      let s1 := (poweredRouters s).foldl (fun s t =>
        if e.switched.getLsbD t && !e.flipped.getLsbD t && !flipsAtRelease s t then flipVc0 s t else s) s
      match s1.hub.epoch with
      | some e1 => if allIn (poweredRouters s1) (e1.flipped &&& e1.switchAcked) then sendQuery s1 e1 else s1
      | none => s1
    | .draining => s

/-- The epoch change goes on, and routers that running casements now need have power (R93, R251). -/
def epochSettle (s : State) : State := wakeRouters (epochGo s)

/-- Peeks and pokes that still wait in a tile that leaves its casement without a partner end with ABORTED_RESET (R63,
R65). -/
def endLeft (s : State) (t : Nat) : State :=
  let y := (getTile s t).cyc
  (y.peeks.map (·.req) ++ (y.pokes.filter (·.completes)).map (·.req)).foldl (fun s q => complete q .abortedReset 0 s)
    (modCyc s t (fun y => { y with peeks := [], pokes := [] }))

/-- Retirement is over: the tile leaves its casement, and ROLE_RETIRE completes with the new tenure (R365, R377). -/
def retireDone (s : State) (role : Nat) (t : TileId) (q : Option Req) : State :=
  let s0 := endLeft s t.val
  let s1 := { s0 with cases := mmap (fun _ k => { k with region := setBit k.region t.val false }) s0.cases }
  match q with
  | some q => complete q .ok (rtTenure (roleEntry (hubBank s1) role)) s1
  | none => s1

/-- The promotion has taken effect and is drained: ROLE_PROMOTED, and the descriptor completes with N (R371 step 8). -/
def promoteDone (s : State) : State := match s.hub.promo with
  | none => s
  | some p => if p.stage != .effective then s else
    let ten := rtTenure (roleEntry (hubBank s) p.role)
    let s1 := modHub s (fun h => { h with promo := none })
    let s2 := modCase s1 p.case_.val (fun k => { k with lost := mdel k.lost p.role })
    settleFaultN (complete p.req .ok p.atCycle.toNat (post s2 0x208 3 p.spare.val p.role ten))

/-- The shadow casement exists (R396). -/
def shadowDone (s : State) : State := match s.hub.shadow with
  | none => s
  | some p => complete p.req .ok 0 (modHub s (fun h => { h with shadow := none }))

/-- The old bank is drained: NET_EPOCH_DRAINED, what the change was for, and the next change that waits (R251
step 6, R244). -/
def epochDrained (s : State) (e : Epoch) : State :=
  let s1 := post (modHub s (fun h => { h with epoch := none })) 0x305 3 0 (!e.newEpoch).toNat 0
  let s2 := match e.why with
    | .retire r t q => retireDone s1 r t q
    | .promote => promoteDone s1
    | .shadow => shadowDone s1
    | .load | .dissolve | .link => s1
  match s2.hub.waiting with
  | [] => s2
  | w :: rest => startEpoch (modHub s2 (fun h => { h with waiting := rest })) w

/-- Total ejections equal total injections over the reports (R251 step 6). -/
def reportsEqual (e : Epoch) : Bool :=
  e.reports.foldl (fun n p => n + p.2.1) 0 == e.reports.foldl (fun n p => n + p.2.2) 0

/-! ### The fence (R257) -/

/-- The tile controller has accepted a descriptor that has not completed. -/
def tcPending (x : Tile) : Bool :=
  !x.cyc.peeks.isEmpty || x.cyc.pokes.any (fun p => p.completes) || !x.fab.clkHold.isEmpty || !x.fab.clkWait.isEmpty ||
  !x.fab.portB.isEmpty ||
  !x.an.changes.isEmpty || !x.cv.shadowWait.isEmpty || !x.cv.injWait.isEmpty || x.cv.capture.isSome ||
  x.cal.commit.isSome || !x.cal.pending.isEmpty || x.ct.cmps.any (fun p => p.2.check.isSome)

/-- Some packet is on its way into the local port, or into the service port. -/
def ejecting (r : Router) (svc : Bool) : Bool := r.ways.any (fun w => match w.2.here with
  | .port b _ => b == svc
  | .none | .consumed => false)

/-- Flits of the tile's own wait in its injection queues; a BOUNCE there is its router's. -/
def injecting (r : Router) : Bool :=
  !r.injectQ.isEmpty || r.entering.any (fun e => decide (e.1 < 4)) || r.queues.any (fun q => 40 ≤ q.1 && q.1 < 47)

/-- The fence of a tile's shutter holds. -/
def fenceHolds (x : Tile) : Bool := x.net.ejectQ.isEmpty && !ejecting x.net false && !injecting x.net && !tcPending x

end Sys2Proof.Machine
end

