-- ==== Sys2Proof/Machine/TileOps.lean ====
section
/-! DEFINITION. What loads, resets, low-power states and promotions do to a tile: the end of pending work, sill
hold, clearing, domains, and the four start-up steps (spec/11_host_rings.md R455, spec/13_configuration.md R338 to R341,
spec/05_pins.md R145, spec/06_analog_cells.md R164). -/

namespace Sys2Proof.Machine

/-! ### Pending work (R455) -/

/-- Descriptors ended with ABORTED_RESET. -/
def abortAll (s : State) (qs : List Req) : State := qs.foldl (fun s q => complete q .abortedReset 0 s) s

/-- A capture abandoned: the old trim of a cell stands (R229). -/
def dropCapture (x : Tile) : Tile := match x.cv.capture with
  | none => x
  | some c =>
    let cal := match c.kind with
      | .cellZero cell _ _ old => { x.cal with cellTrims := mset x.cal.cellTrims cell old }
      | .system _ _ | .slices _ _ => x.cal
    { x with cal := cal, cv := { x.cv with capture := none } }

/-- Descriptors of a tile that end with ABORTED_RESET. -/
def tileWaiters (x : Tile) : List Req :=
  x.cyc.peeks.map (·.req) ++ (x.cyc.pokes.filter (·.completes)).map (·.req) ++ x.fab.clkWait ++ x.cv.shadowWait ++
    x.cv.injWait.map (·.2) ++ (x.cv.capture.map (·.req)).toList ++
    x.ct.cmps.filterMap (fun p => p.2.check.map (·.1))

/-- Slots take the changes that waited for the end of a run (R180): the descriptors of these have completed. -/
def applyInjChanges (x : Tile) : Tile :=
  let y := x.cv.injChange.foldl (fun x p => cfgWrite x 0x21 (136 + 16 * p.1) 10 (dBits p.2.d 32 10)) x
  { y with cv := { y.cv with injChange := [] } }

/-- The tile without them. -/
def dropWaiters (x0 : Tile) : Tile :=
  let x := applyInjChanges (dropCapture x0)
  { x with cyc := { x.cyc with peeks := [], pokes := [] },
           fab := { x.fab with clkWait := [] },
           cv := { x.cv with shadowWait := [], injWait := [] },
           ct := { x.ct with cmps := mmap (fun _ c => { c with check := none }) x.ct.cmps } }

/-- Committed calibrations that wait for a boundary end with a load (R229). -/
def dropPending (s : State) (t : Nat) : State :=
  abortAll (modCal s t (fun c => { c with pending := [] })) ((getTile s t).cal.pending.map (·.2))

/-- A commit under way is interrupted: its descriptor is aborted and, where the AN domain stays ON, a copy is chosen at once
(R232, R455). -/
def dropCommit (load : Bool) (s : State) (t : Nat) : State := match (getTile s t).cal.commit with
  | none => s
  | some c =>
    let s1 := complete c.req .abortedReset 0 (modCal s t (fun k => { k with commit := none }))
    if load || (getTile s1 t).dom.an != .on then s1 else calSelect s1 t

/-- Pending descriptors of a tile end: changes begun at an edge of their own are carried through, the others are
aborted (R455). -/
def endTilePending (load : Bool) (s : State) (t : Nat) : State :=
  let s1 := portBAll (((getTile s t).fab.clkHold.map (·.1)).foldl (fun s k => restartClock s t k) s) t
  let s2 := (getTile s1 t).an.changes.foldl (fun s c => complete c.req .ok c.atE.toNat s)
    (modAn s1 t (fun a => { a with changes := [] }))
  let x := getTile s2 t
  let checks := (x.ct.cmps.filter (fun p => p.2.check.isSome)).map (·.1)
  let s3 := abortAll (modTile s2 t dropWaiters) (tileWaiters x)
  let s4 := dropCommit load (checks.foldl (fun s k => cmpRefresh s t k true) s3) t
  if load then dropPending s4 t else s4

/-- Descriptors of a casement that end with ABORTED_RESET, its tiles' apart. -/
def caseWaiters (k : Casement) : List Req :=
  (k.pause.map (·.2)).toList ++ k.stepTo.map (·.2) ++ k.resume ++ k.rates.map (·.req) ++ k.jnl.control ++
    k.jnl.marks ++ k.jnl.asked.toList ++ k.pwrWant.map (·.2) ++ (k.replay.map (·.req)).toList

/-- The entry of a role before the change under way, at the tenure after the change's. -/
def restoredEntry (s : State) (e : Epoch) (r : Nat) : BitVec 64 :=
  let o := roleEntry (if e.newEpoch then s.hub.copy0 else s.hub.copy1) r
  mkEntry (rtTile0 o) (rtLive0 o) (rtTile1 o) (rtLive1 o) (nextTenure (nextTenure (rtTenure o))) (rtCase o) 1

/-- A ROLE_RETIRE of the casement under way ends with nothing applied: its tile is in service again, and a second epoch change
lists it again (R455; DESIGN CHOICE, assumption 20). -/
def abortRetire (s : State) (c : Nat) : State := match s.hub.epoch with
  | none => s
  | some e => match e.why with
    | .retire r t (some q) =>
      if (dCase q.d).val != c then s
      else
        let back := (getTile s t.val).net.localSt == .retired && !(getTile s t.val).ctl.failSilent
        let s1 := if back then modCase (modNet s t.val (fun n => { n with localSt := .inService, shut := .open_ })) c
            (fun k => { k with lost := mdel k.lost r }) else s
        requestEpoch (complete q .abortedReset 0 (modEpoch s1 (fun e => { e with why := .link })))
          { why := .link, avoid := none, roles := [(r, restoredEntry s e r)] }
    | .retire _ _ none | .load | .dissolve | .link | .promote | .shadow => s

/-- Pending descriptors of a casement end, and a drain under way is abandoned (R391, R455). A load or a dissolution
also ends the design event bindings of the casement (R411). -/
def endCasePending (load : Bool) (s : State) (c : Nat) : State := match getCase s c with
  | none => s
  | some k =>
    let s1 := (tilesOf k.region).foldl (endTilePending load) (abortRetire s c)
    let s2 := modCase s1 c (fun k => { k with
      pause := none, stepTo := [], resume := [], rates := [], halt := false, pwrWant := [], entering := false, replay := none,
      jnl := { k.jnl with control := [], marks := [], asked := none, taking := false, delivered := [], poked := [] } })
    let s3 := abandonCkpt (abortAll s2 (caseWaiters k)) c
    if load then modRcd s3 (fun r => { r with design := r.design.filter (fun b => b.case_.val != c) }) else s3

/-! ### Pads (R145) -/

/-- What the device drives at a digital pad, if anything. -/
def padNow (s : State) (p : Nat) : Option Bool :=
  let x := getTile s (p / 12)
  let n := p % 12
  match padRow s p with
  | .resistor => none
  | .sill => if x.pin.sillE.getLsbD n then some (x.pin.sillV.getLsbD n) else none
  | .active => match mfind x.pin.switching n with
    | some h => padDrive h.mode h.e h.v
    | none => if pinMode x n < 2 then none else padDrive (pinMode x n) (wire wireFuel s (.padE p)) (wire wireFuel s (.padV p))

/-- A pin's latch closes on what it drives. -/
def latchPin (s : State) (p : Nat) (d : Option Bool) : State :=
  let i := pinPos p
  modPin s (pinTile p) (fun y => { y with
    sillHeld := setBit y.sillHeld i true, released := setBit y.released i false,
    sillE := if p < 1152 then setBit y.sillE i d.isSome else y.sillE,
    sillV := if p < 1152 then setBit y.sillV i (d.getD false) else y.sillV,
    switching := if p < 1152 then mdel y.switching i else y.switching })

/-- Pins go to sill hold, each with its last V and E. -/
def sillHold (s : State) (ps : List Nat) : State :=
  let vs := ps.map (fun p => (p, if p < 1152 then padNow s p else none))
  vs.foldl (fun s v => latchPin s v.1 v.2) s

/-- Pins neither sill-held nor released: resistor-defined. -/
def floatPinsOf (s : State) (ps : List Nat) : State :=
  ps.foldl (fun s p => modPin s (pinTile p) (fun y => { y with
    sillHeld := setBit y.sillHeld (pinPos p) false, released := setBit y.released (pinPos p) false })) s

/-- Pins driven by their slots (R341 step (b)). -/
def releasePins (s : State) (ps : List Nat) : State :=
  ps.foldl (fun s p => modPin s (pinTile p) (fun y => { y with
    sillHeld := setBit y.sillHeld (pinPos p) false, released := setBit y.released (pinPos p) true })) s

/-- A pin's set-up at cold values; the timer input that it fed follows (R138, R356). -/
def coldPin (s : State) (p : Nat) : State :=
  if p < 1152 then
    let n := p % 12
    let old := pinWord (getTile s (p / 12)) n 0
    let s1 := modTile s (p / 12) (fun x =>
      let y := cfgWrite x 0x18 (8 + 12 * n) 12 0
      { y with pin := { y.pin with switching := mdel y.pin.switching n } })
    if bitAt old 7 then settleTin s1 (recBits old 8 7) (recBits old 15 3) p else s1
  else modTile s (pinTile p) (fun x => cfgWrite x 0x18 (152 + pinPos p - 12) 1 0x3F)

/-- Conflict flags of every tile brought up to date, as records of many pins come or go (R138). Of the pins that name an
input, those `gained` now come after those that named it before, each in ascending pin index; the second begins the
conflict (assumption 36). -/
def settleGained (s : State) (gained : Nat → Bool) : State :=
  (s.tiles.map (·.1)).foldl (fun s t => (List.range 8).foldl (fun s k =>
    let ps := tinPins s t k
    settleTin s t k (((ps.filter (fun p => !gained p) ++ ps.filter gained)[1]?).getD 0)) s) s

/-- Conflict flags brought up to date where no pin gains an input. -/
def settleTins (s : State) : State := settleGained s (fun _ => false)

/-! ### Clearing (R338, R354, R426) -/

/-- Byte of a pin's set-up record (position 0-11 DIO, 12-17 AIN) in class 0x18. -/
def pinRecordByte (i a : Nat) : Bool :=
  if i < 12 then decide (cfgAddr 0x18 (8 + 12 * i) ≤ a) && decide (a < cfgAddr 0x18 (20 + 12 * i))
  else a == cfgAddr 0x18 (152 + i - 12)

/-- A tile at cold values but for what no load or TILE reset reaches: the set-up records of the pins in `keep`, its
pads, its calibration block and trims, router, controller, clock generator and domains. The counts of STORE_STATUS go
with the rest: DESIGN CHOICE, since R67 names nothing else than the descriptor that clears them (assumption 23). -/
def clearedTile (x : Tile) (keep : List Nat) : Tile :=
  { Tile.cold with
    cfg := x.cfg.filter (fun c => keep.any (fun i => pinRecordByte i c.1)),
    cyc := { CycState.cold with clk := x.cyc.clk, clkN := x.cyc.clkN, clkPosted := x.cyc.clkPosted, unlockedAt := x.cyc.unlockedAt },
    pin := { x.pin with outLatch := 0, enLatch := 0, lockSeq := none, switching := [] },
    cal := { x.cal with points := [], pending := [], commit := none }, net := x.net, ctl := x.ctl, dom := x.dom }

/-- Pin index of position i of a tile (R129). -/
def pinAt (t i : Nat) : Nat := if i < 12 then 12 * t + i else 1152 + 6 * t + (i - 12)

/-- Positions of the locked pins of a tile. -/
def lockedPins (s : State) (t : Nat) : List Nat := (List.range 18).filter (fun i => pinLocked s (pinAt t i))

/-- Positions of the pins of a tile whose records a load of casement `c`, or its dissolution, keeps: those assigned to
another casement, and locked ones assigned to none (R338, R352, R354). A full load keeps none. -/
def keptPins (s : State) (t c : Nat) : List Nat :=
  (List.range 18).filter (fun i => match mfind s.dev.pinCase (pinAt t i) with
    | some o => o.val != c
    | none => pinLocked s (pinAt t i))

/-- The AN domain powers up: switches and cells open, references not settled, the calibration block chosen and its
trims loaded, comparators UNDECIDED (R164, R206, R232). -/
def anPowerUp (s : State) (t : Nat) : State :=
  let s1 := calInUse (calSelect (modTile s t (fun x => { x with
    an := { AnState.cold with limits := x.an.limits, cut := x.an.cut }, dom := { x.dom with an := .on } })) t) t
  (List.range 16).foldl (fun s k => if cmpMode (getTile s t) k != 0 then cmpUndecide s t k else s) s1

/-- A copy that may be chosen (R232). -/
def repairGood (c : RepairCopy) : Bool := c.mark == 0xA5 && c.crcGood

/-- The newer copy of the repair map is copy B. -/
def repairNewerB (c : Ctl) : Bool := decide (c.repairA.seqNo.toNat < c.repairB.seqNo.toNat)

/-- The repair map in force, by the choice of R232; none where neither copy is good (R374). -/
def repairOf (c : Ctl) : RepairCopy := match repairGood c.repairA, repairGood c.repairB with
  | true, true => if repairNewerB c then c.repairB else c.repairA
  | true, false => c.repairA
  | false, true => c.repairB
  | false, false => RepairCopy.blank

/-- A copy whose CRC is bad is written again from the good one, as the map is applied (R232, R374). -/
def repairRewritten (c : Ctl) : Ctl := match repairGood c.repairA, repairGood c.repairB with
  | true, false => if c.repairB.mark == 0xA5 then { c with repairB := c.repairA } else c
  | false, true => if c.repairA.mark == 0xA5 then { c with repairA := c.repairB } else c
  | _, _ => c

/-- A repair map committed into the copy that is not in use (R231, R374). -/
def repairCommit (c : Ctl) (istore slots : Map (List Nat)) : Ctl :=
  let r := { istore := istore, slots := slots, seqNo := (repairOf c).seqNo + 1, crcGood := true, mark := 0xA5 }
  if repairGood c.repairA && !(repairGood c.repairB && repairNewerB c) then { c with repairB := r } else { c with repairA := r }

/-- A tile cleared for a load, its BPA, LF and AN domains powered up again in SHUT (R338). -/
def takeTile (s : State) (keep : Nat → List Nat) (t : Nat) : State :=
  anPowerUp (modTile (powerTk s t) t (fun x =>
    let y := clearedTile x (keep t)
    { y with dom := { y.dom with bpa := .on, lf := .on, an := .on, io := .on, tk := .on }, ctl := repairRewritten y.ctl })) t

/-- A tile returned to the spare pool: cleared, BPA, LF and AN OFF, SHUT, SPARE (R354, R417). Its window latches stay
(R141). -/
def poolTile (s : State) (keep : Nat → List Nat) (t : Nat) : State :=
  modTile (powerTk s t) t (fun x =>
    let y := clearedTile x (keep t)
    { y with dom := Doms.cold, pin := { y.pin with outLatch := x.pin.outLatch, enLatch := x.pin.enLatch, stated := false, mismatch := false },
             net := { y.net with shut := .shut, stalled := false,
                                    localSt := if x.net.localSt == .retired then .retired else .spare },
             ctl := { y.ctl with failSilent := x.ctl.failSilent && x.net.localSt == .retired } })

/-! ### Start-up steps (R341) -/

/-- Flip-flops at INIT. -/
def ffsInit (x : Tile) : Map (BitVec 2) :=
  (usedCells x).filterMap (fun c => let v := ffInit (cellCfg x c); if v = 0 then none else some (c, v))

/-- The bytes of a run of a configuration space, as cells from address 0. -/
def cfgCells (x : Tile) (cls off n : Nat) : List Host.Cell :=
  (x.cfg.filter (fun c => cfgAddr cls off ≤ c.1 && c.1 < cfgAddr cls (off + n))).map (fun c => (c.1 - cfgAddr cls off, c.2))

/-- Fabric RAM content of the image (R326). -/
def imageRam (x : Tile) : List Host.Cell := cfgCells x 0x12 4096 65536

/-- Emulated state of the image: flip-flops, memory and staging bits (R358). -/
def imageSnap (x : Tile) : Snap :=
  { slots := (List.range 1024).filterMap (fun b =>
      let v := BitVec.ofNat 384 (cfgRead x 0x04 (48 * b) 48)
      if v = 0 then none else some (b, v)),
    emem := cfgCells x 0x05 0 65536, staging := BitVec.ofNat 256 (cfgRead x 0x06 0 32), outB := 0, inRef := 0 }

/-- A tile when pass 2 has written its last frame: flip-flops held at INIT, RAM content in place, and the configuration
as the image leaves it. -/
def frameEnd (x : Tile) : Tile :=
  { x with img := x.cfg, fab := { x.fab with ffs := ffsInit x, ram := imageRam x, held := true } }

/-- Step (a) in a tile: BP clock to N, fabric clocks run, the generator locks (R70). -/
def stepLock (n : Nat) (x : Tile) : Tile :=
  { x with cyc := { x.cyc with clk := .locking, clkN := n, clkPosted := false }, fab := { x.fab with clocksOn := true } }

/-- A bank has its stated class, and is in mismatch where the class measured differs (R130). -/
def stateBank (s : State) (t : Nat) : State :=
  let x := getTile s t
  let bad := x.pin.measured.val != cfgRead x 0x18 0 1
  let s1 := modPin s t (fun y => { y with stated := true, mismatch := bad })
  if bad then postTile s1 t 0x782 1 t x.pin.measured.val (cfgRead x 0x18 0 1) else s1

/-- A load's start-up compares the class of every bank of the region, also of a fail-silent tile (R130). -/
def stateBanks (s : State) (c : Nat) : State := match getCase s c with
  | some k => (tilesOf k.region).foldl stateBank s
  | none => s

/-- Step (b): pins driven by their slots, analogue outputs and pins connected. -/
def stepOutputs (s : State) (c : Nat) (ts : List Nat) : State :=
  let ps := casePins s c
  let s1 := releasePins s ps
  (fun z => settleGained z (fun p => s.load.full || ps.contains p)) 
    (modTiles s1 ts (fun _ x => { x with an := { x.an with inputs := true, connected := true } }))

/-- Converters begin: the records take effect and conversion starts (R194). An episode of unsettled conversions goes on (R183). -/
def startConverter (s : State) (t : Nat) : State :=
  cvPump (modTile s t (fun x => { x with cv := { CvState.cold with
    on := true, expMask := x.cv.expMask, unsettled := x.cv.unsettled, ctrl := BitVec.ofNat 32 (cvShadowCtrl x),
    table := (List.range 16).map (fun k => (k, BitVec.ofNat 64 (cvShadowEntry x k))) } })) t

/-- A comparator starts: UNDECIDED at CMP_INIT (R206). One that is blanked from its start holds CMP_INIT: DESIGN CHOICE, since
R207 speaks of the value held as blanking begins (assumption 37). -/
def startCmp (s : State) (t k : Nat) : State :=
  if cmpMode (getTile s t) k = 0 then s
  else settleFabric s (modCmp s t k (fun c => { c with decided := false, out := cmpInit (getTile s t) k }))

/-- Comparators enter UNDECIDED, and TM_AUTO timers start. -/
def startTimers (s : State) (t : Nat) : State :=
  let s1 := (List.range 16).foldl (fun s k => startCmp s t k) s
  (List.range 8).foldl (fun s k => restartTmr s t k) s1

/-- Fabric flip-flops at INIT and no longer held; what they clock follows. -/
def startFabric (s : State) (t : Nat) : State :=
  settleFabric s (modTile s t (fun x => { x with fab := { x.fab with ffs := ffsInit x, held := false } }))

/-- The image values copied into the initial bank (R358). -/
def fillInitBank (x : Tile) : Tile :=
  { x with bp := { x.bp with initBank := imageSnap x, initRam := imageRam x } }

/-- Emulated state from the initial bank, boundary outputs at their staging values at once (R357, R341). -/
def fromInitBank (x : Tile) : Tile :=
  let z := x.bp.initBank
  { x with bp := { x.bp with
    slots := z.slots, emem := z.emem, staging := z.staging, outB := z.staging, inRef := 0, outRef := 0, inB := 0,
    clusterLane := 0, tileLane := 0, tileNext := 0, importLane := 0, portAddr := 0, portData := 0, portRead := 0,
    reads := [], digest := 0, assembly := [], ckptBank := none, holdBank := none } }

/-- Step (c) in a tile. -/
def stepState (s : State) (t : Nat) : State :=
  let s1 := settleFabric s (modTile s t (fun x => fromInitBank (fillInitBank x)))
  startTimers (startConverter (startFabric s1 t) t) t

/-- Step (d) in a tile: port A writes take effect, and the shutter is OPEN. -/
def stepWrites (x : Tile) : Tile :=
  { x with fab := { x.fab with writesOn := true }, net := { x.net with shut := .open_, stalled := false } }

end Sys2Proof.Machine
end

