-- ==== Sys2Proof/Machine/Release.lean ====
section
/-! DEFINITION. The lintel release of a tile and of a casement, and spare promotion taking effect at it
(spec/01_architecture.md R22, spec/02_boolean_processors.md R35, R63, spec/03_emulated_cycles.md R84 to R98,
spec/14_continuity.md R360, R371, spec/15_replay.md R380 to R394). -/

namespace Sys2Proof.Machine

/-! ### Pokes and deliveries -/

/-- Bits that a poke writes or a peek reads, and what it costs in lintel stall steps (R86). -/
def pokeCost (bits : Nat) : Nat := 2 + (bits + 31) / 32

/-- Bits of a BP_PEEK, BP_POKE, MEM_PEEK or MEM_POKE. -/
def reqBits (q : Req) (mem : Bool) : Nat := if mem then 32 * dW16 q.d 34 else dByte q.d 31 * dW16 q.d 34

/-- The data of a poke: the bytes it needs of its buffer (R61). -/
def pokeData (q : Req) (mem : Bool) : List Byte := padTo ((reqBits q mem + 7) / 8) (q.io.dataA.take ((reqBits q mem + 7) / 8))

/-- A poke applied (R60, R61, R63). -/
def applyPoke (b : BpState) (p : Poke) : BpState :=
  let q := p.req
  if p.mem then { b with emem := memPuts zeroes b.emem (8192 * dByte q.d 29 + 4 * dW16 q.d 32) (pokeData q true) }
  else { b with slots := pokeSlots b.slots (dByte q.d 29) (dByte q.d 30) (dByte q.d 31) (dW16 q.d 32) (dW16 q.d 34) (pokeData q false) }

/-- The journal record of a poke: type, and its bytes from byte 8 on (R383). -/
def pokeRecord (idx : Nat) (p : Poke) : Nat × List Byte :=
  let q := p.req
  if p.mem then (0x07, leBytes 1 idx ++ leBytes 1 (dByte q.d 29) ++ [0, 0] ++ leBytes 2 (dW16 q.d 32) ++
    leBytes 2 (dW16 q.d 34) ++ pokeData q true)
  else (0x06, leBytes 1 idx ++ leBytes 1 (dByte q.d 29) ++ leBytes 1 (dByte q.d 30) ++ leBytes 1 (dByte q.d 31) ++
    leBytes 2 (dW16 q.d 32) ++ leBytes 2 (dW16 q.d 34) ++ pokeData q false)

/-- The journal record of a delivery. -/
def deliveryRecord (idx : Nat) (d : Delivery) : Nat × List Byte :=
  (0x08, leBytes 1 idx ++ leBytes 1 d.block ++ [0, 0] ++ leBytes 2 d.first ++ leBytes 2 (d.bytes.length / 4) ++ d.bytes)

/-! ### Words written while a promotion copies (R371) -/

/-- A promotion copies this tile's state, so that writes mark their words dirty. -/
def copiesFrom (s : State) (t : Nat) : Bool := match s.hub.promo with
  | some p => p.survivor.val == t && (p.stage == .copying || p.stage == .copied || p.stage == .switching)
  | none => false

/-- A word in an ascending list of words. -/
def addWord : List Nat → Nat → List Nat
  | [], w => [w]
  | a :: r, w => if w < a then w :: a :: r else if w = a then a :: r else a :: addWord r w

/-- Words marked dirty. -/
def markDirty (s : State) (t : Nat) (ws : List Nat) : State :=
  if copiesFrom s t then modHub s (fun h => { h with promo := h.promo.map (fun p => { p with dirty := ws.foldl addWord p.dirty }) })
  else s

/-- Words of emulated memory from word w of a block. -/
def memWords (block first n : Nat) : List Nat := (List.range n).map (fun i => 12288 + 2048 * block + first + i)

/-- Words that a poke writes. -/
def pokeWords (p : Poke) : List Nat :=
  let q := p.req
  if p.mem then memWords (dByte q.d 29) (dW16 q.d 32) (dW16 q.d 34)
  else (List.range (dByte q.d 31)).flatMap (fun i =>
    (List.range 12).filterMap (fun w =>
      if 32 * w < dW16 q.d 32 + dW16 q.d 34 && dW16 q.d 32 < 32 * (w + 1)
      then some (12 * (32 * dByte q.d 29 + dByte q.d 30 + i) + w) else none))

/-- Words that a step writes. -/
def stepWords (x : Tile) (st : Nat) : List Nat :=
  let rs := stepResults x st
  (rs.filterMap (fun p => if insKeep p.2.1 && insDst p.2.1 < 384 then some (12 * p.1 + insDst p.2.1 / 32) else none)) ++
  ((stepAccesses x st rs).filter (·.write)).map (fun a => 12288 + 2048 * a.block + a.word) ++
  rs.filterMap (fun p => if insOpx p.2.1 = 5 then some (28672 + (8 * (p.1 / 32) + p.1 % 8) / 32) else none)

/-! ### Release of a tile -/

/-- The vector that a tile of a live pair takes: the reference tile's, once that tile has released the cycle (R360). -/
def pairVector (s : State) (t : Nat) (own : BitVec 256) : BitVec 256 :=
  let e := entryOf s t
  if bothLive e && rtTile1 e = t && !(getTile s (rtTile0 e)).ctl.failSilent then (getTile s (rtTile0 e)).bp.inB else own

/-- The vector of a release: the journal's in replay, else the sampler's (R90, R360, R393). -/
def releaseVector (s : State) (k : Casement) (t : Nat) : BitVec 256 :=
  match k.replay with
  | some r =>
    let idx := ((jnlUnits k s).find? (fun u => u.2 = t || partnerOf s u.2 == some t)).map (·.1)
    mget 0 r.ins (idx.getD 0)
  | none => if k.isolated then (getTile s t).bp.inB else pairVector s t (boundaryInputs s t)

/-- Everything that R35 sets to 0 before step 0. -/
def clearCycle (d : Nat) (x : Tile) : Tile :=
  { x with bp := { x.bp with
    slots := keepFfs x.bp.slots (ffSlots x d), clusterLane := 0, tileLane := 0, tileNext := 0, importLane := 0,
    portAddr := 0, portData := 0, portRead := 0, reads := [], assembly := [], digest := 0 } }

/-- The tile counts as image tile index `idx` of the journal, when its casement's records name it. -/
def unitIndex (s : State) (k : Casement) (t : Nat) : Option Nat := ((jnlUnits k s).find? (fun u => u.2 = t)).map (·.1)

/-- The spare takes the survivor's state, configuration and cycle, and what is queued there for later releases (R65),
joins the casement and its barrier mask, and runs start-up steps (c), (d) and (b) (R371 steps 6 and 7, R136). -/
def promoteSpare (s : State) (p : Promo) (n : BitVec 64) : State :=
  let v := getTile s p.survivor.val
  let old := p.former.val
  let new_ := p.spare.val
  let lines := fun (a : Nat) => decide (cfgAddr 0x18 256 ≤ a) && decide (a < cfgAddr 0x18 2304)
  let runs := fun (a : Nat) => lines a || a / 2 ^ 26 == 0x13 || a / 2 ^ 26 == 0x21 || a / 2 ^ 26 == 0x22
  let moved := ((v.cfg ++ v.img).filter (fun a => runs a.1 && memGet cfgCold v.cfg a.1 != memGet cfgCold v.img a.1)).map (·.1)
  let s1 := modTile s new_ (fun x => { x with cfg := moved.foldl (fun m a => memPut cfgCold m a (memGet cfgCold v.cfg a)) x.cfg })
  let s2 := startTimers (startConverter (startFabric (modTile s1 new_ fillInitBank) new_) new_) new_
  let s3 := modTile s2 new_ (fun x => stepWrites { x with
    bp := { v.bp with initBank := x.bp.initBank, initRam := x.bp.initRam, corrected := x.bp.corrected, scrubPasses := 0,
                      scrubWord := 0, scrubEntry := 0, scrubRow := 0, scrubMem := 0, ckptBank := none },
    cyc := { x.cyc with
      phase := .stepping, step := 0, cycle := n, barrier := 0, closeSig := false, closeEdges := 0, stallSince := none,
      stallPosted := false, bundles := v.cyc.bundles, deliveries := v.cyc.deliveries,
      pokes := v.cyc.pokes.map (fun p => { p with completes := false }) },
    an := { x.an with inputs := true, connected := true }, net := { x.net with localSt := .inService } })
  let s4 := modCase s3 p.case_.val (fun k => { k with
    region := setBit k.region new_ true,
    chan := { k.chan with mask := setBit k.chan.mask new_ true },
    tileOf := mmap (fun _ t => if t = old then new_ else t) k.tileOf })
  let stile := fun (w : Nat) => if recBits w 24 7 = old then w - old * 2 ^ 24 + new_ * 2 ^ 24 else w
  let s5 := (casePins s4 p.case_.val).foldl (fun s q =>
    if q < 1152 then modTile s (q / 12) (fun x =>
      let n := q % 12
      let w0 := pinWord x n 0
      let w := if bitAt w0 7 && recBits w0 8 7 = old then w0 - old * 2 ^ 8 + new_ * 2 ^ 8 else w0
      cfgWrite x 0x18 (8 + 12 * n) 12 (w + 2 ^ 32 * stile (pinWord x n 1) + 2 ^ 64 * stile (pinWord x n 2)))
    else s) s4
  let s6 := modCyc s5 p.survivor.val (fun y =>
    { y with stalls := { y.stalls with lintel := y.stalls.lintel + BitVec.ofNat 64 (2 + p.dirty.length) } })
  let s7 := modHub s6 (fun h => { h with promo := some { p with stage := .effective, atCycle := n } })
  settleFabric s (settleGained s7 (fun q => decide (recBits (pinWord (getTile s (q / 12)) (q % 12) 0) 8 7 = old)))

/-- The routers of the promoted role's casement have flipped to the new table, or it is drained already (R371, R253). -/
def promoFlipped (s : State) (t : Nat) : Bool :=
  !s.hub.waiting.any (fun w => w.why == .promote) &&
    (match s.hub.epoch with
    | some e => e.why != .promote || e.flipped.getLsbD t
    | none => true)

/-- Promotion takes effect at the release of cycle N of its survivor; where the change is drained already, it is over. -/
def promoteAt (s : State) (t : Nat) (n : BitVec 64) : State := match s.hub.promo with
  | some p =>
    if p.stage == .switching && p.survivor.val == t && promoFlipped s t then
      let s1 := promoteSpare s p n
      if s1.hub.epoch.isNone then promoteDone s1 else s1
    else s
  | none => s

/-- Deliveries and pokes of the release, from the journal in replay or from the tile's own queues (R22, R394). -/
def releaseChanges (s : State) (k : Casement) (c t : Nat) (n : BitVec 64) : State :=
  match k.replay with
  | some r =>
    let idx := ((jnlUnits k s).find? (fun u => u.2 = t || partnerOf s u.2 == some t)).map (·.1)
    r.now.foldl (fun s p => modTile s t (fun x => replayApply x (idx.getD 256) p)) s
  | none =>
    let y := (getTile s t).cyc
    let ds := y.deliveries.filter (fun d => d.due ≤ n.toNat)
    let ps := y.pokes.filter (fun p => p.cyc.toNat ≤ n.toNat)
    let cost := ds.foldl (fun a d => a + deliveryCost d) 0 + ps.foldl (fun a p => a + pokeCost (reqBits p.req p.mem)) 0
    let s1 := modTile s t (fun x => { x with
      bp := ps.foldl applyPoke { x.bp with emem := ds.foldl applyDelivery x.bp.emem },
      cyc := { x.cyc with
        deliveries := y.deliveries.filter (fun d => !(d.due ≤ n.toNat)),
        pokes := y.pokes.filter (fun p => !(p.cyc.toNat ≤ n.toNat)),
        stalls := { x.cyc.stalls with lintel := x.cyc.stalls.lintel + BitVec.ofNat 64 cost } } })
    let s2 := match unitIndex s k t with
      | some i => modJnlCase s1 c (fun j => { j with
          delivered := j.delivered ++ ds.map (deliveryRecord i), poked := j.poked ++ ps.map (pokeRecord i) })
      | none => s1
    let s3 := markDirty s2 t (ds.flatMap (fun d => memWords d.block d.first (d.bytes.length / 4)) ++ ps.flatMap pokeWords)
    (ps.filter (·.completes)).foldl (fun s p => complete p.req .ok n.toNat s) s3

/-- A tile releases cycle n: the order of R22, then R35; step 0 begins. -/
def releaseTile (s : State) (c t : Nat) (n : BitVec 64) : State := match getCase s c with
  | none => s
  | some k =>
    let v := releaseVector s k t
    let s1 := releaseChanges (modBp s t (fun b => { b with inB := v })) k c t n
    let s2 := modTile s1 t (fun x => clearCycle k.depth { x with cyc := { x.cyc with
      phase := .stepping, step := 0, cycle := n, barrier := 0, closeSig := false, closeEdges := 0, landed := [],
      stallSince := none, stallPosted := false,
      bundles := x.cyc.bundles.filter (fun b => b.tag.toNat = n.toNat % 2 ^ 32),
      held := x.cyc.held.filter (fun b => b.tag.toNat = n.toNat % 2 ^ 32),
      passed := x.cyc.passed.filter (fun p => p.2.toNat = n.toNat % 2 ^ 32) } })
    let flips := s2.hub.epoch.any (fun e => e.stage == .switching && !e.flipped.getLsbD t) && k.flipAt.any (fun f => f.toNat ≤ n.toNat)
    promoteAt (if flips then flipVc0 s2 t else s2) t n

/-! ### Release of a casement -/

/-- Every tile of the barrier mask has begun cycle n. -/
def allReleased (s : State) (k : Casement) (n : BitVec 64) : Bool :=
  k.chan.mask != 0 && (tilesOf k.chan.mask).all (fun t =>
    let y := (getTile s t).cyc
    y.cycle == n && y.phase != .closed && y.phase != .idle)

/-- JNL_CONTROL takes effect at a release (R398, R384): enabling writes a SYNC and starts from zero references, or begins with a gap
while the engine is stopped (R387). -/
def applyControl (c : Nat) (n : Nat) (s : State) (q : Req) : State :=
  let on := bitAt (dByte q.d 28) 0
  let was := match getCase s c with | some k => k.jnl.on | none => false
  let s1 := modJnlCase s c (fun j => { j with
    on := on, ckptL := dByte q.d 29, digestL := if dByte q.d 30 = 0xFF then none else some (dByte q.d 30),
    full := j.full || (on && !was),
    gapFrom := if on && !was then (if s.jnl.stopped then some (BitVec.ofNat 64 n) else none) else j.gapFrom })
  let s2 := if on && !was && !s.jnl.stopped then (match getCase s1 c with
      | some k => jnlSync (jnlZeroRefs s1 k) c n
      | none => s1) else s1
  complete q .ok n s2

/-- MARK records of a release. -/
def applyMark (c n : Nat) (s : State) (q : Req) : State := complete q .ok n (jnlRecord s c 0x0E n (leBytes 8 (dW64 q.d 32)))

/-- Records of a release, once every tile has released: inputs, deliveries, pokes, marks (R380, R385). Marks wait out a gap,
and end with BAD_FIELD where journalling has been turned off. -/
def journalRelease (s : State) (c n : Nat) : State := match getCase s c with
  | none => s
  | some k0 =>
    let s1 := k0.jnl.control.foldl (applyControl c n) (modJnlCase s c (fun j => { j with control := [] }))
    let s2 := resumeGap s1 c n
    match getCase s2 c with
    | none => s2
    | some k =>
      let s3 := if jnlOn k && k.jnl.gapFrom.isNone then
          let a := jnlInputs s2 c n (k.jnl.full || n == 0)
          (k.jnl.delivered ++ k.jnl.poked).foldl (fun s r => jnlRecord s c r.1 n r.2) a
        else s2
      let s4 := modJnlCase s3 c (fun j => { j with delivered := [], poked := [] })
      if !jnlOn k then k.jnl.marks.foldl (fun s q => complete q .badField 0 s) (modJnlCase s4 c (fun j => { j with marks := [] }))
      else if k.jnl.gapFrom.isSome then s4
      else k.jnl.marks.foldl (applyMark c n) (modJnlCase s4 c (fun j => { j with marks := [] }))

/-- Rate changes that a release applies: N, PACE and STALL_LIMIT; each descriptor completes with the cycle (R96). -/
def applyRate (c n : Nat) (s : State) (r : RateChange) : State :=
  let d := r.req.d
  complete r.req .ok n (modCase s c (fun k => { k with
    n := if dByte d 28 = 0 then k.n else dByte d 28,
    pace := if dW32 d 32 = 0xFFFFFFFF then k.pace else BitVec.ofNat 32 (dW32 d 32),
    stallLimit := if dW32 d 36 = 0 then k.stallLimit else BitVec.ofNat 32 (dW32 d 36) }))

/-- A wake is posted once: source, tile, comparator (R425, R431). -/
def postWake (s : State) (source : Nat) : State :=
  post (modDev s (fun d => { d with lastWake := BitVec.ofNat 8 source })) 0x005 0 source 0xFF 0xFFFF

/-- A command wakes the casement: exit begins, after an entry that is under way (R425, R427). -/
def wakeByCommand (s : State) (c : Nat) : State := match getCase s c with
  | some k => if k.wake then s else modCase (postWake s 0) c (fun k => { k with wake := true })
  | none => s

/-- Power state p is reached: the PWR_STATE descriptors at the head that ask for it complete, and one behind them for which
the state must be left wakes the casement (R427, R429). -/
def pwrReached (s : State) (c : Nat) (p : Pwr) (n : Nat) : State := match getCase s c with
  | none => s
  | some k =>
    let rest := k.pwrWant.dropWhile (fun w => w.1 == p)
    let s1 := (k.pwrWant.takeWhile (fun w => w.1 == p)).foldl (fun s w => complete w.2 .ok n s)
      (modCase s c (fun k => { k with pwrWant := rest }))
    match rest with
    | (t, _) :: _ => if t == .run || p == .hold then wakeByCommand s1 c else s1
    | [] => s1

/-- After the last tile's release of cycle n: the journal, rate changes, CYCLE_STEP with COUNT = 0 and PWR_STATE to RUN
complete, an epoch change goes on, and pattern frames that waited for room are taken. -/
def lastRelease (s : State) (c : Nat) (n : BitVec 64) : State := match getCase s c with
  | none => s
  | some k =>
    if !allReleased s k n || decide (n.toNat < k.chan.releaseDone) then s
    else
      let s1 := modCase s c (fun k => { k with chan := { k.chan with releaseDone := n.toNat + 1 } })
      let s2 := journalRelease s1 c n.toNat
      let due := k.rates.filter (fun r => r.cyc.toNat ≤ n.toNat)
      let s3 := due.foldl (applyRate c n.toNat) (modCase s2 c (fun k => { k with rates := k.rates.filter (fun r => !(r.cyc.toNat ≤ n.toNat)) }))
      let s4 := k.resume.foldl (fun s q => complete q .ok 0 s) (modCase s3 c (fun k => { k with resume := [] }))
      let s5 := pwrReached s4 c .run n.toNat
      let s6 := modCase s5 c (fun k => { k with flipAt := if k.flipAt.any (fun f => f.toNat ≤ n.toNat) then none else k.flipAt })
      flushCase (epochSettle s6) c

/-- Cycle 0 of a casement: its tiles begin at step 0, cycle counts and stalls at 0 (R36, R100, R341, R357). -/
def startCycles (s : State) (c : Nat) : State := match getCase s c with
  | none => s
  | some k =>
    let ts := (tilesOf k.region).filter (fun t => shutterCounts (getTile s t))
    let s1 := modTiles s ts (fun _ x => { x with cyc := { x.cyc with
      phase := .closed, cycle := 0xFFFFFFFFFFFFFFFF, closeSig := false, stalls := Stalls.zero, stallTimeouts := 0,
      unexpected := 0, bundles := [], held := [], passed := [] } })
    let s2 := modCase s1 c (fun k => { k with
      st := .running, halt := k.stop.isSome || !s.dev.sleepReq.isEmpty, pwr := .run, wake := false, startUp := none, isolated := false,
      chan := { Chan.clear with mask := maskOf ts, lastRelease := s.dev.now }, jnl := { k.jnl with full := true, gapFrom := k.jnl.gapFrom.map (fun _ => 0) } })
    lastRelease (ts.foldl (fun s t => releaseTile s c t 0) (wakeRouters s2)) c 0

end Sys2Proof.Machine
end

