-- ==== Sys2Proof/Machine/Stops.lean ====
section
/-! DEFINITION. What stops a casement and what follows: CASEMENT reset, CASE_DISSOLVE, and the takeover of a load
(spec/14_continuity.md R354, R357, R372, spec/13_configuration.md R338, R340). -/

namespace Sys2Proof.Machine

/-! ### Promotion overtaken (R372) -/

/-- The loader at rest, with what CFG_STATUS keeps of the last load (R335, R349). -/
def loaderIdle (l : Load) : Load :=
  { Load.idle with fullFailed := l.fullFailed, lastStatus := l.lastStatus, lastReason := l.lastReason, lastHost := l.lastHost,
                   lastTarget := l.lastTarget, lastFrame := l.lastFrame }

/-- An answer on stream 12 that the pass has not taken ends with the pass (R317). -/
def dropAnswer (s : State) : State :=
  if (getStream s 12).part.isSome then modStream s 12 (fun x => { x with part := none }) else s

/-- The loader comes to rest. -/
def restLoader (s : State) : State := dropAnswer (modLoad s loaderIdle)

/-- The spare of a promotion returns to the pool cleared. -/
def dropSpare (s : State) (t : Nat) : State := settleTins (poolTile s (fun _ => List.range 18) t)

/-- The promotion ends with a status; an epoch change already asked for is followed by one that restores the entry. -/
def endPromo (s : State) (st : Status) (res : Nat) : State := match s.hub.promo with
  | none => s
  | some p =>
    let s1 := dropSpare (modHub s (fun h => { h with promo := none })) p.spare.val
    let s2 := if p.stage == .switching then
        let e := roleEntry (hubBank s1) p.role
        requestEpoch s1 { why := .link, avoid := none,
                          roles := [(p.role, mkEntry p.survivor.val true 127 false (nextTenure (rtTenure e)) (rtCase e) 1)] }
      else s1
    let s3 := if s2.load.purpose == .promote && s2.load.phase != .idle then restLoader s2 else s2
    complete p.req st res s3

/-- A promotion of a casement that has not taken effect ends with ABORTED_RESET. -/
def abortPromo (s : State) (c : Nat) : State := match s.hub.promo with
  | some p => if p.case_.val = c && p.stage != .effective then endPromo s .abortedReset 0 else s
  | none => s

/-! ### CASEMENT reset (R357) -/

/-- Converters of a tile at a CASEMENT reset: sets empty, triggers and slots cleared, the sequence at entry 0 (R194). -/
def resetConverter (s : State) (t : Nat) : State :=
  cvPump (applyPending (modCv s t (fun v => { v with
    accs := [], trks := [], latched := false, delay := false, injPending := 0, seq := none, inj := none, inFlight := [],
    injExcluded := false })) t) t

/-- One tile at a CASEMENT reset. -/
def resetTile (s : State) (t : Nat) : State :=
  let s1 := settleFabric s (modTile s t (fun x =>
    let y := fromInitBank x
    { y with edges := [], fab := { y.fab with ram := x.bp.initRam, lastRow := none, portA := [] },
             an := { y.an with cut := x.ctl.failSilent } }))
  (List.range 8).foldl (fun s k => restartTmr s t k) (resetConverter (startFabric s1 t) t)

/-- A journalled casement takes a checkpoint at cycle 0 too (R390). -/
def ckptZero (s : State) (c : Nat) : State := match getCase s c with
  | none => s
  | some k =>
    if !jnlOn k || k.jnl.gapFrom.isSome || k.jnl.ckptL = 0 then s
    else beginCkpt (modTiles (modJnlCase s c (fun j => { j with taking := true })) (tilesOf k.region)
      (fun _ x => { x with bp := { x.bp with ckptBank := some (snapOf x k.depth) } })) c 0

/-- The casement's tiles that a reset or a start-up reaches. -/
def liveTilesOf (s : State) (k : Casement) : List Nat := (tilesOf k.region).filter (fun t => shutterCounts (getTile s t))

/-- A stopped casement is reset and releases cycle 0. -/
def resetCase (s : State) (c : Nat) (q : Req) : State := match getCase s c with
  | none => s
  | some k =>
    let last := caseCycle k s
    let s1 := dropDeliveries (abortPromo (endCasePending false s c) c) c
    let s2 := modCase s1 c (fun k => { k with stop := none, isolated := false })
    let s3 := (liveTilesOf s2 k).foldl resetTile (jnlResetRecord s2 c last)
    let s4 := startCycles (ckptZero s3 c) c
    let s5 := if k.pwr != .run then postPwr s4 c .run k.pwr else s4
    settleFaultN (complete q .ok 0 (post s5 0x203 3 c 0 0))

/-! ### CASE_DISSOLVE (R354) -/

/-- Roles of a casement in the hub's bank. -/
def rolesOfCase (s : State) (c : Nat) : List Nat :=
  ((hubBank s).roles.filter (fun p => rtCase p.2 = c && rtState p.2 != 0)).map (·.1)

/-- Every pin of a casement belongs to none: unlocked ones at cold set-up, all resistor-defined. -/
def freePins (s : State) (c : Nat) : State :=
  let ps := casePins s c
  let s1 := floatPinsOf ((ps.filter (fun p => !pinLocked s p)).foldl coldPin s) ps
  modDev s1 (fun d => { d with pinCase := d.pinCase.filter (fun q => q.2.val != c),
                               trunks := d.trunks.filter (fun q => q.2.val != c) })

/-- A stopped casement is dissolved. -/
def dissolveCase (s : State) (c : Nat) (q : Req) : State := match getCase s c with
  | none => s
  | some k =>
    let s1 := freePins (unbindCase (abortPromo (endCasePending true s c) c) c) c
    let s2 := (tilesOf k.region).foldl (fun s t => poolTile s (fun t => keptPins s t c) t) s1
    let gone := (rolesOfCase s2 c).map (fun r => (r, coldEntry))
    let s3 := if gone.isEmpty then s2 else requestEpoch s2 { why := .dissolve, roles := gone, avoid := none }
    let s4 := settleFabric s (settleTins { s3 with cases := mdel s3.cases c })
    settleFaultN (complete q .ok 0 (post (modDev s4 (fun d => { d with changed := setBit d.changed c false })) 0x202 3 c 0 0))

/-! ### Takeover (R338) -/

/-- Casements that a load takes over. -/
def loadTargets (s : State) : List Nat :=
  if s.load.full then s.cases.map (·.1) else if (getCase s s.load.case_.val).isSome then [s.load.case_.val] else []

/-- A shutter starts to close. -/
def closeShutter (x : Tile) : Tile :=
  if x.net.shut == .open_ || x.net.shut == .opening then { x with net := { x.net with shut := .closing, stalled := false } } else x

/-- Tiles that a load clears. -/
def loadTiles (s : State) : List Nat :=
  if s.load.full then allTiles else match getCase s s.load.case_.val with
    | some k => tilesOf k.region
    | none => []

/-- Positions of the pins of a tile whose records the load keeps. -/
def loadKeeps (s : State) (t : Nat) : List Nat := if s.load.full then [] else keptPins s t s.load.case_.val

/-- A tile of the target: configuration and state cleared, its shutter closing. -/
def takeCleared (keep : Nat → List Nat) (t : Nat) (x : Tile) : Tile :=
  closeShutter { clearedTile x (keep t) with an := { AnState.cold with limits := x.an.limits } }

/-- The pins of a casement whose image leaves them sill-held or floating, with cold set-up (R145, R352). -/
def takePins (s : State) (c : Nat) : State :=
  let float := match getCase s c with | some k => k.floatPins | none => false
  let ps := casePins s c
  let s1 := if float then floatPinsOf s ps else sillHold s ps
  ps.foldl coldPin s1

/-- Every target casement has stopped: pending work ends, and the target is cleared and its shutters close. A full load
dissolves every casement. -/
def takeTarget (s : State) : State :=
  let cs := loadTargets s
  let s1 := cs.foldl (fun s c => unbindCase (abortPromo (endCasePending true s c) c) c) s
  if s.load.full then
    let s2 := modTiles s1 allTiles (takeCleared (loadKeeps s1))
    let s3 := floatPinsOf s2 (s.dev.pinCase.map (·.1))
    settleFaultN (settleFabric s (settleTins { s3 with
      cases := [], dev := { s3.dev with pinCase := [], trunks := [] } }))
  else
    let c := s.load.case_.val
    let s2 := takePins s1 c
    let s3 := modTiles s2 (loadTiles s2) (takeCleared (loadKeeps s2))
    let s4 := modDev s3 (fun d => { d with trunks := d.trunks.filter (fun q => q.2.val != c) })
    settleFaultN (settleFabric s (settleTins (modCase s4 c (fun k => { k with
      st := .loading, stop := none, pwr := .run, wake := false, isolated := false, lost := [], chan := Chan.clear, startUp := none,
      flipAt := none, jnl := { JnlCase.image with number := k.jnl.number, syncHi := k.jnl.syncHi, on := k.jnl.on } }))))

/-- A target casement runs no more. -/
def hasStopped (s : State) (c : Nat) : Bool := match getCase s c with
  | some k => k.st != .running
  | none => true

/-- The takeover goes on once every target casement has stopped. -/
def takeoverGo (s : State) : State :=
  if s.load.phase == .takeover && (loadTargets s).all (hasStopped s) then takeTarget s else s

/-! ### Stopping a casement -/

/-- A casement has stopped: what stopped it goes on. -/
def stopGo (s : State) (c : Nat) : State := match getCase s c with
  | none => s
  | some k => match k.stop with
    | none => s
    | some .load => takeoverGo s
    | some (.reset q) => resetCase s c q
    | some (.dissolve q) => dissolveCase s c q

/-- A CASE_RESET that something else overtakes ends with ABORTED_RESET (R455). -/
def dropReset (s : State) (c : Nat) : State := match getCase s c with
  | some k => match k.stop with
    | some (.reset q) => complete q .abortedReset 0 (modCase s c (fun k => { k with stop := none }))
    | _ => s
  | none => s

/-- A casement is to stop after its next lintel close, and stops at once where no cycle runs (R338). -/
def beginStop (s : State) (c : Nat) (why : Stop) : State :=
  let s1 := modCase (dropReset s c) c (fun k => { k with stop := some why })
  if hasStopped s1 c then stopGo s1 c else modCase s1 c (fun k => { k with halt := true })

end Sys2Proof.Machine
end

