-- ==== Sys2Proof/Machine/LoadOps.lean ====
section
/-! DEFINITION. How a load ends before its start-up is over: refusals, failures, what a fail-silent tile does to it, and
the anti-rollback counters (spec/13_configuration.md R331, R332, R336, R340, R345, R347). -/

namespace Sys2Proof.Machine

/-! ### Anti-rollback counters (R331, R332) -/

/-- A copy of the counters that may be used. -/
def rollGood (c : Rollback) : Bool := c.mark == 0xA5 && c.crcGood

/-- The copy in use; blank where neither serves, so that every counter reads 0. -/
def rollCopy (d : Device) : Rollback :=
  let c := if d.rollUseB then d.rollB else d.rollA
  if rollGood c then c else Rollback.blank

/-- Counter i: 0 is F, 1 + c is P_c. -/
def rollCounter (d : Device) (i : Nat) : Nat := (mget 0 (rollCopy d).counters i).toNat

/-- A commit: the copy that is not in use takes the counters with the next sequence number, and is then the one in use. -/
def rollCommit (d : Device) (i v : Nat) : Device :=
  let old := rollCopy d
  let c : Rollback := { seqNo := old.seqNo + 1, counters := mset old.counters i (BitVec.ofNat 32 v), crcGood := true, mark := 0xA5 }
  if rollGood d.rollA && !d.rollUseB then { d with rollB := c, rollUseB := true } else { d with rollA := c, rollUseB := false }

/-- A counter raised to FLOOR and committed; a rise is posted. -/
def rollRaise (s : State) (i floor : Nat) : State :=
  let v := rollCounter s.dev i
  let s1 := modDev s (fun d => rollCommit d i (max v floor))
  if v < floor then post s1 0x108 3 (if i = 0 then 0xFF else i - 1) 0 (floor % 65536) else s1

/-- The choice of a copy at power-up, with its repair and event. -/
def rollSelect (s : State) : State :=
  let a := s.dev.rollA
  let b := s.dev.rollB
  match rollGood a, rollGood b with
  | true, true => modDev s (fun d => { d with rollUseB := decide (a.seqNo.toNat < b.seqNo.toNat) })
  | true, false =>
    if b.mark == 0xA5 then post (modDev s (fun d => { d with rollB := a, rollUseB := false })) 0x109 3 1 1 0
    else post (modDev s (fun d => { d with rollUseB := false })) 0x109 3 1 0 0
  | false, true =>
    if a.mark == 0xA5 then post (modDev s (fun d => { d with rollA := b, rollUseB := true })) 0x109 3 0 1 0
    else post (modDev s (fun d => { d with rollUseB := true })) 0x109 3 0 0 0
  | false, false => post (modDev s (fun d => { d with rollUseB := false })) 0x109 3 0 2 0

/-! ### The end of a load -/

/-- Load state of CFG_STATUS, and phase reached of a completion (R347, R349). -/
def phaseCode : LoadPhase → Nat
  | .idle => 0 | .pass1 => 1 | .takeover => 2 | .pass2 => 3 | .startUp => 4

/-- Byte 4 of CFG_STATUS (R349). -/
def loadTarget (full : Bool) (c : Nat) : Nat := if full then 0x80 else c

/-- No tile, or no frame, is concerned (R347). -/
def noTile : Nat := 0xFFFF
def noFrame : Nat := 0xFFFFFFFF

/-- The result field of CFG_LOAD (R347). -/
def loadResult (phase reason tile frame : Nat) : Nat := phase + 2 ^ 8 * reason + 2 ^ 16 * tile + 2 ^ 32 * frame

/-- The load is over: what CFG_STATUS keeps, the loader at rest, the completion. -/
def loadEnd (s : State) (st : Status) (phase reason tile frame : Nat) : State :=
  let l := s.load
  let s1 := modLoad (dropAnswer s) (fun l => { loaderIdle l with
    lastStatus := BitVec.ofNat 8 (statusCode st), lastReason := BitVec.ofNat 8 reason,
    lastFrame := if st == .ok then l.lastFrame else BitVec.ofNat 32 frame })
  match l.req with
  | some q => complete q st (loadResult phase reason tile frame) s1
  | none => s1

/-- A tile of a failed target: stopped, flip-flops at INIT, converters, comparators and analogue outputs off (R340). -/
def failedTile (x : Tile) : Tile :=
  { x with cyc := { CycState.cold with clk := x.cyc.clk, clkN := x.cyc.clkN, clkPosted := x.cyc.clkPosted, unlockedAt := x.cyc.unlockedAt },
           fab := { x.fab with ffs := ffsInit x, held := true, writesOn := false, clocksOn := false, portA := [], level := 0 },
           an := { x.an with connected := false, changes := [] }, cv := CvState.cold, ct := CtState.cold, edges := [],
           net := { x.net with shut := .shut, stalled := false } }

/-- A failed partial load: the casement is FAILED, its pins sill-held or resistor-defined. -/
def failPartial (s : State) (c : Nat) : State := match getCase s c with
  | none => s
  | some k =>
    let s0 := dropReset (endCasePending true s c) c
    let s1 := if k.floatPins then floatPinsOf s0 (casePins s c) else sillHold s0 (casePins s c)
    let s2 := modTiles s1 (tilesOf k.region) (fun _ x => failedTile x)
    settleFabric s (settleTins (modCase s2 c (fun k => { k with st := .failed, startUp := none })))

/-- A failed full load: no casement exists, and every tile is in the spare pool. -/
def failFull (s : State) : State :=
  let s1 := (s.cases.map (·.1)).foldl (fun s c => unbindCase (dropReset (endCasePending true s c) c) c) s
  let s2 := floatPinsOf s1 (s1.dev.pinCase.map (·.1))
  let s3 := allTiles.foldl (fun s t => poolTile s (fun _ => []) t) { s2 with cases := [], dev := { s2.dev with pinCase := [], trunks := [], changed := 0 } }
  settleFabric s (settleTins (modLoad s3 (fun l => { l with fullFailed := true })))

/-- A pass of a shadow creation fails: its spares return to the pool, and JNL_SHADOW completes (R396). -/
def shadowStop (s : State) (st : Status) (res : Nat) : State := match s.hub.shadow with
  | none => s
  | some p =>
    let s1 := p.map.foldl (fun s m => dropSpare s m.2) (modHub s (fun h => { h with shadow := none }))
    complete p.req st res (restLoader s1)

/-- A load, or a pass that a promotion or a shadow makes, is refused or fails (R336, R340, R370, R396). -/
def loadStop (s : State) (st : Status) (reason tile frame : Nat) : State :=
  match s.load.purpose with
  | .promote => endPromo s st (256 * reason)
  | .shadow => shadowStop s st (256 * reason)
  | .load =>
    let p := phaseCode s.load.phase
    match s.load.phase with
    | .idle => s
    | .pass1 => loadEnd (post s 0x103 3 (statusCode st) reason (frame % 65536)) st p reason tile frame
    | .takeover | .pass2 | .startUp =>
      let s1 := if s.load.full then failFull s else failPartial s s.load.case_.val
      settleFaultN (loadEnd (post s1 0x104 3 (statusCode st) reason (frame % 65536)) st p reason tile frame)

/-! ### A fail-silent tile of the target (R345) -/

/-- The image's role of a tile, from the frames of pass 1 (R326 class 0x31). -/
def imageRole (fs : List Frame) (t : Nat) : Option Nat :=
  (fs.find? (fun f => f.addr.toNat = cfgAddr 0x31 0 && f.mask.getLsbD t)).map (fun f => byteAt f.payload 0)

/-- Another tile of the target holds the image's role of a tile and is healthy: neither fail-silent nor RETIRED. -/
def imagePartner (s : State) (t : Nat) : Bool := match imageRole s.load.frames t with
  | some r => allTiles.any (fun u => u != t && imageRole s.load.frames u == some r && shutterCounts (getTile s u))
  | none => true

/-- A tile of a load's target in pass 2 or start-up whose image role has no healthy partner. -/
def breaksLoad (s : State) (t : Nat) : Bool :=
  s.load.purpose == .load && (s.load.phase == .pass2 || s.load.phase == .startUp) &&
    (match caseOfTile s t with
     | some p => p.2.st == .loading
     | none => s.load.full && s.load.phase == .pass2) && !imagePartner s t

/-- A tile has gone fail-silent: a load that cannot do without it fails. -/
def loadLoses (s : State) (t : Nat) : State := if breaksLoad s t then loadStop s .busy 19 t noFrame else s

end Sys2Proof.Machine
end

