-- ==== Sys2Proof/Machine/RecOps.lean ====
section
/-! DEFINITION. The writing of records, their places and numbers, the rate limit and the power-up of the event
recorder (spec/16_event_recorder.md). -/

namespace Sys2Proof.Machine

/-- Slots of the recorder (R400). -/
def recSlots : Nat := 524288

/-- The 40-bit sequence number of the next record (R403). -/
def recSeq (r : Recorder) : Nat := r.counts.wrap.toNat * recSlots + r.next

/-- The 16 bytes of a record (R400). -/
def recBytes (e : Rec) : List Byte :=
  leBytes 8 e.time.toNat ++ leBytes 2 (e.code.toNat + 2 ^ 12 * e.src.toNat) ++ [e.flags, 0] ++ leBytes 4 e.arg.toNat

/-- The state block committed to the copy that is not in use (R405, R231). -/
def recCommit (r : Recorder) : Recorder :=
  let old := if r.useB then r.copyB else r.copyA
  let c : RecCopy := { block := r.counts, seqNo := old.seqNo + 1, crcGood := true, mark := 0xA5 }
  if r.useB then { r with copyA := c, useB := false } else { r with copyB := c, useB := true }

/-- A record written in the next slot; at the last slot the wrap count rises and the block is committed (R403 to
R405). -/
def recPut (r : Recorder) (e : Rec) : Recorder :=
  let r1 := { r with slots := mset r.slots r.next e }
  let r2 := if r.counts.wrap = 0 then r1 else { r1 with counts := { r1.counts with overwritten := r1.counts.overwritten + 1 } }
  if r.next + 1 < recSlots then { r2 with next := r.next + 1 }
  else recCommit { r2 with next := 0, counts := { r2.counts with wrap := r2.counts.wrap + 1 } }

/-- The flags of a record written now (R401). -/
def recFlags (r : Recorder) (summary held : Bool) : Byte :=
  BitVec.ofNat 8 (summary.toNat + 2 * held.toNat + 64 * (r.counts.wrap.getLsbD 0).toNat + 128)

/-- A kind 0x02 entry for a record and its sequence number (R412). -/
def notifyEntry (e : Rec) (n : Nat) : List Byte :=
  leBytes 2 (e.code.toNat + 2 ^ 12 * e.src.toNat) ++ [e.flags, 0, 0x02, 0] ++ leBytes 2 1 ++ leBytes 5 n ++ [0, 0, 0]

/-- A record is written, and every ring whose set holds its code gets one entry (R412). -/
def recWrite (s : State) (writeOk : Bool) (time : Time) (code : BitVec 12) (src : BitVec 4) (arg : BitVec 32)
    (summary held : Bool) : State :=
  let e : Rec := { time := time, code := code, src := src, flags := recFlags s.rcd summary held, arg := arg }
  let n := recSeq s.rcd
  let s1 := modRcd s (fun r => recPut r e)
  (s.rcd.notify.filter (fun b => b.2.getLsbD code.toNat)).foldl (fun s b =>
    (putEntryIo s writeOk b.1 (entryKey 2 (code.toNat + 2 ^ 12 * src.toNat)) (notifyEntry e n)).2) s1

/-- A code that is never limited (R408). -/
def neverLimited (code : Nat) : Bool := decide (code < 0x100) || (0xB00 ≤ code && code < 0xC00)

/-- A posting takes a token: none is left where it answers none (R408). -/
def takeToken (s : State) (code : Nat) : Option State :=
  if neverLimited code then some s
  else
    let b := getBucket s code
    if b.tokens = 0 then none
    else some (setBucket s code { b with
      tokens := b.tokens - 1, running := true, since := if b.running then b.since else s.dev.now })

/-- The new settings of REC_LIMIT: BURST tokens, and no PERIOD runs (R408). -/
def setLimit (s : State) (q : Req) : State :=
  let code := dW16 q.d 28
  setBucket s code { getBucket s code with
    burst := dByte q.d 30, period := dW16 q.d 32, tokens := dByte q.d 30, running := false, suppressed := 0 }

/-- Records that the queue holds (R409). -/
def queueLoad (ws : List RecWait) : Nat :=
  ws.foldl (fun n w => n + match w.ev.kind with | .timePair _ => 2 | _ => 1) 0

/-- An event joins the recorder's queue. -/
def recQueue (s : State) (writeOk : Bool) (e : Ev) : State :=
  modRcd s (fun r => { r with queue := r.queue ++ [{ ev := e, writeOk := writeOk }] })

/-- An event reaches the recorder: a posting takes a token and joins the queue, or is suppressed (R408, R409). -/
def recTake (s : State) (writeOk : Bool) (e : Ev) : State :=
  match e.kind with
  | .plain => match takeToken s e.code.toNat with
    | some s1 => recQueue s1 writeOk e
    | none => suppress s e.code.toNat e.src
  | .hostPost q => match takeToken s e.code.toNat with
    | some s1 => recQueue s1 writeOk e
    | none => complete q .ok (2 ^ 64 - 1) (suppress s e.code.toNat e.src)
  | .summary | .timePair _ | .limit _ => recQueue s writeOk e

/-- What stands at the head of the queue is written, and its descriptor completes (R407, R408, R412). -/
def recFrom (s : State) (writeOk : Bool) (e : Ev) : State :=
  match e.kind with
  | .plain => recWrite s writeOk e.time e.code e.src e.arg false e.held
  | .summary => recWrite s writeOk e.time e.code e.src e.arg true false
  | .hostPost q => complete q .ok (recSeq s.rcd) (recWrite s writeOk e.time e.code e.src e.arg false false)
  | .timePair q =>
    let s1 := recWrite s writeOk e.time 0xB02 7 (BitVec.ofNat 32 (dW32 q.d 32)) false false
    let s2 := recWrite s1 writeOk e.time 0xB03 7 (BitVec.ofNat 32 (dW32 q.d 36)) false false
    complete q .ok e.time.toNat (modRcd s2 (fun r => { r with timeSet := e.time }))
  | .limit q =>
    let b := getBucket s e.code.toNat
    let s1 := if b.suppressed = 0 then s
      else recWrite s writeOk e.time e.code b.src (BitVec.ofNat 32 b.suppressed) true false
    complete q .ok 0 (setLimit s1 q)

/-- At most one record in 500 ns: the recorder writes 2,000,000 records a second while its queue holds any (R409). -/
def recTick (s : State) : State := match s.rcd.queue with
  | [] => s
  | w :: ws =>
    if s.dev.inReset != .none || decide (s.dev.now.toNat < s.rcd.free.toNat) then s
    else recFrom (modRcd s (fun r => { r with queue := ws, free := s.dev.now + BitVec.ofNat 64 (500 * queueLoad [w]) }))
      w.writeOk w.ev

/-- The queue has room for what an event brings; otherwise its source holds it (R409). -/
def queueRoom (s : State) (e : Ev) : Bool :=
  decide (queueLoad s.rcd.queue + queueLoad [{ ev := e, writeOk := true }] ≤ 1024)

/-- A record of the recorder's own joins its queue behind the older events on their way (R403, R408). -/
def recOwn (s : State) (e : Ev) : State :=
  if s.rcd.posted.all (fun f => f.held || f.time == e.time) && queueRoom s e then recTick (recQueue s true e) else postEv s e

/-- Event i of those on their way may reach the recorder next: only held events, or events of the same device time,
stand before it (R403). -/
def mayPost (evs : List Ev) (i : Nat) : Bool :=
  match evs[i]? with
  | some e => e.held || (evs.take i).all (fun f => f.held || f.time == e.time)
  | none => false

/-! ### Power-up of VAUX (R406) -/

def recCopyGood (c : RecCopy) : Bool := c.mark == 0xA5 && c.crcGood

/-- The copy of the state block that R232's table chooses, with its repair; true where neither is good. -/
def recChoose (r : Recorder) : Bool × Recorder :=
  match recCopyGood r.copyA, recCopyGood r.copyB with
  | true, true =>
    let b := decide (r.copyA.seqNo.toNat < r.copyB.seqNo.toNat)
    (false, { r with useB := b, counts := (if b then r.copyB else r.copyA).block })
  | true, false => (false, { r with useB := false, counts := r.copyA.block,
                                    copyB := if r.copyB.mark == 0xA5 then r.copyA else r.copyB })
  | false, true => (false, { r with useB := true, counts := r.copyB.block,
                                    copyA := if r.copyA.mark == 0xA5 then r.copyB else r.copyA })
  | false, false => (true, { r with useB := false, counts := RecBlock.zero })

/-- VALID and LAP of a slot. -/
def slotLap (r : Recorder) (k : Nat) : Option Bool := match mfind r.slots k with
  | some e => if e.flags.getLsbD 7 then some (e.flags.getLsbD 6) else none
  | none => none

/-- The next slot: the first that is not VALID, or whose LAP differs from slot 0's. Every listed slot below it is
VALID, so a scan of the listed slots finds it. -/
def findNext (r : Recorder) : Nat → Map Rec → Nat
  | k, [] => if k < recSlots then k else 0
  | k, (j, e) :: m =>
    if j = k && e.flags.getLsbD 7 && slotLap r 0 == some (e.flags.getLsbD 6) then findNext r (k + 1) m else k

/-- The recorder after a power-up of VAUX: block, next slot, device time, power-cycle count and its records. -/
def recPowerUp (s : State) : State :=
  let c := recChoose s.rcd
  let r := c.2
  let next := findNext r 0 r.slots
  let lap0 := slotLap r 0
  let wrap := if lap0.isSome && lap0 != some (r.counts.wrap.getLsbD 0) then r.counts.wrap + 1 else r.counts.wrap
  let stored := r.ring.foldl (fun m p => max m p.2.1.toNat) 0
  let newest := r.slots.foldl (fun m p => if p.2.flags.getLsbD 7 then max m p.2.time.toNat else m) 0
  let now := BitVec.ofNat 64 (max stored newest + 1)
  let gap := (slotLap r next).isNone
  let r1 := recCommit { r with
    next := next,
    counts := { wrap := wrap, powerCycles := r.counts.powerCycles + 1,
                overwritten := if c.1 then 0 else BitVec.ofNat 64 (wrap.toNat * recSlots + next - recSlots) },
    posted := [], queue := [], free := now, ringDue := now + 2 ^ 20, suppressed := 0,
    buckets := mmap (fun _ b => { b with tokens := b.burst, running := false, suppressed := 0 }) r.buckets }
  let s1 := modDev { s with rcd := r1 } (fun d => { d with now := now })
  let s2 := if gap then recWrite s1 true now 0xB04 0 0 false false else s1
  let s3 := recWrite s2 true now 0xB01 0 r1.counts.powerCycles false false
  if c.1 then recWrite s3 true now 0xB05 0 0 false false else s3

end Sys2Proof.Machine
end

