-- ==== Sys2Proof/Machine/CloseOps.lean ====
section
/-! DEFINITION. The lintel of a casement up to its close: hubs, closes, what a casement does when its last tile has
closed, and a tile going fail-silent (spec/03_emulated_cycles.md R84 to R99, spec/14_continuity.md R361 to R365). -/

namespace Sys2Proof.Machine

/-! ### Hubs (R84, R88) -/

/-- Tiles of the barrier mask in a sector. -/
def maskIn (k : Casement) (sec : Nat) : List Nat := (tilesOf k.chan.mask).filter (fun t => sectorOf t = sec)

/-- A tile waits at the lintel for CLOSE, or runs its programme. -/
def beforeClose (y : CycState) : Bool := !y.closeSig && (y.phase == .stepping || y.phase == .barrier)

/-- Bit of `done`: hub s knows that sector k is done. -/
def doneBit (s k : Nat) : Nat := 4 * s + k

/-- Hub s sends CLOSE to its tiles once every sector with tiles in the mask is known to be done. -/
def hubClose (s : State) (c sec : Nat) : State := match getCase s c with
  | none => s
  | some k =>
    let ts := maskIn k sec
    if ts.isEmpty || !ts.all (fun t => k.chan.arrived.getLsbD t) then s
    else
      let ch := { k.chan with done := setBit k.chan.done (doneBit sec sec) true }
      if (List.range 4).all (fun j => (maskIn k j).isEmpty || ch.done.getLsbD (doneBit sec j)) then
        let first := (tilesOf k.chan.mask).all (fun t => beforeClose (getTile s t).cyc)
        let s1 := modTiles s ts (fun _ x => { x with cyc := { x.cyc with closeSig := true, closeEdges := 0 } })
        let s2 := modCase s1 c (fun k => { k with chan := { ch with
          arrived := ts.foldl (fun m t => setBit m t false) ch.arrived,
          done := (List.range 4).foldl (fun d j => setBit d (doneBit sec j) false) ch.done } })
        if first then decideCkpt s2 c (k.chan.closeDone + 1) else s2
      else modCase s c (fun k => { k with chan := ch })

/-- Every hub of a casement acts on what it knows. -/
def hubsGo (s : State) (c : Nat) : State := (List.range 4).foldl (fun s j => hubClose s c j) s

/-- Sector j has finished the cycle that hub `sec` gathers. -/
def sectorDoneNow (s : State) (k : Casement) (sec j : Nat) : Bool :=
  match (maskIn k sec).find? (fun t => beforeClose (getTile s t).cyc) with
  | none => false
  | some t =>
    let n := (getTile s t).cyc.cycle.toNat
    k.chan.done.getLsbD (doneBit j j) || (maskIn k j).all (fun u =>
      let y := (getTile s u).cyc
      decide (n < y.cycle.toNat) || (y.cycle.toNat == n && (y.closeSig || y.phase == .closed)))

/-- SECTOR_DONE from sector j reaches hub `sec`. -/
def takeSectorDone (s : State) (c sec j : Nat) : State := match getCase s c with
  | none => s
  | some k =>
    if j != sec && sectorDoneNow s k sec j then
      hubClose (modCase s c (fun k => { k with chan := { k.chan with done := setBit k.chan.done (doneBit sec j) true } })) c sec
    else s

/-- ARRIVE of a tile in the mask reaches its hub. -/
def takeArrive (s : State) (c sec t : Nat) : State :=
  let y := (getTile s t).cyc
  if y.phase == .barrier && !y.closeSig then
    hubClose (modCase s c (fun k => { k with chan := { k.chan with arrived := setBit k.chan.arrived t true } })) c sec
  else s

/-- Every tile of the mask stands between the close of one cycle and the release of the next. -/
def betweenCycles (s : State) (k : Casement) : Bool :=
  (tilesOf k.chan.mask).all (fun t =>
    let y := (getTile s t).cyc
    y.phase == .closed && y.cycle.toNat + 1 == k.chan.closeDone)

/-- A hub finds a fault: HOLD and BARRIER_FAULT. A casement that stands between a close and a release is HELD at once;
any other after the close at which the fault was seen (R88). -/
def barrierFault (s : State) (c sec wireIdx : Nat) : State := match getCase s c with
  | none => s
  | some k0 =>
    let still := k0.st == .paused || (k0.st == .running && betweenCycles s k0)
    settleFaultN (epochSettle (post (modCase s c (fun k => { k with
      chan := { k.chan with fault := true }, st := if still then .held else k.st })) 0x686 3 sec c wireIdx))

/-! ### DOZE and SLEEP at a lintel -/

/-- Timer counts of a casement's tiles held as their clocks stop (R418, R428). -/
def holdTimers (s : State) (ts : List Nat) : State :=
  ts.foldl (fun s t => (List.range 8).foldl (fun s k =>
    if (getTmr (getTile s t) k).running then modTmr s t k (fun m => { m with count := tmCount s t k, since := s.dev.now }) else s) s) s

/-- A paused casement enters DOZE: its clocks are gated (R420). -/
def enterDoze (s : State) (c : Nat) (from_ : CaseSt) : State := match getCase s c with
  | none => s
  | some k =>
    let s1 := modTiles (holdTimers s (tilesOf k.region)) (tilesOf k.region) (fun _ x => { x with fab := { x.fab with level := 0 } })
    postPwr (modCase s1 c (fun k => { k with pwr := .doze, pwrFrom := from_ })) c .doze k.pwr

/-- PWR_SLEEP goes on once every casement is paused: pads sill-held, recorder committed, completion written (R423). -/
def sleepGo (s : State) : State := match s.dev.sleepReq.getLast? with
  | none => s
  | some q =>
    if s.cases.any (fun p => p.2.st == .running) then s
    else
      let s1 := sillHold s (s.dev.pinCase.map (·.1))
      let s2 := modRcd s1 recCommit
      let alarm := dW64 q.d 32
      let s3 := modDev s2 (fun d => { d with
        sleepReq := [], sleep := .entering, sleepAt := d.now, alarm := BitVec.ofNat 64 alarm, wake := false })
      s.dev.sleepReq.foldl (fun s q => complete q .ok s.dev.now.toNat s) (post s3 0x004 0 0 0 (decide (alarm != 0)).toNat)

/-! ### The close of a casement -/

/-- Every tile of the barrier mask has made the close of cycle n. -/
def allClosed (s : State) (k : Casement) (n : Nat) : Bool :=
  k.chan.mask != 0 && (tilesOf k.chan.mask).all (fun t =>
    let y := (getTile s t).cyc
    (y.phase == .closed && y.cycle.toNat == n) || (n < y.cycle.toNat && y.cycle != 0xFFFFFFFFFFFFFFFF))

/-- Records of a close: outputs, and digests at their interval (R380, R383, R385). -/
def journalClose (s : State) (c n : Nat) : State := match getCase s c with
  | none => s
  | some k =>
    if !jnlOn k || k.jnl.gapFrom.isSome then s
    else
      let s1 := jnlOutputs s c n (k.jnl.full || n == 0)
      match k.jnl.digestL with
      | some l => if n % 2 ^ l = 0 then jnlDigests s1 c n else s1
      | none => s1

/-- A promotion of the casement goes on at a close: the copy begins, or the epoch change is asked for (R371 steps 4 and
5). -/
def promoClose (s : State) (c : Nat) : State := match s.hub.promo with
  | none => s
  | some p =>
    if p.case_.val != c then s
    else match p.stage with
      | .loaded => modHub s (fun h => { h with promo := some { p with stage := .copying, dirty := [] } })
      | .copied =>
        let e := roleEntry (hubBank s) p.role
        requestEpoch (modHub s (fun h => { h with promo := some { p with stage := .switching } }))
          { why := .promote, avoid := none,
            roles := [(p.role, mkEntry p.survivor.val true p.spare.val true (nextTenure (rtTenure e)) (rtCase e) 1)] }
      | .passes | .copying | .switching | .effective => s

/-- The hub stops the casement after the close of cycle n. -/
def stopsAfter (k : Casement) (n : Nat) : Bool :=
  k.halt || k.chan.fault || k.pause.any (fun p => p.1.toNat ≤ n) || k.stepTo.any (fun p => decide (p.1.toNat ≤ n))

/-- PWR_STATE descriptors of a casement that is HELD or STOPPED before its state is reached end with BUSY (R427). -/
def dropEntry (s : State) (c : Nat) : State := match getCase s c with
  | none => s
  | some k =>
    let s1 := modCase s c (fun k => { k with pwrWant := [], wake := false })
    (k.pwrWant.map (·.2)).foldl (fun s q => complete q .busy 0 s) s1

/-- A casement stops between the close of cycle n and a release: PAUSED, or HELD for a barrier fault; what waited for
the pause goes on. -/
def pauseAt (s : State) (c n : Nat) : State := match getCase s c with
  | none => s
  | some k =>
    let s1 := modCase s c (fun k => { k with st := if k.chan.fault then .held else .paused, halt := false, flipAt := none })
    let s2 := match k.pause with
      | some p => if p.1.toNat ≤ n then complete p.2 .ok n (modCase s1 c (fun k => { k with pause := none })) else s1
      | none => s1
    let s3 := (k.stepTo.filter (fun p => p.1.toNat ≤ n)).foldl (fun s p => complete p.2 .ok n s)
      (modCase s2 c (fun k => { k with stepTo := k.stepTo.filter (fun p => !(p.1.toNat ≤ n)) }))
    let s4 := if k.chan.fault then dropEntry s3 c else match k.pwrWant with
      | (.doze, _) :: _ => pwrReached (enterDoze s3 c .running) c .doze n
      | _ => s3
    settleFaultN (sleepGo (stopGo (epochSettle s4) c))

/-- Once the last tile of a casement has closed cycle n, everything of that close which concerns the casement is done:
the journal or the replay, a checkpoint, a promotion, a pause, a HOLD for an epoch change (R84, R251, R390, R394). -/
def settleLintel (s : State) (c : Nat) : State := match getCase s c with
  | none => s
  | some k =>
    let n := k.chan.closeDone
    if k.st != .running || !allClosed s k n then s
    else
      let s1 := if k.replay.isSome then replayClose s c n else journalClose s c n
      let s2 := modCase s1 c (fun k => { k with chan := { k.chan with closeDone := n + 1 } })
      let s3 := promoClose (beginCkpt (modJnlCase s2 c (fun j => { j with full := false })) c (n + 1)) c
      let s4 := modCase s3 c (fun k => { k with chan := { k.chan with
        epochHold := k.flipAt.any (fun f => decide (f.toNat ≤ n + 1)) && !caseAcked s3 k } })
      match getCase s4 c with
      | none => s4
      | some k1 => if k1.st == .running && !stopsAfter k1 n then s4 else pauseAt s4 c n

/-! ### The close of a tile -/

/-- Entries of a BP_PEEK, in the layout of R61. -/
def peekBits (x : Tile) (q : Req) : List Byte :=
  let n := dW16 q.d 34
  let m := dByte q.d 31
  let v := (List.range (m * n)).foldl (fun v k =>
    if valueEntry x (dByte q.d 29) (dByte q.d 30 + k / n) (dW16 q.d 32 + k % n) then v + 2 ^ k else v) 0
  leBytes ((m * n + 7) / 8) v

/-- What a peek copies to the host. -/
def peekBytes (x : Tile) (p : Peek) : List Byte := match p.kind with
  | .bp => peekBits x p.req
  | .mem => memGets zeroes x.bp.emem (8192 * dByte p.req.d 29 + 4 * dW16 p.req.d 32) (4 * dW16 p.req.d 34)
  | .boundary => vecBytes x.bp.inB ++ vecBytes x.bp.outB

/-- Opcode of a peek. -/
def peekOp : PeekKind → Nat
  | .bp => 0x30
  | .mem => 0x32
  | .boundary => 0x3B

/-- Bits that a peek reads. -/
def peekSize (p : Peek) : Nat := match p.kind with
  | .bp => reqBits p.req false
  | .mem => reqBits p.req true
  | .boundary => 512

/-- A peek served from a tile: the copy, and the completion with the cycle (R62). -/
def servePeek (t n : Nat) (s : State) (p : Peek) : State :=
  if p.req.io.bufOk then complete p.req .ok n (hostWrite s p.req.host p.req.d.addrA (peekBytes (getTile s t) p))
  else dmaFail (peekOp p.kind) p.req s

/-- Digests of a pair whose tiles have both closed the cycle are compared (R361, R362). -/
def comparePair (s : State) (c t n : Nat) : State := match getCase s c, partnerOf s t with
  | some k, some m =>
    let x := getTile s t
    let y := getTile s m
    if !k.chan.mask.getLsbD t || !k.chan.mask.getLsbD m || y.cyc.phase != .closed || y.cyc.cycle != x.cyc.cycle ||
        x.bp.handed == y.bp.handed then s
    else
      let s1 := modCase s c (fun k => { k with
        disagreements := k.disagreements + 1, lastDisagree := BitVec.ofNat 64 n, halt := k.halt || k.dupPause })
      post s1 0x207 3 c (roleByte s t) n
  | _, _ => s

/-- One unit of each scrub pass done: a word of the instruction and exchange stores of 1,024, a dictionary entry of 4,096,
a slot row of 12, a memory word of 2,048; full passes of the instruction store are counted (R55, R67). -/
def scrubUnitDone (b : BpState) : BpState :=
  { b with scrubWord := (b.scrubWord + 1) % 1024, scrubEntry := (b.scrubEntry + 1) % 4096,
           scrubRow := (b.scrubRow + 1) % 12, scrubMem := (b.scrubMem + 1) % 2048,
           scrubPasses := if b.scrubWord + 1 < 1024 then b.scrubPasses else bump b.scrubPasses }

/-- A tile's lintel close: outputs take their staging values, peeks are served, the checkpoint bank swaps, digests are
handed over and compared (R84 step 4, R49, R64, R86, R361, R390). -/
def closeTile (s : State) (c t : Nat) : State := match getCase s c with
  | none => s
  | some k =>
    let x := getTile s t
    let n := x.cyc.cycle.toNat
    let served := x.cyc.peeks.filter (fun p => p.cyc.toNat ≤ n)
    let cost := served.foldl (fun a p => a + pokeCost (peekSize p)) 0
    let s1 := settleFabric s (modTile s t (fun x =>
      let b := { x.bp with outB := x.bp.staging }
      let b2 := { b with handed := if formsDigest s t then crc64 b.digest (vecBytes b.staging) else b.handed,
                         ckptBank := if k.jnl.taking then some (snapOf { x with bp := b } k.depth) else b.ckptBank }
      { x with bp := b2, cyc := { x.cyc with
        phase := .closed, barrier := 0, closeSig := false, closeEdges := 0, stallSince := none, stallPosted := false, peeks := x.cyc.peeks.filter (fun p => !(p.cyc.toNat ≤ n)),
        stalls := { x.cyc.stalls with lintel := x.cyc.stalls.lintel + BitVec.ofNat 64 cost } } }))
    settleLintel (comparePair (served.foldl (servePeek t n) s1) c t n) c

/-! ### Bundles of duplex senders (R79, R248) -/

/-- A bundle passed to the checks of R79: it is buffered, or discarded with BUNDLE_UNEXPECTED. -/
def bufferBundle (s : State) (t : Nat) (srcRole : Nat) (b : Bundle) : State :=
  let x := getTile s t
  let w := importWord x b.imp
  let n := x.cyc.cycle.toNat
  let now := n % 2 ^ 32
  let next := (n + 1) % 2 ^ 32
  let bad := x.cyc.phase == .idle || !bitAt w 49 || recBits w 18 9 != b.octets || recBits w 41 8 != srcRole ||
    (b.tag.toNat != now && b.tag.toNat != next) ||
    x.cyc.bundles.any (fun d => d.imp = b.imp && d.tag == b.tag) || (b.tag.toNat == now && x.cyc.landed.contains b.imp)
  if bad then
    postTile (modCyc s t (fun y => { y with unexpected := bump y.unexpected })) t 0x682 1 t (caseByte s t) b.imp
  else modCyc s t (fun y => { y with bundles := y.bundles ++ [b] })

/-- The reference tile of a role has gone fail-silent: its partner's held copies not yet passed go to R79 (R248). -/
def passHeld (s : State) (t : Nat) (role partner : Nat) : State :=
  let ready := (getTile s t).cyc.held.filter (fun b => b.src.val = partner)
  ready.foldl (fun s b =>
    let s1 := modCyc s t (fun y => { y with held := y.held.erase b, passed := y.passed ++ [(b.imp, b.tag)] })
    bufferBundle s1 t role b) s

/-! ### Fail-silent (R364, R365) -/

/-- The release under way of a casement is over where the tile that has left the mask was the last to make it (R89,
R90, R96). -/
def releaseLeft (s : State) (c : Nat) : State := match getCase s c with
  | some k => if k.st == .running then lastRelease s c (BitVec.ofNat 64 k.chan.releaseDone) else s
  | none => s

/-- A tile goes fail-silent with a cause of TILE_STATUS byte 3 (R364, R89, R248, R345, R372). -/
def goSilent (s : State) (t cause : Nat) : State :=
  if (getTile s t).ctl.failSilent then s
  else
    let role := roleOf s t
    let partner := partnerOf s t
    let wasRef := rtTile0 (entryOf s t) = t
    let cs := (caseOfTile s t).map (·.1)
    let s1 := leaveMask (modTile s t (fun x => { x with
      ctl := { x.ctl with failSilent := true, cause := BitVec.ofNat 8 cause },
      net := { x.net with localSt := .retired, shut := .shut }, an := { x.an with cut := true } })) t
    let s2 := postTile s1 t 0x204 1 t cause 0
    let s3 := match partner with
      | some m => handOver s2 t m
      | none => s2
    let s4 := match role, partner, caseOfTile s t with
      | some r, some m, some p => if wasRef then (tilesOf p.2.region).foldl (fun s u => passHeld s u r m) s3 else s3
      | _, _, _ => s3
    let s5 := match s4.hub.promo with
      | some p => if p.spare.val = t && p.stage != .effective then
          modTile (endPromo s4 .busy 0x300) t (fun x => { x with
            ctl := { x.ctl with failSilent := true }, net := { x.net with localSt := .retired } })
        else s4
      | none => s4
    let s6 := match cs with
      | some c => releaseLeft (settleLintel (hubsGo s5 c) c) c
      | none => s5
    loadLoses (settleFabric s (epochSettle s6)) t

end Sys2Proof.Machine
end

