-- ==== Sys2Proof/Machine/Crypto.lean ====
section
/-! DEFINITION. The cryptographic functions that the spec names by their standards: SHA-384 (FIPS 180-4), ECDSA over
P-384 (FIPS 186-5) and AES-256-GCM (SP 800-38D), which R328 to R330 and R348 use. The standards' constants are not in the
spec (assumption 28). -/

namespace Sys2Proof.Machine

/-- The number that bytes hold, most significant first, as the standards write numbers. -/
def beNat (l : List Byte) : Nat := l.foldl (fun n b => 256 * n + b.toNat) 0

/-- The n low bytes of a number, most significant first. -/
def beBytes (n v : Nat) : List Byte := (leBytes n v).reverse

/-! ### SHA-384 -/

/-- The largest r of at most n bits with r ^ k not above m. -/
def rootOf (k m : Nat) : Nat → Nat
  | 0 => 0
  | n + 1 =>
    let r := rootOf k (m >>> k) n * 2
    if (r + 1) ^ k ≤ m then r + 1 else r

/-- The primes below 410: the first 80. -/
def smallPrimes : List Nat :=
  ((List.range 410).drop 2).filter (fun p => ((List.range 21).drop 2).all (fun q => p % q != 0 || q == p))

/-- The first 64 bits of the fraction of the k-th root of a prime: how FIPS 180-4 makes its constants. -/
def rootBits (k p : Nat) : BitVec 64 := BitVec.ofNat 64 (rootOf k (p <<< (64 * k)) 70)

/-- The 80 round constants, from cube roots. -/
def shaConstants : List (BitVec 64) := smallPrimes.map (rootBits 3)

/-- The initial hash value of SHA-384, from the square roots of the ninth to the sixteenth prime. -/
def shaIv : List (BitVec 64) := ((smallPrimes.drop 8).take 8).map (rootBits 2)

/-- One word added to the message schedule. -/
def shaNext (w : List (BitVec 64)) : BitVec 64 :=
  let t := w.length
  let a := w.getD (t - 2) 0
  let b := w.getD (t - 15) 0
  (a.rotateRight 19 ^^^ a.rotateRight 61 ^^^ (a >>> 6)) + w.getD (t - 7) 0 +
    (b.rotateRight 1 ^^^ b.rotateRight 8 ^^^ (b >>> 7)) + w.getD (t - 16) 0

/-- The message schedule of a block of 128 bytes. -/
def shaSchedule (blk : List Byte) : List (BitVec 64) :=
  (List.range 64).foldl (fun w _ => w ++ [shaNext w])
    ((List.range 16).map (fun i => BitVec.ofNat 64 (beNat (slice blk (8 * i) 8))))

/-- One round on the eight working variables, with its constant and schedule word added up. -/
def shaRound (v : List (BitVec 64)) (kw : BitVec 64) : List (BitVec 64) := match v with
  | [a, b, c, d, e, f, g, h] =>
    let t1 := h + (e.rotateRight 14 ^^^ e.rotateRight 18 ^^^ e.rotateRight 41) + ((e &&& f) ^^^ (~~~ e &&& g)) + kw
    let t2 := (a.rotateRight 28 ^^^ a.rotateRight 34 ^^^ a.rotateRight 39) + ((a &&& b) ^^^ (a &&& c) ^^^ (b &&& c))
    [t1 + t2, a, b, c, d + t1, e, f, g]
  | _ => v

/-- The hash value after a block. -/
def shaBlock (h : List (BitVec 64)) (blk : List Byte) : List (BitVec 64) :=
  List.zipWith (· + ·) h
    ((List.zipWith (· + ·) shaConstants (shaSchedule blk)).foldl shaRound h)

/-- The message padded to whole blocks. -/
def shaPad (m : List Byte) : List Byte :=
  m ++ [0x80] ++ List.replicate ((239 - m.length % 128) % 128) 0 ++ beBytes 16 (8 * m.length)

/-- The SHA-384 digest of a byte string: 48 bytes. -/
def sha384 (m : List Byte) : List Byte :=
  let p := shaPad m
  let h := (List.range (p.length / 128)).foldl (fun h k => shaBlock h (slice p (128 * k) 128)) shaIv
  (h.take 6).flatMap (fun w => beBytes 8 w.toNat)

/-! ### ECDSA over P-384 -/

/-- The field prime, the group order, the coefficient b and the base point of P-384. -/
def ecP : Nat := 2 ^ 384 - 2 ^ 128 - 2 ^ 96 + 2 ^ 32 - 1
def ecN : Nat := 0xffffffffffffffffffffffffffffffffffffffffffffffffc7634d81f4372ddf581a0db248b0a77aecec196accc52973
def ecB : Nat := 0xb3312fa7e23ee7e4988e056be3f82d19181d9c6efe8141120314088f5013875ac656398d8a2ed19d2a85c8edd3ec2aef
def ecG : Nat × Nat :=
  (0xaa87ca22be8b05378eb1c71ef320ad746e1d3b628ba79b9859f741e082542a385502f25dbf55296c3a545e3872760ab7,
   0x3617de4a96262c6f5d9e98bf9292dc29f8f41dbd289a147ce9da3113b5f0b8c00a60b1ce1d7e819d7a431d7c90ea0e5f)

/-- a to the power of the number with these bits, least significant first, modulo m. -/
def powBits (m : Nat) : Nat → List Bool → Nat
  | _, [] => 1 % m
  | a, b :: r => let q := powBits m (a * a % m) r; if b then a * q % m else q

/-- The 384 low bits of a number, least significant first. -/
def bits384 (v : Nat) : List Bool := (List.range 384).map (fun i => v.testBit i)

/-- The inverse of a number modulo a prime below 2^384. -/
def invMod (m a : Nat) : Nat := powBits m (a % m) (bits384 (m - 2))

/-- A point of the curve, none at infinity. -/
abbrev EcPoint : Type := Option (Nat × Nat)

/-- The third point on a line of slope l through two points, mirrored. -/
def ecThird (l x1 y1 x2 : Nat) : EcPoint :=
  let x := (l * l + 2 * ecP - x1 - x2) % ecP
  some (x, (l * (x1 + ecP - x) + ecP - y1) % ecP)

/-- The sum of two points. -/
def ecAdd : EcPoint → EcPoint → EcPoint
  | none, q => q
  | p, none => p
  | some (x1, y1), some (x2, y2) =>
    if x1 = x2 then
      if y1 = y2 && y1 != 0 then ecThird ((3 * x1 * x1 + ecP - 3) * invMod ecP (2 * y1) % ecP) x1 y1 x2 else none
    else ecThird ((y2 + ecP - y1) * invMod ecP (x2 + ecP - x1) % ecP) x1 y1 x2

/-- A multiple of a point, by the bits of the factor, least significant first. -/
def ecMul : EcPoint → List Bool → EcPoint
  | _, [] => none
  | p, b :: r => let q := ecMul (ecAdd p p) r; if b then ecAdd p q else q

/-- A public key in uncompressed SEC 1 form that names a point of the curve (R328). -/
def ecKey (k : List Byte) : EcPoint :=
  let x := beNat (slice k 1 48)
  let y := beNat (slice k 49 48)
  if k.length = 97 && byteAt k 0 == 4 && decide (x < ecP) && decide (y < ecP) &&
      (y * y) % ecP == (x * x * x + (ecP - 3) * x + ecB) % ecP
  then some (x, y) else none

/-- The signature r then s, 48 bytes each, verifies over a digest against a key (R328, R329). -/
def ecdsaOk (digest key sig : List Byte) : Bool :=
  let r := beNat (slice sig 0 48)
  let t := beNat (slice sig 48 48)
  match ecKey key with
  | none => false
  | some q =>
    if r = 0 || t = 0 || ecN ≤ r || ecN ≤ t then false
    else
      let w := invMod ecN t
      match ecAdd (ecMul (some ecG) (bits384 (beNat digest * w % ecN))) (ecMul (some q) (bits384 (r * w % ecN))) with
      | some p => p.1 % ecN == r
      | none => false

/-! ### AES-256-GCM -/

/-- Multiplication by x in the field of AES. -/
def aesX (b : Byte) : Byte := (b <<< 1) ^^^ (if b.getLsbD 7 then 0x1B else 0)

/-- A product in the field of AES. -/
def aesMul (a b : Byte) : Byte :=
  ((List.range 8).foldl (fun (p : Byte × Byte) i => (if b.getLsbD i then p.1 ^^^ p.2 else p.1, aesX p.2)) (0, a)).1

/-- The S-box: the inverse, which is the power 254, then the affine map. -/
def aesSub (a : Byte) : Byte :=
  let a2 := aesMul a a
  let a4 := aesMul a2 a2
  let a8 := aesMul a4 a4
  let a16 := aesMul a8 a8
  let a32 := aesMul a16 a16
  let a64 := aesMul a32 a32
  let a128 := aesMul a64 a64
  let b := aesMul a2 (aesMul a4 (aesMul a8 (aesMul a16 (aesMul a32 (aesMul a64 a128)))))
  b ^^^ b.rotateLeft 1 ^^^ b.rotateLeft 2 ^^^ b.rotateLeft 3 ^^^ b.rotateLeft 4 ^^^ 0x63

def xorBytes (a b : List Byte) : List Byte := List.zipWith (· ^^^ ·) a b

/-- Word i of the key schedule from the words before it. -/
def aesWord (ws : List (List Byte)) : List Byte :=
  let i := ws.length
  let w := ws.getD (i - 1) []
  let v := if i % 8 = 0 then xorBytes ((w.drop 1 ++ w.take 1).map aesSub)
      [(List.range (i / 8 - 1)).foldl (fun b _ => aesX b) 1, 0, 0, 0]
    else if i % 8 = 4 then w.map aesSub else w
  xorBytes (ws.getD (i - 8) []) v

/-- The 60 words of the schedule of a 32-byte key. -/
def aesKeys (k : List Byte) : List (List Byte) :=
  (List.range 52).foldl (fun ws _ => ws ++ [aesWord ws]) ((List.range 8).map (fun i => slice k (4 * i) 4))

/-- SubBytes and ShiftRows of a state of 16 bytes. -/
def aesShift (b : List Byte) : List Byte := (List.range 16).map (fun i => aesSub (b.getD ((i + 4 * (i % 4)) % 16) 0))

/-- MixColumns. -/
def aesMix (b : List Byte) : List Byte :=
  (List.range 16).map (fun i =>
    let x := fun j => b.getD (4 * (i / 4) + (i + j) % 4) 0
    aesX (x 0) ^^^ aesX (x 1) ^^^ x 1 ^^^ x 2 ^^^ x 3)

/-- A block encrypted under a key schedule. -/
def aesBlock (ws : List (List Byte)) (b : List Byte) : List Byte :=
  let rk := fun (i : Nat) => (slice (ws.flatten) (16 * i) 16)
  xorBytes (aesShift ((List.range 13).foldl (fun s i => xorBytes (aesMix (aesShift s)) (rk (i + 1))) (xorBytes b (rk 0)))) (rk 14)

/-- A product in the field of GHASH, whose bit 0 is the most significant. -/
def ghashMul (a h : BitVec 128) : BitVec 128 :=
  ((List.range 128).foldl (fun (p : BitVec 128 × BitVec 128) i =>
    (if a.getLsbD (127 - i) then p.1 ^^^ p.2 else p.1,
     if p.2.getLsbD 0 then (p.2 >>> 1) ^^^ (0xE1 <<< 120) else p.2 >>> 1)) (0, h)).1

/-- GHASH of a byte string of whole blocks. -/
def ghash (h : BitVec 128) (l : List Byte) : BitVec 128 :=
  (List.range (l.length / 16)).foldl (fun y k => ghashMul (y ^^^ BitVec.ofNat 128 (beNat (slice l (16 * k) 16))) h) 0

/-- Zero bytes up to a multiple of 16. -/
def pad16 (l : List Byte) : List Byte := padTo ((l.length + 15) / 16 * 16) l

/-- AES-256-GCM decryption under a 96-bit nonce: the plain bytes where the tag is right (R330). -/
def gcmOpen (key nonce aad cipher tag : List Byte) : Option (List Byte) :=
  let ws := aesKeys key
  let h := BitVec.ofNat 128 (beNat (aesBlock ws (List.replicate 16 0)))
  let ctr := fun (n : Nat) => aesBlock ws (nonce ++ beBytes 4 n)
  let y := ghash h (pad16 aad ++ pad16 cipher ++ beBytes 8 (8 * aad.length) ++ beBytes 8 (8 * cipher.length))
  if xorBytes (beBytes 16 y.toNat) (ctr 1) == tag then
    some (xorBytes cipher ((List.range ((cipher.length + 15) / 16)).flatMap (fun i => ctr (i + 2))))
  else none

end Sys2Proof.Machine
end

