-- ==== Sys2Proof/Machine/ImageChecks.lean ====
section
/-! DEFINITION. The layout of an image and the checks that its frames' content must pass
(spec/13_configuration.md R321 to R327, R334 checks 3 to 14, and the refusals of the other chapters). -/

namespace Sys2Proof.Machine

/-! ### Header and casement table (R322 to R324) -/

/-- A casement entry. -/
structure CaseEntry where
  id : Nat
  order : Nat
  policy : Nat
  n : Nat
  d : Nat
  region : BitVec 96
  bad : Bool
  deriving DecidableEq, Repr

/-- START_ORDER with the default written out. -/
def startSteps (o : Nat) : List Nat := let v := if o = 0 then 0x78 else o
  (List.range 4).map (fun i => bitsOf v (2 * i) 2)

/-- A START_ORDER that is not a permutation with (a) first (R324). -/
def badOrder (o : Nat) : Bool :=
  let l := startSteps o
  l.head? != some 0 || [1, 2, 3].any (fun k => !l.contains k)

/-- Entry k of the table after the header. -/
def caseEntry (h : List Byte) (k : Nat) : CaseEntry :=
  let e := slice h (64 + 32 * k) 32
  let d := fieldAt e 4 2
  let n := byteAt e 3
  { id := byteAt e 0, order := byteAt e 1, policy := byteAt e 2, n := n, d := d, region := BitVec.ofNat 96 (fieldAt e 8 12),
    bad := decide (31 < byteAt e 0) || badOrder (byteAt e 1) || decide (1 < byteAt e 2) || decide (n < 16) || decide (36 < n) ||
      decide (d < 16) || decide (1024 < d) || d % 8 != 0 || fieldAt e 6 2 != 0 || fieldAt e 20 12 != 0 }

def hdrFull (h : List Byte) : Bool := byteAt h 7 == 0
def hdrConf (h : List Byte) : Nat := byteAt h 14

/-- Bytes of a frame's tag (R325). -/
def tagSize (h : List Byte) : Nat := if hdrConf h = 0 then 0 else 16
def hdrEntries (h : List Byte) : Nat := byteAt h 15
def hdrLength (h : List Byte) : Nat := fieldAt h 16 4
def hdrFrames (h : List Byte) : Nat := fieldAt h 20 4
def hdrVersion (h : List Byte) : Nat := fieldAt h 24 4
def hdrFloor (h : List Byte) : Nat := fieldAt h 28 4

/-- Bytes of header and table. -/
def headSize (h : List Byte) : Nat := 64 + 32 * hdrEntries h

/-- The casement entries of an image. -/
def caseEntries (h : List Byte) : List CaseEntry := (List.range (hdrEntries h)).map (caseEntry h)

/-- The entry whose region holds a tile. -/
def entryOfTile (es : List CaseEntry) (t : Nat) : Option CaseEntry := es.find? (fun e => e.region.getLsbD t)

/-- Check 3 on the header: `full` is the descriptor's (R322, R334). -/
def badHeader (full : Bool) (h : List Byte) : Bool :=
  fieldAt h 0 4 != 0x4D4E4E45 || fieldAt h 4 2 != 1 || byteAt h 7 != (!full).toNat || decide (2 < hdrConf h) ||
  decide (hdrEntries h < 1) || decide (32 < hdrEntries h) || (!full && hdrEntries h != 1) ||
  decide (hdrFrames h < 1) || decide (65536 < hdrFrames h) || decide (hdrVersion h < hdrFloor h) ||
  (full && byteAt h 12 != 0) ||
  (hdrConf h == 0 && fieldAt h 32 8 != 0) || fieldAt h 40 24 != 0

/-- Check 3 on the table: an entry out of rule, or two entries with one ID. -/
def badTable (es : List CaseEntry) : Bool :=
  es.any (·.bad) || (List.range es.length).any (fun i => (es.take i).any (fun e => some e.id == (es[i]?).map (·.id)))

/-- Check 4 (R322). -/
def wrongDevice (h : List Byte) : Bool := byteAt h 6 != 1 || fieldAt h 8 2 != 0x9600 || !bitAt (fieldAt h 10 2) 0

/-- Key slot k of OTP (R329). -/
def keySlot (s : State) (k : Nat) : KeySlot := mget KeySlot.blank s.dev.keys k

/-- Check 5 before the trailer: the slot, and the content key that CONF names (R329, R330). -/
def badKeySlot (s : State) (h : List Byte) : Bool :=
  let k := keySlot s (byteAt h 13)
  !k.programmed || k.revoked || (hdrConf h != 0 && (Config.contentKey (hdrConf h - 1)).isNone)

/-- A full image: as the descriptor asks, or, for a promotion or a shadow, as the image says. -/
def imageFull (s : State) (h : List Byte) : Bool := if s.load.purpose == .load then s.load.full else hdrFull h

/-- The region that a partial image must have: the casement's present tiles, or, where a promotion or a shadow takes the image that
loaded the casement, the tiles that it had then (R323, R370, R396; DEDUCED, assumption 29). -/
def partialRegion (s : State) (k : Casement) : BitVec 96 := if s.load.purpose == .load then k.region else k.imageRegion

/-- Check 7: regions empty or overlapping, or a partial image's entry against the casement (R323). -/
def badRegions (s : State) (full : Bool) (c : Nat) (h : List Byte) (es : List CaseEntry) : Bool :=
  es.any (fun e => e.region == 0) ||
  allTiles.any (fun t => decide (2 ≤ (es.filter (fun e => e.region.getLsbD t)).length)) ||
  (!full && (byteAt h 12 != c || es.any (fun e => e.id != c) ||
    match getCase s c with
    | some k => es.any (fun e => e.region != partialRegion s k)
    | none => true))

/-! ### Frames (R325 to R327) -/

/-- Size of a class's space, 0 for a reserved class. -/
def classSize : Nat → Nat
  | 0x01 => 8388608 | 0x02 => 262144 | 0x03 => 8192 | 0x04 => 49152 | 0x05 => 65536 | 0x06 => 32
  | 0x07 => 8192 | 0x08 => 512 | 0x09 => 1024 | 0x0A => 16384 | 0x10 => 24576 | 0x11 => 2560
  | 0x12 => 69632 | 0x13 => 16 | 0x18 => 2304 | 0x20 => 224 | 0x21 => 456 | 0x22 => 256 | 0x30 => 8
  | 0x31 => 8 | _ => 0

/-- CLASS and OFFSET of a frame address. -/
def frCls (f : Frame) : Nat := f.addr.toNat / 2 ^ 26
def frOff (f : Frame) : Nat := f.addr.toNat % 2 ^ 26

/-- The frame that 24 header bytes begin, without its payload. -/
def frameHead (b : List Byte) : Frame :=
  { addr := BitVec.ofNat 32 (fieldAt b 0 4), mask := BitVec.ofNat 96 (fieldAt b 4 12), payload := [] }

/-- Check 8 of a frame header; `before` are the frames before it, `room` the bytes left up to the trailer. -/
def badFrameHead (before : List Frame) (room tag : Nat) (b : List Byte) : Bool :=
  let f := frameHead b
  let n := fieldAt b 16 4
  classSize (frCls f) == 0 || fieldAt b 20 4 != 0 || f.mask == 0 || decide (n < 8) || decide (16384 < n) || n % 8 != 0 ||
  frOff f % 8 != 0 || decide (classSize (frCls f) < frOff f + n) || decide (room < 24 + n + tag) ||
  before.any (fun g => frCls g == frCls f && g.mask &&& f.mask != 0 && decide (frOff f < frOff g + g.payload.length))

/-- Check 9 of a frame: the first tile outside every region, or of a second casement. -/
def strayTile (es : List CaseEntry) (f : Frame) : Option Nat :=
  let ts := tilesOf f.mask
  match ts.find? (fun t => (entryOfTile es t).isNone) with
  | some t => some t
  | none => ts.find? (fun t => (entryOfTile es t).map (·.id) != (entryOfTile es (ts.headD 0)).map (·.id))

/-- A frame written into a configuration, but for the bytes that `skip` keeps. -/
def writeFrame (skip : Nat → Bool) (cfg : List Host.Cell) (f : Frame) : List Host.Cell :=
  ((List.range f.payload.length).filter (fun i => !skip (f.addr.toNat + i))).foldl
    (fun m i => memPut cfgCold m (f.addr.toNat + i) (f.payload.getD i 0)) cfg

/-- A leader whose odd cell is cold takes it as its follower; another record there dissolves the pair (R158). -/
def pairCells (x : Tile) : Tile :=
  [0, 2, 4, 6].foldl (fun x k =>
    let c := acConfig (acRecord x (k + 1))
    if acConfig (acRecord x k) != 7 || c == 8 then x
    else if c = 0 then cfgWrite x 0x20 (12 * (k + 1)) 12 followerRecord
    else cfgWrite x 0x20 (12 * k) 12 (acRecord x k - 7)) x

/-- A tile's configuration as an image gives it, over cold values. -/
def imageTile (fs : List Frame) (t : Nat) : Tile :=
  { Tile.cold with cfg := (fs.filter (fun f => f.mask.getLsbD t)).foldl (writeFrame (fun _ => false)) [] }

/-! ### Units and their content -/

/-- First byte and size of the unit that holds a byte of a class (R326). -/
def unitOf (cls off : Nat) : Nat × Nat :=
  let u := fun (base n : Nat) => (base + (off - base) / n * n, n)
  match cls with
  | 0x08 | 0x13 => u 0 4
  | 0x10 => u 0 24
  | 0x11 => u 0 2
  | 0x12 => if off < 64 then u 0 4 else u 64 1
  | 0x18 => if off < 8 then (0, 8) else if off < 152 then u 8 12 else if off < 256 then u 152 1 else u 256 4
  | 0x20 => if off < 96 then u 0 12 else u 96 4
  | 0x21 => if off < 136 then u 0 8 else if off < 200 then u 136 16 else u 200 8
  | 0x22 => if off < 128 then u 0 8 else u 128 16
  | _ => u 0 8

/-- A reserved select of R109. -/
def badInput (v : Nat) : Bool := decide (0xE1 < v)

/-- A logic cell that R113 refuses by itself. -/
def badCell (n v : Nat) : Bool :=
  (List.range 8).any (fun k => badInput (recBits v (64 + 8 * k) 8)) || recBits v 128 2 == 3 || decide (5 < recBits v 136 3) ||
  recBits v 149 43 != 0 || (recBits v 128 2 == 2 && recBits v 147 2 == 0 && n == 0)

/-- An instruction word that R32 or R42 refuses, of BP b at step st. -/
def badInstruction (b st d w : Nat) : Bool :=
  [16, 25, 34, 43].any (fun lo => decide (499 < recBits w lo 9)) || decide (6 < insOpx w) ||
  (insOpx w == 1 && decide (10 < b % 32)) || (insKeep w && decide (383 < insDst w)) ||
  (insOpx w == 6 && (b != 0 || st + 1 != d))

/-- An import entry with a reserved field, a DUE_STEP not below D, or, where it is VALID, OCTETS or a landing range out of
range (R51, R75, R78). -/
def badImport (d w : Nat) : Bool :=
  recBits w 50 14 != 0 || recBits w 10 8 != 0 || decide (d ≤ recBits w 0 10) ||
  (bitAt w 49 && (decide (recBits w 18 9 < 1) || decide (504 < recBits w 18 9) || decide (16384 < recBits w 27 14 + recBits w 18 9)))

/-- A unit of a class at offset a holds what check 12 refuses; v is its value, t the tile, d the depth of its casement. -/
def badUnit (t d cls a v : Nat) : Bool :=
  match cls with
  | 0x01 => decide (a / 8 % 1024 < d) && badInstruction (a / 8 / 1024) (a / 8 % 1024) d v
  | 0x02 => decide (a / 8 % 1024 < d) && bitAt v 63
  | 0x07 => decide (a / 8 < d) && recBits v 40 24 != 0
  | 0x08 => recBits v 16 16 != 0
  | 0x09 => badImport d v
  | 0x10 => badCell (a / 24 % 64) v
  | 0x11 => recBits v 12 4 != 0 || badSrcCode (recBits v 0 12)
  | 0x12 => if a < 64 then decide (5 < recBits v 0 3) || decide (5 < recBits v 3 3) || recBits v 8 24 != 0
      else if a < 1088 then (if (a - 64) % 64 < 49 then badInput v else v != 0)
      else decide (a < 4096) && v != 0
  | 0x13 => recBits v 17 15 != 0 || (bitAt v 16 && badFclk (recBits v 0 8) (recBits v 8 8))
  | 0x18 => if a = 0 then decide (1 < recBits v 0 8) || recBits v 16 48 != 0
      else if a < 152 then badPinRecord (recBits v 0 32) (recBits v 32 32) (recBits v 64 32)
      else if a < 158 then decide (64 ≤ v) || badNetField v
      else if a < 256 then v != 0
      else badLineWord t v
  | 0x20 => if a < 96 then badCellRecord (a / 12) v else recBits v 6 26 != 0
  | 0x21 => if a = 0 then badCvCtrl (recBits v 0 32) || recBits v 32 32 != 0
      else if a < 136 then dirtyEntry (recBits v 0 64)
      else if a < 200 then badCvSlot (recBits v 0 64) (recBits v 64 16) || recBits v 80 48 != 0
      else badAccRecord v
  | 0x22 => if a < 128 then badCmpRecord (recBits v 0 32) (recBits v 32 32)
      else badTmRecord ((a - 128) / 16) (recBits v 0 32) || recBits v 96 32 != 0
  | 0x30 => recBits v 32 32 != 0
  | 0x31 => decide (239 < recBits v 0 8) || recBits v 8 56 != 0
  | _ => false

/-- A VC0 reservation over the limit of R243. -/
def overReserved (cls v : Nat) : Bool := cls == 0x30 && [0, 8, 16, 24].any (fun k => decide (48 < recBits v k 8))

/-- Starts of the units that a run of bytes touches, at most n of them. -/
def unitStarts (cls : Nat) : Nat → Nat → Nat → List Nat
  | 0, _, _ => []
  | n + 1, off, stop => if stop ≤ off then [] else
      let u := unitOf cls off
      u.1 :: unitStarts cls n (u.1 + u.2) stop

/-- The units that a frame touches. -/
def frameUnits (f : Frame) : List Nat := unitStarts (frCls f) f.payload.length (frOff f) (frOff f + f.payload.length)

/-- What a unit of a frame fails: check 12 or 13. `value` reads a unit. -/
def unitFault (t d cls a : Nat) (value : Nat) : Option Nat :=
  if badUnit t d cls a value then some 12 else if overReserved cls value then some 13 else none

/-- Some bytes of a class lie wholly inside a frame. -/
def inside (f : Frame) (cls off n : Nat) : Bool :=
  frCls f == cls && decide (frOff f ≤ off) && decide (off + n ≤ frOff f + f.payload.length)

/-- A unit that lies wholly inside a frame fails a check, in a tile. -/
def unitsFail (d : Nat) (f : Frame) (t n : Nat) : Bool :=
  ((frameUnits f).filter (fun a => inside f (frCls f) a (unitOf (frCls f) a).2)).any
    (fun a => unitFault t d (frCls f) a (fieldAt f.payload (a - frOff f) (unitOf (frCls f) a).2) == some n)

/-! ### Checks that span frames -/

/-- An image as the checks at the end of pass 1 see it: a tile's casement entry, configuration and role. -/
structure ImageTile where
  t : Nat
  entry : CaseEntry
  x : Tile
  role : Option Nat
  deriving DecidableEq, Repr

/-- The tiles of an image. -/
def imageTiles (h : List Byte) (fs : List Frame) : List ImageTile :=
  allTiles.filterMap (fun t => (entryOfTile (caseEntries h) t).map (fun e =>
    { t := t, entry := e, x := pairCells (imageTile fs t), role := imageRole fs t }))

/-- Words of the programme that are not zero: BP, step, word, below the depth. -/
def programme (x : Tile) (d : Nat) : List (Nat × Nat × Nat) :=
  ((usedWords x).filter (fun n => decide (n % 1024 < d))).map (fun n => (n / 1024, n % 1024, insWord x (n / 1024) (n % 1024)))

/-- R40: some slot of BP b is written both with and without KEEP; an all-zero word writes slot 0 without it. -/
def mixedKeep (d : Nat) (ws : List (Nat × Nat × Nat)) : Bool :=
  let kept := (ws.filter (fun p => insKeep p.2.2)).map (fun p => (p.1, insDst p.2.2))
  (ws.any (fun p => !insKeep p.2.2 && kept.contains (p.1, insDst p.2.2))) ||
  kept.any (fun k => k.2 == 0 && decide ((ws.filter (fun p => p.1 = k.1)).length < d))

/-- Some key of a list stands more than n times in it. -/
def moreThan (n : Nat) (l : List (Nat × Nat)) : Bool := l.any (fun k => decide (n < l.count k))

/-- R47: too many memory accesses, or a READ too late. -/
def badAccesses (x : Tile) (d : Nat) (ws : List (Nat × Nat × Nat)) : Bool :=
  let io := ws.filter (fun p => insOpx p.2.2 = 3 || insOpx p.2.2 = 4)
  let blk := fun (p : Nat × Nat × Nat) => recBits (exchWord x (p.1 / 32) p.2.1) 60 3
  moreThan 1 (io.map (fun p => (p.2.1, p.1 / 32))) || moreThan 1 (io.map (fun p => (p.2.1, blk p))) ||
  moreThan 8 (io.map (fun p => (0, blk p))) || io.any (fun p => insOpx p.2.2 = 3 && decide (d < p.2.1 + 5))

/-- R40, R47, R49, R53: the programme of a tile is refused. -/
def badProgramme (x : Tile) (d : Nat) : Bool :=
  let ws := programme x d
  mixedKeep d ws || badAccesses x d ws ||
  moreThan 1 ((ws.filter (fun p => insOpx p.2.2 = 5)).map (fun p => (p.2.1, 8 * (p.1 / 32) + p.1 % 8))) ||
  (ws.filter (fun p => insOpx p.2.2 = 6)).map (fun p => (p.1, p.2.1)) != [(0, d - 1)]

/-- Entry e of a tile's export table, and of its import table. -/
def exportEntry (x : Tile) (e : Nat) : Nat := cfgRead x 0x08 (4 * e) 4
def importEntry (x : Tile) (e : Nat) : Nat := cfgRead x 0x09 (8 * e) 8

/-- Export steps that do something: step, word. -/
def exportSteps (x : Tile) (d : Nat) : List (Nat × Nat) :=
  ((List.range d).map (fun st => (st, exportWord x st))).filter (fun p => recBits p.2 0 33 != 0)

/-- A send of a tile: step, export entry, octets (R73). -/
def sendsOf (x : Tile) (d : Nat) : List (Nat × Nat × Nat) :=
  let ss := exportSteps x d
  (ss.filter (fun p => bitAt p.2 32)).map (fun p =>
    let e := recBits p.2 33 7
    (p.1, e, (ss.filter (fun r => recBits r.2 33 7 = e && decide (r.1 ≤ p.1))).foldl (fun n r => n + popCount (BitVec.ofNat 32 r.2)) 0))

/-- R78 on the sending side of a tile. -/
def badSends (ts : List ImageTile) (i : ImageTile) : Bool :=
  let ss := exportSteps i.x i.entry.d
  let sends := sendsOf i.x i.entry.d
  let valid := (List.range 128).filter (fun e => bitAt (exportEntry i.x e) 15)
  ss.any (fun p => !valid.contains (recBits p.2 33 7)) ||
  valid.any (fun e => (sends.filter (fun p => p.2.1 = e)).length != 1 || i.role.isNone) ||
  ss.any (fun p => sends.any (fun q => q.2.1 = recBits p.2 33 7 && decide (q.1 < p.1))) ||
  sends.any (fun p =>
    let w := exportEntry i.x p.2.1
    let to_ := ts.filter (fun j => j.entry.id = i.entry.id && j.role == some (recBits w 0 8))
    decide (504 < p.2.2) || to_.isEmpty || to_.any (fun j =>
      let v := importEntry j.x (recBits w 8 7)
      !bitAt v 49 || recBits v 18 9 != p.2.2 || decide (recBits v 0 10 ≤ p.1) || some (recBits v 41 8) != i.role))

/-- R78 on the receiving side of a tile: every VALID import entry is fed by exactly one send. -/
def badImports (ts : List ImageTile) (i : ImageTile) : Bool :=
  (List.range 128).any (fun e =>
    let v := importEntry i.x e
    bitAt v 49 && (i.role.isNone ||
      let from_ := ts.filter (fun j => j.entry.id = i.entry.id && j.role == some (recBits v 41 8))
      let feeds := from_.flatMap (fun j => ((sendsOf j.x j.entry.d).filter (fun p =>
        let w := exportEntry j.x p.2.1
        some (recBits w 0 8) == i.role && recBits w 8 7 == e)).map (fun p => (p.1, p.2.1)))
      feeds.eraseDups.length != 1))

/-- R106, R113: a carry cell without a carry cell below it. -/
def carryFails (x : Tile) (c : Nat) : Bool :=
  let v := cellCfg x c
  recBits v 128 2 == 2 && recBits v 147 2 == 0 && (c % 64 == 0 || recBits (cellCfg x (c - 1)) 128 2 != 2)

/-- R107, R113: a cell of a mux group against the group's rules. -/
def groupFails (x : Tile) (c : Nat) : Bool :=
  let g := recBits (cellCfg x c) 130 2
  let base := c - c % 2 ^ g
  g != 0 && ((List.range (2 ^ g)).any (fun k => let u := cellCfg x (base + k)
      recBits u 130 2 != g || recBits u 128 2 != 0) ||
    (List.range g).any (fun j => bitAt (cellCfg x (base + 2 ^ j - 1)) 141))

/-- R106, R107, R113: a carry without a carry cell below it, or a mux group against its rules. -/
def badCells (x : Tile) : Bool := (usedCells x).any (fun c => carryFails x c || groupFails x c)

/-- R158: a follower without its leader. -/
def badPairs (x : Tile) : Bool := (List.range 8).any (fun k =>
  acConfig (acRecord x k) == 8 && (k % 2 == 0 || acConfig (acRecord x (k - 1)) != 7))

/-- R177: the sequence table, where the image writes an entry of it. -/
def badSequence (fs : List Frame) (i : ImageTile) : Bool :=
  fs.any (fun f => frCls f == 0x21 && f.mask.getLsbD i.t && decide (frOff f < 136) && decide (8 < frOff f + f.payload.length)) &&
    badCvTable (cvShadowEntry i.x)

/-- Two tiles form a duplex pair by the image's roles, or outside it by the role table (R137, R326). -/
def imagePair (s : State) (ts : List ImageTile) (a b : Nat) : Bool :=
  match ts.find? (fun i => i.t = a), ts.find? (fun i => i.t = b) with
  | some i, some j => a != b && i.role.isSome && i.role == j.role && i.entry.id == j.entry.id
  | none, none => pairNow s a b
  | _, _ => false

/-- The row of R137 that a tile's pin records meet. -/
def pinConflict (s : State) (ts : List ImageTile) (x : Tile) (st : Status) : Bool :=
  (List.range 12).any (fun n => slotConflict (imagePair s ts) (pinWord x n 0) (pinWord x n 1) (pinWord x n 2) == some st)

/-- A role that another casement holds, where an image is partial (R246). -/
def foreignRole (s : State) (full : Bool) (c r : Nat) : Bool :=
  let e := roleEntry (hubBank s) r
  !full && rtState e == 1 && rtCase e != c && (getCase s (rtCase e)).isSome

/-- A role that three tiles hold, or that another casement holds (R246, R326). -/
def badRole (s : State) (full : Bool) (ts : List ImageTile) (i : ImageTile) : Bool := match i.role with
  | none => false
  | some r =>
    let same := ts.filter (fun j => j.role == some r)
    decide (2 < same.length) || same.any (fun j => j.entry.id != i.entry.id) ||
      foreignRole s full i.entry.id r

/-- Trunks that a tile taps, by 4·sector + trunk (R155). -/
def taps (t : Nat) (x : Tile) : List Nat :=
  (List.range 32).filterMap (fun n => let r := netRecord x n
    if bitAt r 2 then some (4 * sectorOf t + recBits r 3 2) else none)

/-- R155: a tapped trunk is another casement's in the device, where the image is partial. -/
def trunkTaken (s : State) (full : Bool) (c t : Nat) (x : Tile) : Bool :=
  !full && (taps t x).any (fun k => match mfind s.dev.trunks k with | some o => o.val != c | none => false)

/-- R155: a trunk of another casement, in the device or in the image. -/
def foreignTrunk (s : State) (full : Bool) (ts : List ImageTile) (i : ImageTile) : Bool :=
  trunkTaken s full i.entry.id i.t i.x ||
  (taps i.t i.x).any (fun k => ts.any (fun j => j.entry.id != i.entry.id && decide (j.t < i.t) && (taps j.t j.x).contains k))

/-- R153: two drivers of a net, or two exporting nets of a trunk. -/
def driverFight (ts : List ImageTile) (i : ImageTile) : Bool :=
  (List.range 32).any (fun n => decide (2 ≤ netDrivers i.x n)) ||
  (List.range 4).any (fun k => decide (0 < exportsTo i.x k) &&
    decide (2 ≤ (ts.map (fun j => if sectorOf j.t = sectorOf i.t && j.t ≤ i.t then exportsTo j.x k else 0)).sum))

/-- The set-up record of position i of a tile: 96 bits, or a select (R143). -/
def setupOf (x : Tile) (i : Nat) : Nat := if i < 12 then cfgRead x 0x18 (8 + 12 * i) 12 else ainSelect x (i - 12)

/-- R148: a partial image sets up a pin, of those listed, that is not the casement's. -/
def foreignPin (s : State) (full : Bool) (ks : List Nat) (c t : Nat) (x : Tile) : Bool :=
  !full && ks.any (fun k => setupOf x k != (if k < 12 then 0 else 0x3F) && !pinOf s (pinAt t k) c)

/-- R143: an image gives a locked pin, of those listed, another set-up; `c` is the casement of its tile in the image, if any. -/
def lockedChange (s : State) (full : Bool) (ks : List Nat) (c : Option Nat) (t : Nat) (x : Tile) : Bool :=
  (lockedPins s t).any (fun k => ks.contains k &&
    (full || (match c with | some c => pinOf s (pinAt t k) c | none => false)) && setupOf (getTile s t) k != setupOf x k)

/-! ### The checks of one frame as it arrives (R334) -/

/-- The words of the programme inside a frame, zeros among them: BP, step, word, below the depth. -/
def frameWords (f : Frame) (d : Nat) : List (Nat × Nat × Nat) :=
  if frCls f != 0x01 then []
  else ((List.range (f.payload.length / 8)).map (fun i =>
    let a := frOff f / 8 + i
    (a / 1024, a % 1024, fieldAt f.payload (8 * i) 8))).filter (fun p => decide (p.2.1 < d))

/-- R40, R47, R49: words inside a frame that no other word can put right. -/
def wordsFail (f : Frame) (d : Nat) : Bool :=
  let ws := frameWords f d
  let io := ws.filter (fun p => insOpx p.2.2 = 3 || insOpx p.2.2 = 4)
  ws.any (fun p => insKeep p.2.2 && ws.any (fun r => r.1 = p.1 && !insKeep r.2.2 && insDst r.2.2 == insDst p.2.2)) ||
  moreThan 1 (io.map (fun p => (p.2.1, p.1 / 32))) || io.any (fun p => insOpx p.2.2 = 3 && decide (d < p.2.1 + 5)) ||
  moreThan 1 ((ws.filter (fun p => insOpx p.2.2 = 5)).map (fun p => (p.2.1, 8 * (p.1 / 32) + p.1 % 8)))

/-- R73, R78: export steps inside a frame: two sends of one entry, octets after the send, or more than 504 octets. -/
def exportsFail (f : Frame) (x : Tile) (d : Nat) : Bool :=
  let sends := sendsOf x d
  frCls f == 0x07 && (moreThan 1 (sends.map (fun p => (p.2.1, 0))) || sends.any (fun p => decide (504 < p.2.2)) ||
    (exportSteps x d).any (fun p => sends.any (fun q => q.2.1 = recBits p.2 33 7 && decide (q.1 < p.1))))

/-- R106, R107, R113: a cell whose neighbours the frame holds too. -/
def cellsFail (f : Frame) (x : Tile) : Bool :=
  (usedCells x).any (fun c =>
    let g := recBits (cellCfg x c) 130 2
    let base := c - c % 2 ^ g
    ((c % 64 == 0 || inside f 0x10 (24 * (c - 1)) 24) && carryFails x c) ||
    (inside f 0x10 (24 * base) (24 * 2 ^ g) && groupFails x c))

/-- Pin records and AIN selects inside a frame. -/
def pinsInside (f : Frame) : List Nat :=
  (List.range 18).filter (fun k => if k < 12 then inside f 0x18 (8 + 12 * k) 12 else inside f 0x18 (152 + k - 12) 1)

/-- Two tiles may turn out to be a duplex pair of the image. -/
def mayPair (s : State) (es : List CaseEntry) (a b : Nat) : Bool :=
  match entryOfTile es a, entryOfTile es b with
  | some e, some g => a != b && e.id == g.id
  | none, none => pairNow s a b
  | _, _ => false

/-- The row of R137 that pin records inside a frame meet, whatever pairs the image makes. -/
def pinsFail (s : State) (es : List CaseEntry) (f : Frame) (x : Tile) (st : Status) : Bool :=
  (pinsInside f).any (fun n => decide (n < 12) && slotConflict (mayPair s es) (pinWord x n 0) (pinWord x n 1) (pinWord x n 2) == some st)

/-- R153: drivers inside a frame: two of a net, or two exporting nets of a trunk. Cells count where the frame holds them all, since
a record that is still to come may dissolve a pair (R158). -/
def driversFail (f : Frame) (t : Nat) (x : Tile) : Bool :=
  let y := if inside f 0x20 0 96 then pairCells x else { x with cfg := x.cfg.filter (fun c => decide (cfgAddr 0x20 96 ≤ c.1)) }
  let peers := (tilesOf f.mask).filter (fun u => sectorOf u = sectorOf t && u ≤ t)
  frCls f == 0x20 && ((List.range 32).any (fun n => decide (2 ≤ netDrivers y n)) ||
    (List.range 4).any (fun k => decide (0 < exportsTo y k) && decide (2 ≤ peers.length * exportsTo y k)))

/-- R246, R326: the roles that a frame gives. -/
def rolesFail (s : State) (full : Bool) (f : Frame) (c : Nat) : Bool :=
  inside f 0x31 0 1 && (decide (2 < (tilesOf f.mask).length) || foreignRole s full c (byteAt f.payload 0))

/-- A tile fails a check inside one frame. -/
def insideFails (s : State) (h : List Byte) (f : Frame) (n t : Nat) : Bool :=
  let es := caseEntries h
  let full := imageFull s h
  let x := imageTile [f] t
  match entryOfTile es t with
  | none => false
  | some e => match n with
    | 9 => foreignPin s full (pinsInside f) e.id t x || (frCls f == 0x20 && trunkTaken s full e.id t x)
    | 12 => unitsFail e.d f t 12 || wordsFail f e.d || exportsFail f x e.d || cellsFail f x ||
        (List.range 8).any (fun k => k % 2 == 1 && inside f 0x20 (12 * (k - 1)) 24 && acConfig (acRecord x k) == 8 &&
          acConfig (acRecord x (k - 1)) != 7) ||
        (inside f 0x21 8 128 && badCvTable (cvShadowEntry x)) || pinsFail s es f x .badField || rolesFail s full f e.id
    | 13 => unitsFail e.d f t 13 || pinsFail s es f x .conflict || driversFail f t x
    | 14 => lockedChange s full (pinsInside f) (some e.id) t x
    | _ => false

/-- The check that a frame fails first as it arrives, with its lowest tile. -/
def contentFault (s : State) (h : List Byte) (f : Frame) : Option (Nat × Nat) :=
  [9, 12, 13, 14].findSome? (fun n => ((tilesOf f.mask).find? (insideFails s h f n)).map (fun t => (n, t)))

/-! ### The checks that span frames -/

/-- Tiles that fail check n of those that span frames. -/
def spanTiles (s : State) (full : Bool) (fs : List Frame) (ts : List ImageTile) (n : Nat) : List Nat :=
  let pins := List.range 18
  let touched := fun (i : ImageTile) (c : Nat) => (fs.filter (fun f => f.mask.getLsbD i.t)).any (fun f =>
    (frameUnits f).any (fun a => unitFault i.t i.entry.d (frCls f) a (cfgRead i.x (frCls f) a (unitOf (frCls f) a).2) == some c))
  let on := fun (p : ImageTile → Bool) => (ts.filter p).map (·.t)
  match n with
  | 9 => on (fun i => foreignPin s full pins i.entry.id i.t i.x || foreignTrunk s full ts i)
  | 12 => on (fun i => touched i 12 || badProgramme i.x i.entry.d || badSends ts i || badImports ts i || badCells i.x ||
      badPairs i.x || badSequence fs i || pinConflict s ts i.x .badField || badRole s full ts i)
  | 13 => on (fun i => touched i 13 || pinConflict s ts i.x .conflict || driverFight ts i)
  | 14 => allTiles.filter (fun t => match ts.find? (fun i => i.t = t) with
      | some i => lockedChange s full pins (some i.entry.id) t i.x
      | none => lockedChange s full pins none t Tile.cold)
  | _ => []

/-- Status of a check of R334. -/
def checkStatus : Nat → Status
  | 4 => .wrongDevice
  | 5 | 11 | 15 => .authFail
  | 6 => .rollbackRefused
  | 7 | 9 => .regionViolation
  | 10 | 17 => .truncated
  | 13 => .conflict
  | 14 => .locked
  | 16 => .hashMismatch
  | _ => .badField

/-- The first check of those that span frames which fails, with its lowest tile. -/
def spanFault (s : State) (h : List Byte) (fs : List Frame) : Option (Nat × Nat) :=
  let ts := imageTiles h fs
  [9, 12, 13, 14].findSome? (fun n => (spanTiles s (imageFull s h) fs ts n).head?.map (fun t => (n, t)))

end Sys2Proof.Machine
end

