-- ==== Sys2Proof/Machine/LoadPass.lean ====
section
/-! DEFINITION. The two passes of an image and the takeover between them
(spec/13_configuration.md R333 to R339, spec/14_continuity.md R370, spec/15_replay.md R396). -/

namespace Sys2Proof.Machine

/-! ### Bytes of a pass -/

/-- Reason of a pass cut short (R334, R339). -/
def cutReason (s : State) : Nat := if s.load.phase == .pass1 then 10 else 17

/-- Bytes of the pass that its units have used. -/
def usedBytesOf (l : Load) : Nat := l.all.length - l.buf.length

/-- Where the trailer begins. -/
def trailerAt (l : Load) : Nat := hdrLength l.head - 256

/-- Frame index of a refusal at this point of the pass. -/
def frameNow (l : Load) : Nat := if l.stage == .frames then l.frameIx else noFrame

/-- Image bytes that the pass still lacks, where LENGTH is known. -/
def lacks (l : Load) : Bool := l.head.isEmpty || decide (l.all.length < hdrLength l.head)

/-- A FETCH for the bytes that come next; how many it asks for is open within its field (R303, R317). -/
def askFetch (s : State) : State :=
  let l := s.load
  if l.fromBsp && l.fetch.isNone && (l.phase == .pass1 || l.phase == .pass2) && l.stage != .complete && lacks l && s.bsp.up then
    let p := drawNat s 30
    let units := 1 + p.1 % 65535
    let s1 := modLoad p.2 (fun l => { l with fetch := some (256 * units) })
    sendCtl s1 (ctlBlock 0x07 (l.all.length % 2 ^ 40 + 2 ^ 40 * units))
  else s

/-- A pass begins at the first byte of the image. -/
def beginPass (s : State) (ph : LoadPhase) : State :=
  modLoad (dropAnswer s) (fun l => { l with phase := ph, stage := .header, buf := [], all := [], frameIx := 0, fetch := none })

/-! ### Pass 1 (R334, R335) -/

/-- Checks 3 to 7 on header and table. -/
def headFault (s : State) (h : List Byte) : Option Nat :=
  let l := s.load
  let full := imageFull s h
  let es := caseEntries h
  if badTable es then some 3
  else if wrongDevice h then some 4
  else if badKeySlot s h then some 5
  else if decide (hdrVersion h < rollCounter s.dev (if full then 0 else 1 + byteAt h 12)) then some 6
  else if badRegions s full l.case_.val h es then some 7
  else none

/-- Header and table of pass 1; none while bytes are missing. -/
def headStep (s : State) : Option State :=
  let l := s.load
  let stop := fun (n : Nat) => some (loadStop s (checkStatus n) n noTile noFrame)
  if l.buf.length < 64 then none
  else if badHeader (imageFull s l.buf) l.buf then stop 3
  else
    let n := headSize l.buf
    if l.buf.length < n then none
    else match headFault s (l.buf.take n) with
      | some k => stop k
      | none => some (modLoad s (fun l => { l with
          head := l.buf.take n, headHash := (sha384 (l.buf.take n)).take 16, buf := l.buf.drop n, stage := .frames }))

/-- The payload of a frame from its header, its bytes and its tag; none where the tag fails (R330). -/
def openFrame (h : List Byte) (i : Nat) (head cipher tag : List Byte) : Option (List Byte) :=
  if hdrConf h = 0 then some cipher
  else match Config.contentKey (hdrConf h - 1) with
    | some key => gcmOpen key (slice h 32 8 ++ leBytes 4 i) head cipher tag
    | none => none

/-- One frame of pass 1; none while bytes are missing. -/
def frameStep (s : State) : Option State :=
  let l := s.load
  let h := l.head
  let i := l.frameIx
  let at_ := usedBytesOf l
  let stop := fun (n t : Nat) => some (loadStop s (checkStatus n) n t i)
  if i = hdrFrames h then
    (if at_ = trailerAt l then some (modLoad s (fun l => { l with stage := .trailer }))
     else some (loadStop s .badField 8 noTile noFrame))
  else if trailerAt l < at_ + 24 then stop 8 noTile
  else if l.buf.length < 24 then none
  else
    let hd := l.buf.take 24
    let f := frameHead hd
    let n := fieldAt hd 16 4
    let tag := tagSize h
    if badFrameHead l.frames (trailerAt l - at_) tag hd then stop 8 noTile
    else match strayTile (caseEntries h) f with
      | some t => stop 9 t
      | none =>
        if l.buf.length < 24 + n + tag then none
        else match openFrame h i hd (slice l.buf 24 n) (slice l.buf (24 + n) tag) with
          | none => stop 11 noTile
          | some p =>
            let g := { f with payload := p }
            match contentFault s h g with
            | some e => stop e.1 e.2
            | none => some (modLoad s (fun l => { l with
                frames := l.frames ++ [g], hashes := l.hashes ++ [(sha384 (l.buf.take (24 + n + tag))).take 16],
                buf := l.buf.drop (24 + n + tag), frameIx := i + 1 }))

/-- What the trailer fails: check 5 for a key that is not the slot's, the checks that span frames, then check 15, or an
image that is not the casement's (R329, R370, R396). -/
def trailerFault (s : State) (tr : List Byte) : Option (Nat × Nat) :=
  let l := s.load
  let digest := slice tr 0 48
  let key := slice tr 48 97
  let want := match l.purpose with
    | .load => digest
    | .promote | .shadow => match getCase s l.case_.val with | some k => k.digest | none => []
  if sha384 key != (keySlot s (byteAt l.head 13)).hash then some (5, noTile)
  else match spanFault s l.head l.frames with
    | some p => some p
    | none =>
      if digest != sha384 (l.all.take (trailerAt l)) || !ecdsaOk digest key (slice tr 152 96) || digest != want
      then some (15, noTile) else none

/-- The casements that exist. -/
def caseMask (s : State) : BitVec 32 := s.cases.foldl (fun m p => setBit m p.1 true) 0

/-- The target is taken over: FLOAT policy of a partial image, and every target casement to stop (R338, R343). -/
def beginTakeover (s : State) : State :=
  let l := s.load
  let s1 := modLoad s (fun l => { l with phase := .takeover, existed := s.dev.changed &&& caseMask s })
  let e := caseEntry l.head 0
  let s2 := if l.full then s1 else modCase s1 l.case_.val (fun k => { k with floatPins := bitAt e.policy 0 })
  let cs := loadTargets s2
  if cs.isEmpty then takeTarget s2 else cs.foldl (fun s c => beginStop s c .load) s2

/-- Pass 1 has succeeded. -/
def pass1Done (s : State) (tr : List Byte) : State :=
  let l := s.load
  match l.purpose with
  | .promote | .shadow => beginPass s .pass2
  | .load =>
    let s1 := post s 0x102 3 (match l.req with | some q => q.host.val | none => 0xFF) (loadTarget l.full l.case_.val) (hdrFrames l.head % 65536)
    let s2 := rollRaise s1 (if l.full then 0 else 1 + l.case_.val) (hdrFloor l.head)
    beginTakeover (modLoad s2 (fun l => { l with stage := .complete, digest := tr.take 48 }))

/-- The trailer of pass 1; none while bytes are missing. -/
def trailerStep (s : State) : Option State :=
  if s.load.buf.length < 256 then none
  else
    let tr := s.load.buf.take 256
    match trailerFault s tr with
    | some p => some (loadStop s (checkStatus p.1) p.1 p.2 noFrame)
    | none => some (pass1Done s tr)

/-! ### Pass 2 (R339) -/

/-- Bytes of a configuration space that a load does not write into a tile: the records of pins kept. -/
def keptByte (s : State) (t a : Nat) : Bool :=
  (loadKeeps s t).any (fun i => pinRecordByte i a)

/-- Bytes that a promotion does not bring to the spare (R370). -/
def promoteSkips (a : Nat) : Bool :=
  a / 2 ^ 26 == 0x20 || (a / 2 ^ 26 == 0x18 && a != cfgAddr 0x18 1 && decide (a < cfgAddr 0x18 256))

/-- Classes that a shadow does not take (R396). -/
def shadowSkips (a : Nat) : Bool := [0x18, 0x20, 0x21, 0x22].contains (a / 2 ^ 26)

/-- The casement entry of an image for a casement. -/
def entryFor (h : List Byte) (c : Nat) : Option CaseEntry := (caseEntries h).find? (fun e => e.id = c)

/-- Image tile index of a tile in a region (R381). -/
def rankIn (r : BitVec 96) (t : Nat) : Nat := ((tilesOf r).filter (fun u => decide (u < t))).length

/-- The tiles that take a frame of pass 2, each with the bytes that it skips. -/
def frameTargets (s : State) (f : Frame) : List (Nat × (Nat → Bool)) :=
  let ts := tilesOf f.mask
  match s.load.purpose with
  | .load => ts.map (fun t => (t, keptByte s t))
  | .promote => match s.hub.promo with
    | some p => if ts.contains p.former.val then [(p.spare.val, promoteSkips)] else []
    | none => []
  | .shadow => match s.hub.shadow with
    | some p => match entryFor s.load.head p.source.val with
      | some e => (ts.filter (fun t => e.region.getLsbD t)).filterMap (fun t =>
          (mfind p.map (rankIn e.region t)).map (fun u => (u, shadowSkips)))
      | none => []
    | none => []

/-- A frame applied through the loader chain (R337). -/
def applyFrame (s : State) (f : Frame) : State :=
  (frameTargets s f).foldl (fun s p => modTile s p.1 (fun x => { x with
    cfg := writeFrame p.2 x.cfg f, an := { x.an with inputs := true } })) s

/-- Trunks that a casement's tiles tap become the casement's (R155). One that another casement took by AN_NET_SET since check 9
stays that casement's, and the image's tap stands: DESIGN CHOICE, since the spec names no outcome (assumption 25). -/
def claimTrunks (s : State) (t c : Nat) : State :=
  (taps t (getTile s t)).foldl (fun s k =>
    modDev s (fun d => { d with trunks := if (mfind d.trunks k).isSome then d.trunks else mset d.trunks k (Fin.ofNat 32 c) })) s

/-- The load has applied its last frame: tiles with their image content in place, trunks claimed. -/
def loadApplied (s : State) : State :=
  (caseEntries s.load.head).foldl (fun s e => (tilesOf e.region).foldl (fun s t =>
    claimTrunks (modTile s t (fun x => frameEnd (pairCells x))) t e.id) s) s

/-- The promotion's spare has its frames: flip-flops at INIT, its clocks lock (R371 step 3). -/
def promoteApplied (s : State) : State := match s.hub.promo with
  | none => s
  | some p =>
    let n := match getCase s p.case_.val with | some k => k.n | none => 0
    modTile (restLoader s) p.spare.val (fun x => stepLock n (frameEnd x))

/-- Rank of a role among the image's roles of a casement (R396). -/
def roleRank (fs : List Frame) (r : BitVec 96) (role : Nat) : Nat :=
  let rs := ((tilesOf r).filterMap (imageRole fs)).dedup
  (rs.filter (fun q => decide (q < role))).length

/-- Roles in a spare's tables rewritten to the shadow's. -/
def shadowTables (base : Nat) (rank : Nat → Nat) (x : Tile) : Tile :=
  let x1 := (List.range 128).foldl (fun x e =>
    let w := exportEntry x e
    if bitAt w 15 then cfgWrite x 0x08 (4 * e) 4 (w - recBits w 0 8 + (base + rank (recBits w 0 8)) % 256) else x) x
  (List.range 128).foldl (fun x e =>
    let w := importEntry x e
    if bitAt w 49 then cfgWrite x 0x09 (8 * e) 8 (w - recBits w 41 8 * 2 ^ 41 + (base + rank (recBits w 41 8)) % 256 * 2 ^ 41) else x) x1

/-- A role entry for its tiles, lower tile first; a tile that is fail-silent or RETIRED is not live (R359, R366). -/
def placeRole (s : State) (c role : Nat) (ts : List Nat) : BitVec 64 :=
  let live := fun t => shutterCounts (getTile s t)
  let ten := nextTenure (mget 0 s.hub.tenures role).toNat
  match ts with
  | [] => coldEntry
  | [a] => mkEntry a (live a) 127 false ten c 1
  | a :: b :: _ => mkEntry a (live a) b (live b) ten c 1

/-- Role entries of a list of tiles with their roles. -/
def placeRoles (s : State) (c : Nat) (rs : List (Nat × Nat)) : Map (BitVec 64) :=
  ((rs.map (·.2)).dedup).map (fun r => (r, placeRole s c r ((rs.filter (fun p => p.2 = r)).map (·.1))))

/-- A spare of a shadow as a tile of its casement, between a close and a release. -/
def shadowTile (n base : Nat) (rank : Nat → Nat) (x : Tile) : Tile :=
  let y := fromInitBank (fillInitBank (stepLock n (frameEnd (shadowTables base rank x))))
  stepWrites { y with cyc := { y.cyc with phase := .closed, cycle := 0xFFFFFFFFFFFFFFFF },
                      an := { y.an with cut := true }, net := { y.net with localSt := .inService } }

/-- The shadow has its frames: its casement exists, PAUSED and isolated, and its roles are asked for (R393, R396). -/
def shadowApplied (s : State) : State := match s.hub.shadow with
  | none => s
  | some p => match entryFor s.load.head p.source.val with
    | none => s
    | some e =>
      let c := p.case_.val
      let fs := s.load.frames
      let rank := roleRank fs e.region
      let src := fun (i : Nat) => ((tilesOf e.region)[i]?).getD 0
      let roles := p.map.filterMap (fun m => (imageRole fs (src m.1)).map (fun r => (m.2, p.base + rank r)))
      let ts := p.map.map (·.2)
      let s1 := ts.foldl (fun s t => startFabric (modTile s t (shadowTile e.n p.base rank)) t) s
      let k := { Casement.created p.req.host (maskOf ts) with
        st := .paused, depth := e.d, n := e.n, startOrder := BitVec.ofNat 8 e.order, isolated := true,
        tileOf := p.map, imageRegion := e.region, digest := match getCase s p.source.val with | some z => z.digest | none => [],
        chan := { Chan.clear with mask := maskOf ts } }
      let s2 := restLoader (setCase s1 c k)
      requestEpoch (settleFabric s s2) { why := .shadow, avoid := none, roles := placeRoles s2 c roles }

/-- One step of pass 2: the header, one frame, or the trailer, which is only fetched; none while bytes are missing. -/
def pass2Step (s : State) : Option State :=
  let l := s.load
  match l.stage with
  | .header =>
    let n := l.head.length
    if l.buf.length < n then none
    else if (sha384 (l.buf.take n)).take 16 != l.headHash then some (loadStop s .hashMismatch 16 noTile noFrame)
    else some (modLoad s (fun l => { l with buf := l.buf.drop n, stage := .frames }))
  | .frames =>
    let i := l.frameIx
    let hd := l.buf.take 24
    let plen := fieldAt hd 16 4
    let n := 24 + plen + tagSize l.head
    if i = hdrFrames l.head then some (modLoad s (fun l => { l with stage := .trailer }))
    else if l.buf.length < 24 then none
    else if 16384 < plen then some (loadStop s .hashMismatch 16 noTile i)
    else if l.buf.length < n then none
    else if some ((sha384 (l.buf.take n)).take 16) != l.hashes[i]? then some (loadStop s .hashMismatch 16 noTile i)
    else match openFrame l.head i hd (slice l.buf 24 plen) (slice l.buf (24 + plen) (tagSize l.head)) with
      | none => some (loadStop s .authFail 11 noTile i)
      | some p => some (applyFrame (modLoad s (fun l => { l with buf := l.buf.drop n, frameIx := i + 1 })) { frameHead hd with payload := p })
  | .trailer =>
    if l.buf.length < 256 then none
    else
      let s1 := modLoad s (fun l => { l with stage := .complete })
      some (match l.purpose with
        | .load => loadApplied s1
        | .promote => promoteApplied s1
        | .shadow => shadowApplied s1)
  | .complete => none

/-! ### The passes driven by the bytes that arrive -/

/-- One step of the loader on the bytes that it holds. -/
def loadStep (s : State) : Option State := match s.load.phase with
  | .pass1 => match s.load.stage with
    | .header => headStep s
    | .frames => frameStep s
    | .trailer => trailerStep s
    | .complete => none
  | .pass2 => pass2Step s
  | .idle | .takeover | .startUp => none

/-- Steps of one pass as far as the bytes reach. -/
def loadRun (ph : LoadPhase) : Nat → State → State
  | 0, s => s
  | n + 1, s => if s.load.phase != ph then s else match loadStep s with
    | none => s
    | some s1 => loadRun ph n s1

/-- Image bytes arrive from the source; `ended` says that no more come, or that a fetch failed (R333). -/
def feedLoader (s : State) (bytes : List Byte) (ended : Bool) : State :=
  let ph := s.load.phase
  if (ph != .pass1 && ph != .pass2) || s.load.stage == .complete then s
  else
    let s1 := loadRun ph (bytes.length + s.load.buf.length + 4)
      (modLoad s (fun l => { l with buf := l.buf ++ bytes, all := l.all ++ bytes }))
    let l := s1.load
    if ended && l.phase == ph && l.stage != .complete then loadStop s1 .truncated (cutReason s1) noTile (frameNow l)
    else s1

/-- The function of a host that is the image's source resets, or its EN clears: a pass under way fails (R345). -/
def sourceLost (s : State) (h : HostId) : State :=
  let mine := match s.load.req with | some q => q.host == h && !s.load.fromBsp | none => false
  if mine && (s.load.phase == .pass1 || s.load.phase == .pass2) && s.load.stage != .complete
  then loadStop s .truncated (cutReason s) noTile (frameNow s.load) else s

/-! ### Pass 2 begins (R338) -/

/-- Every tile of the target is SHUT, its acknowledgements are in, and the target is cleared. -/
def targetClear (s : State) : Bool :=
  (if s.load.full then s.cases.isEmpty else match getCase s s.load.case_.val with
    | some k => k.st == .loading && k.stop.isNone
    | none => false) &&
  (loadTiles s).all (fun t => (getTile s t).net.shut == .shut && !s.hub.acks.getLsbD t)

/-- The role entries of the image, and the removal of the target's other roles. -/
def loadRoles (s : State) : Map (BitVec 64) :=
  let l := s.load
  let new_ := (caseEntries l.head).flatMap (fun e => placeRoles s e.id
    ((tilesOf e.region).filterMap (fun t => (imageRole l.frames t).map (fun r => (t, r)))))
  let old := if l.full then ((hubBank s).roles.filter (fun p => rtState p.2 != 0)).map (·.1) else rolesOfCase s l.case_.val
  (old.filter (fun r => (mfind new_ r).isNone)).map (fun r => (r, coldEntry)) ++ new_

/-- The domains of the target's tiles power up again, the roles are asked for, and the image is fetched once more. -/
def beginPass2 (s : State) : State :=
  let s1 := (loadTiles s).foldl (fun s t =>
    takeTile s (loadKeeps s) t) s
  let s2 := requestEpoch s1 { why := .load, roles := loadRoles s1, avoid := none }
  let s3 := settleFabric s (beginPass s2 .pass2)
  match s3.load.req with
  | some q => if !s3.load.fromBsp && !(getHost s3 q.host).en then loadStop s3 .truncated 17 noTile noFrame else s3
  | none => s3

end Sys2Proof.Machine
end

