-- ==== Sys2Proof/Machine/Loader.lean ====
section
/-! DEFINITION. Loading Ennum images (spec/13_configuration.md): CFG_LOAD and the events of its two passes and of its
start-up, CFG_STATUS, and the key descriptors. -/

namespace Sys2Proof.Machine

/-! ### CFG_LOAD (R333, R334 rows 1 and 2, R346) -/

def shCfgLoad : Shape := shapeOf 0x801F true false true [(28, 1), (32, 4)]

/-- FULL. -/
def cfgFull (q : Req) : Bool := q.d.target.getLsbD 15

/-- A source that a descriptor names out of its range: byte 28, scatter entries, Length, or what a bulk stream port
source leaves reserved (R346). -/
def badSource (q : Req) (lengthUsed : Bool) : Bool :=
  let n := dW32 q.d 32
  match dByte q.d 28 with
  | 0 => decide (n < 1) || decide (65536 < n) || (lengthUsed && short q (16 * n))
  | 1 => n != 0 || q.d.addrA != 0 || q.d.length != 0
  | _ => true

/-- The loader is in use, by a load or by a pass of a promotion or a shadow. -/
def loaderBusy (s : State) : Bool := s.load.phase != .idle

/-- A casement is under spare promotion or a membership change (R334 row 2). -/
def memberChange (s : State) (c : Nat) : Bool :=
  (match s.hub.promo with | some p => p.case_.val == c | none => false) ||
  (match s.hub.shadow with | some p => p.case_.val == c || p.source.val == c | none => false) ||
  (match getCase s c with
   | some k => (match k.stop with | some (.dissolve _) => true | _ => false)
   | none => false)

def cfgLoadBusy (q : Req) (s : State) : Bool :=
  loaderBusy s || epochBusy s ||
    (if cfgFull q then (List.range 32).any (memberChange s) else memberChange s (dCase q.d).val)

/-- A CFG_LOAD refused at acceptance by a row of R334. -/
def refuseLoad (st : Status) (reason : Nat) (s : State) : Reply × State :=
  (.done st (loadResult 0 reason noTile noFrame), post s 0x103 3 (statusCode st) reason (noFrame % 65536))

/-- A load is accepted: the frame-hash table clears, and pass 1 begins. -/
def acceptLoad (q : Req) (s : State) : State :=
  let c := (dCase q.d).val
  let s1 := modLoad (dropAnswer s) (fun l => { loaderIdle l with
    phase := .pass1, purpose := .load, req := some q, full := cfgFull q, case_ := dCase q.d, fromBsp := dByte q.d 28 == 1,
    lastHost := BitVec.ofNat 8 q.host.val, lastTarget := BitVec.ofNat 8 (loadTarget (cfgFull q) c) })
  post s1 0x101 3 q.host.val (loadTarget (cfgFull q) c) 0

def cfgLoadBody (q : Req) (s : State) : Reply × State :=
  let mine := isSteward q s || (!cfgFull q && isOwner q s)
  if !mine then refuseLoad .refusedOwnership 1 s
  else if dirty shCfgLoad q || (cfgFull q && (dCase q.d).val != 0) || badSource q true
  then (.done .badField (loadResult 0 0 noTile noFrame), s)
  else if cfgLoadBusy q s then refuseLoad .busy 2 s
  else (.later, acceptLoad q s)

/-- CFG_LOAD: pass 1 begins (R333, R334, R346). -/
def execCfgLoad (q : Req) (s : State) : Host.Outcome State Fault Refusal :=
  .next (runDesc (.cfgLoad q) 0x10 q (cfgLoadBody q) s)

/-- IMAGE_DATA: image bytes from a host source (R333, R334, R339). -/
def execImageData (bytes : List Byte) (ended : Bool) (s : State) : Host.Outcome State Fault Refusal :=
  .next (if s.load.fromBsp then s else feedLoader s bytes ended)

/-- FETCH_TIMEOUT: 100 ms without the first segment of an answer (R333). -/
def execFetchTimeout (s : State) : Host.Outcome State Fault Refusal :=
  .next (if s.load.fetch.isSome && (getStream s 12).part.isNone
    then loadStop s .truncated (cutReason s) noTile (frameNow s.load) else s)

/-- LOAD_PAUSE_TIMEOUT: 10 ms without a pause, the casement stops at its current step (R338). -/
def execLoadPauseTimeout (c : CaseId) (s : State) : Host.Outcome State Fault Refusal :=
  .next (match getCase s c.val with
    | some k => if k.stop.isSome && k.st == .running then
        stopGo (modCase (post s 0x10A 3 c.val 0 (getTile s (leadTile k s)).cyc.step) c.val (fun k => { k with st := .paused, halt := false })) c.val
      else s
    | none => s)

/-- LOAD_PASS2_START: the target is SHUT and cleared, and pass 2 begins (R338, R339). -/
def execLoadPass2Start (s : State) : Host.Outcome State Fault Refusal :=
  .next (if s.load.purpose == .load && s.load.phase == .takeover && targetClear s then beginPass2 s else s)

/-! ### Start-up (R341 to R343) -/

/-- The epoch change of the load has switched: every router has flipped (R341, R251). -/
def loadFlipped (s : State) : Bool :=
  !s.hub.waiting.any (fun w => w.why == .load) &&
    (match s.hub.epoch with | some e => e.why != .load || e.stage == .draining | none => true)

/-- Pass 2 is over and the new roles stand: start-up may begin. -/
def startUpDue (s : State) : Bool :=
  s.load.purpose == .load && s.load.phase == .pass2 && s.load.stage == .complete && loadFlipped s

/-- DEFAULTS_RESTORED for every casement of a mask, whose flags are cleared (R343). -/
def restoreDefaults (s : State) (m : BitVec 32) : State :=
  modDev (((List.range 32).filter (fun c => m.getLsbD c)).foldl (fun s c => post s 0x106 3 c 0 0) s)
    (fun d => { d with changed := d.changed &&& ~~~m })

/-- The pins of a tile assigned to a casement, at the start-up of a full image (R352). -/
def assignPins (s : State) (t c : Nat) : State :=
  modDev s (fun d => { d with pinCase := (List.range 18).foldl (fun m i => mset m (pinAt t i) (Fin.ofNat 32 c)) d.pinCase })

/-- Roles of a casement that the image gives to two tiles of which one is not live (R345, R369). -/
def lostRoles (s : State) (c : Nat) : Map Nat :=
  (hubBank s).roles.filterMap (fun p =>
    let e := p.2
    if rtCase e != c || rtState e != 1 then none
    else if rtLive0 e && !rtLive1 e && rtTile1 e != 127 then some (p.1, rtTile1 e)
    else if rtLive1 e && !rtLive0 e && rtTile0 e != 127 then some (p.1, rtTile0 e)
    else none)

/-- A casement at the start of its start-up: step (a) begins in its tiles. -/
def caseStartUp (s : State) (e : CaseEntry) : State :=
  let l := s.load
  let host := match l.req with | some q => q.host | none => s.hif.steward
  let s1 := if l.full then (tilesOf e.region).foldl (fun s t => assignPins s t e.id) (setCase s e.id (Casement.created host e.region)) else s
  let s2 := modTiles s1 (tilesOf e.region) (fun _ x => stepLock e.n { x with
    net := { x.net with localSt := if x.net.localSt == .retired then .retired else .inService } })
  modCase s2 e.id (fun k => { k with
    st := .loading, depth := e.d, n := e.n, startOrder := BitVec.ofNat 8 e.order, floatPins := bitAt e.policy 0, dupPause := false,
    tileOf := (tilesOf e.region).map (fun t => (rankIn e.region t, t)), imageRegion := e.region, digest := l.digest,
    rates := [], pace := 0, stallLimit := 1000, startUp := some 0,
    lost := (lostRoles s e.id).foldl (fun m p => mset m p.1 p.2) k.lost })

/-- Start-up begins: flags are told and cleared, the casements of a full image are created, the tiles in no region go to
the spare pool (R323, R342, R343). -/
def enterStartUp (s : State) : State :=
  let l := s.load
  let es := caseEntries l.head
  let mask := if l.full then l.existed else BitVec.twoPow 32 l.case_.val &&& s.dev.changed
  let s1 := restoreDefaults (modLoad s (fun l => { l with phase := .startUp })) mask
  let s2 := if l.full then (allTiles.filter (fun t => (entryOfTile es t).isNone)).foldl (fun s t => poolTile s (fun _ => []) t) s1 else s1
  settleFabric s (es.foldl caseStartUp s2)

/-- After the last step the casement releases cycle 0: the journal's LOAD record where it was journalled, journal
settings at image values, CFG_STARTED_UP (R341, R342, R383). -/
def caseStarted (s : State) (c : Nat) : State :=
  let s1 := jnlLoadRecord s c
  let s2 := modJnlCase s1 c (fun j => { JnlCase.image with number := j.number, syncHi := j.syncHi })
  let order := match getCase s2 c with | some k => k.startOrder.toNat | none => 0
  post (startCycles (modCase s2 c (fun k => { k with startUp := none })) c) 0x105 3 c order 0

/-- The last casement of the load has started up: the load is over (R347). -/
def loadOver (s : State) : State :=
  if s.cases.any (fun p => p.2.st == .loading) then s
  else
    let l := s.load
    let s1 := if l.full then modLoad (modDev s (fun d => { d with fullUp := true })) (fun l => { l with fullFailed := false }) else s
    settleFaultN (loadEnd s1 .ok 5 0 noTile (hdrFrames l.head))

/-- The action of a start-up step other than (a), in every tile of the casement that is not fail-silent (R341). -/
def stepAction (s : State) (c code : Nat) (ts : List Nat) : State := match code with
  | 1 => settleFabric s (stepOutputs (stateBanks s c) c ts)
  | 2 => ts.foldl stepState s
  | _ => modTiles s ts (fun _ x => stepWrites x)

/-- Every tile's generator has locked. -/
def allLocked (s : State) (ts : List Nat) : Bool := ts.all (fun t => (getTile s t).cyc.clk == .locked)

/-- The next start-up step of a casement that is loading. -/
def startUpNext (s : State) (c : Nat) : State := match getCase s c with
  | none => s
  | some k => match k.startUp with
    | none => s
    | some n =>
      let ts := liveTilesOf s k
      let code := ((startSteps k.startOrder.toNat)[n]?).getD 0
      if k.st != .loading || (code = 0 && !allLocked s ts) then s
      else
        let s1 := if code = 0 then s else stepAction s c code ts
        let s2 := modCase s1 c (fun k => { k with startUp := some (n + 1) })
        if n + 1 < 4 then s2 else loadOver (caseStarted s2 c)

/-- Start-up is under way, begun now where it is due. -/
def nowStartUp (s : State) : State := if startUpDue s then enterStartUp s else s

/-- START_UP_STEP: a casement completes its next start-up step (R341). -/
def execStartUpStep (c : CaseId) (s : State) : Host.Outcome State Fault Refusal :=
  let s1 := nowStartUp s
  .next (if s1.load.purpose == .load && s1.load.phase == .startUp then startUpNext s1 c.val else s1)

/-- A promotion's spare that does not lock fails as a start-up of a load would (R371 step 3). -/
def spareUnlocked (s : State) (c : Nat) : Bool := match s.hub.promo with
  | some p => p.case_.val == c && p.stage == .passes && s.load.phase == .idle && (getTile s p.spare.val).cyc.clk == .locking
  | none => false

/-- START_UP_LOCK_TIMEOUT: 1 ms in step (a) without lock (R341). -/
def execStartUpLockTimeout (c : CaseId) (s : State) : Host.Outcome State Fault Refusal :=
  let s1 := nowStartUp s
  let late : Option Nat := match getCase s1 c.val with
    | some k => if k.st == .loading && k.startUp == some 0 then (liveTilesOf s1 k).find? (fun t => (getTile s1 t).cyc.clk != .locked) else none
    | none => none
  .next (if spareUnlocked s1 c.val then endPromo s1 .busy (256 * 18)
    else match late with
    | some t => if s1.load.purpose == .load && s1.load.phase == .startUp then loadStop s1 .busy 18 t noFrame else s1
    | none => s1)

/-! ### CFG_STATUS (R349) -/

def shCfgStatus : Shape := shapeOf 0 true false true []

/-- Load state: start-up from the moment that it is due; passes of a promotion or a shadow are no load. -/
def loadStateByte (s : State) : Nat :=
  if s.load.purpose != .load then 0 else if startUpDue s then 4 else phaseCode s.load.phase

/-- The 256 bytes of CFG_STATUS. -/
def cfgStatusBytes (s : State) : List Byte :=
  let l := s.load
  let d := s.dev
  let bits := fun (n : Nat) (f : Nat → Bool) => (List.range n).foldl (fun v k => v + 2 ^ k * (f k).toNat) 0
  let own := l.purpose == .load && l.phase != .idle
  layout 256 ([(0, 1, loadStateByte s), (1, 1, l.lastStatus.toNat), (2, 1, l.lastReason.toNat), (3, 1, l.lastHost.toNat),
    (4, 1, l.lastTarget.toNat), (8, 8, if own then l.all.length else 0), (16, 4, if own then l.frameIx else 0),
    (20, 4, l.lastFrame.toNat),
    (24, 1, bits 4 (fun k => (keySlot s k).programmed) + 16 * bits 4 (fun k => (keySlot s k).revoked)),
    (25, 1, bits 2 (fun j => (Config.contentKey j).isSome)), (28, 8, Config.serial.toNat)] ++
    (List.range 33).map (fun i => (36 + 4 * i, 4, rollCounter d i)) ++
    [(168, 4, (rollCopy d).seqNo.toNat), (176, 4, d.changed.toNat)])

def cfgStatusBody (q : Req) (s : State) : Reply × State :=
  checked [(dirty shCfgStatus q || short q 256, .badField)] (fun s => replyCopy q (cfgStatusBytes s) 0 s) s

/-- CFG_STATUS: the loader's state (R349). -/
def execCfgStatus (q : Req) (s : State) : Host.Outcome State Fault Refusal :=
  .next (runDesc (.cfgStatus q) 0x11 q (cfgStatusBody q) s)

/-! ### Keys (R329, R348) -/

def shCfgKey : Shape := shapeOf 0 true false true []

/-- Programmed slots that are not revoked. -/
def liveSlots (s : State) : List Nat := (List.range 4).filter (fun k => (keySlot s k).programmed && !(keySlot s k).revoked)

/-- The rows of R348 for a record, up to the last; action 1 programs, 2 revokes. -/
def keyRows (action : Nat) (r : List Byte) (s : State) : List (Bool × Status) :=
  let slot := keySlot s (byteAt r 1)
  let key := slice r 64 97
  let signed := (liveSlots s).any (fun k => (keySlot s k).hash == sha384 key) && ecdsaOk (sha384 (slice r 0 168)) key (slice r 168 96)
  [(!signed, .authFail), (action == 1 && slot.programmed, .locked),
   (action == 2 && (!slot.programmed || slot.revoked), .badField), (action == 2 && liveSlots s == [byteAt r 1], .conflict)]

/-- The first row of R348. -/
def badKeyRecord (action : Nat) (r : List Byte) : Bool :=
  byteAt r 0 != action || decide (3 < byteAt r 1) || fieldAt r 2 6 != 0 || fieldAt r 161 7 != 0 || fieldAt r 264 8 != 0 ||
  fieldAt r 8 8 != Config.serial.toNat || (action == 2 && fieldAt r 16 48 != 0)

/-- The OTP bits of a slot written. -/
def writeSlot (action : Nat) (r : List Byte) (s : State) : State :=
  let slot : KeySlot := if action = 1 then { programmed := true, revoked := false, hash := slice r 16 48 }
    else { keySlot s (byteAt r 1) with revoked := true }
  modDev s (fun d => { d with keys := mset d.keys (byteAt r 1) slot })

/-- A key record acted on. -/
def keyAction (action : Nat) (q : Req) (s : State) : Reply × State :=
  let r := padTo 272 (q.io.dataA.take 272)
  if !q.io.bufOk then (.dma, s)
  else if badKeyRecord action r then (.done .badField 0, s)
  else if action == 1 && (List.range 4).all (fun k => !(keySlot s k).programmed) && fieldAt r 64 200 == 0
  then (.done .ok (byteAt r 1), writeSlot action r s)
  else checked (keyRows action r s)
    (fun s => (.done .ok (byteAt r 1), post (writeSlot action r s) 0x107 3 (byteAt r 1) action 0)) s

def cfgKeyBody (action : Nat) (q : Req) (s : State) : Reply × State :=
  checked [(!isSteward q s, .refusedOwnership), (dirty shCfgKey q || short q 272, .badField)] (keyAction action q) s

/-- CFG_KEY_PROGRAM: a key slot of OTP (R348). -/
def execCfgKeyProgram (q : Req) (s : State) : Host.Outcome State Fault Refusal :=
  .next (runDesc (.cfgKeyProgram q) 0x12 q (cfgKeyBody 1 q) s)

/-- CFG_KEY_REVOKE: a key slot of OTP (R348). -/
def execCfgKeyRevoke (q : Req) (s : State) : Host.Outcome State Fault Refusal :=
  .next (runDesc (.cfgKeyRevoke q) 0x13 q (cfgKeyBody 2 q) s)

end Sys2Proof.Machine
end

