-- ==== Sys2Proof/Machine/Bsp.lean ====
section
/-! DEFINITION. The bulk stream port (spec/12_bulk_stream.md): the link, its segments and streams, and the descriptors
0x80 to 0x85. -/

namespace Sys2Proof.Machine

/-! ### The link (R302, R305) -/

/-- Rate and width that the port trains at: those of BSP_LINK, else BSP_DEFAULT as shipped (R302). -/
def linkSet (b : Bsp) : Nat × Nat := b.set.getD (3, 8)

/-- Training begins: lanes lock afresh, what was on its way is lost, and the peer's credits and the device's grants are gone until
link-up. -/
def startTraining (b : Bsp) : Bsp :=
  { b with up := false, training := true, locked := 0, credits := [], rxFails := 0, txFails := none, txNext := 0, rxSeg := .none,
           line := [], txQueue := [], retrains := bump b.retrains, streams := mmap (fun _ x => { x with granted := 0 }) b.streams }

/-- The link goes down and retrains: 0 CRC, 1 lane (R305). -/
def linkLost (s : State) (cause : Nat) : State :=
  if s.bsp.up then post (modBsp s startTraining) 0x502 5 cause 0 0 else s

/-! ### Blocks on the lanes (R301, R303) -/

/-- The 64 bits of a block before the scrambler x^58 + x^39 + 1 of the other side; `r` is what the lane carried before them. -/
def descramble (r : BitVec 58) (y : BitVec 64) : BitVec 64 :=
  y ^^^ (y <<< 39) ^^^ (y <<< 58) ^^^ (r >>> 19).zeroExtend 64 ^^^ r.zeroExtend 64

/-- The 64 bits of a block after the scrambler. No bit of a product below depends on more than the 25 lowest bits of `c`. -/
def scramble (r : BitVec 58) (x : BitVec 64) : BitVec 64 :=
  let c := x ^^^ (r >>> 19).zeroExtend 64 ^^^ r.zeroExtend 64
  c ^^^ (c <<< 39) ^^^ (c <<< 58)

/-- The last 58 bits that a lane carried. -/
def laneBits (y : BitVec 64) : BitVec 58 := (y >>> 6).truncate 58

/-- A valid sync header: a data or a control block. -/
def goodHeader (b : LinkBlock) : Bool := b.sync == 1 || b.sync == 2

/-- A lane has locked: 64 valid sync headers came one after another (R302). -/
def hasLocked (l : List LinkBlock) : Bool :=
  (l.foldl (fun (a : Nat × Bool) b => let n := if goodHeader b then a.1 + 1 else 0; (n, a.2 || decide (64 ≤ n))) (0, false)).2

/-- The widest permitted width whose lanes all lock (R302). -/
def trainedWidth (permitted : Nat) (locked : BitVec 8) : Option Nat :=
  [8, 4, 2, 1].find? (fun w => decide (w ≤ permitted) && (List.range w).all (fun k => locked.getLsbD k))

/-- What the lanes that carried blocks leave in the receiver. -/
def lastBits (lanes : List (List LinkBlock)) : Map (BitVec 58) :=
  (lanes.zip (List.range 8)).foldl (fun m p => match p.1.getLast? with | some b => mset m p.2 (laneBits b.bits) | none => m) []

/-- BSP_LINK_UP: training ends where a permitted width locks, by the blocks that have come on each lane; credits are granted afresh,
and what is not acknowledged goes out again, the oldest first (R302, R305). -/
def execBspLinkUp (lanes : List (List LinkBlock)) (s : State) : Host.Outcome State Fault Refusal :=
  let p := linkSet s.bsp
  let locked := (lanes.zip (List.range 8)).foldl (fun v q => if hasLocked q.1 then setBit v q.2 true else v) (0 : BitVec 8)
  .next (if !s.bsp.training || s.dev.bspDom != .on || !s.dev.vsd then s
    else match trainedWidth p.2 locked with
      | none => modBsp s (fun b => { b with locked := locked })
      | some w =>
        let s1 := post (modBsp s (fun b => { b with
          up := true, training := false, rate := p.1, width := w, locked := locked, txNext := 0, rxSeg := .none, rxLane := 0,
          rxScr := lastBits lanes, txSlots := 0 })) 0x501 5 p.1 w 0
        let s2 := (List.range 13).foldl topUp s1
        match s.bsp.linkReq with
        | some q => complete q .ok w (modBsp s2 (fun b => { b with linkReq := none }))
        | none => s2)

/-- BSP_TRAINING_TIMEOUT: BSP_LINK completes 10 ms after training begins, the link down (R318). -/
def execBspTrainingTimeout (s : State) : Host.Outcome State Fault Refusal :=
  .next (match s.bsp.linkReq with
    | some q => if s.bsp.up then s else complete q .ok 0 (modBsp s (fun b => { b with linkReq := none }))
    | none => s)

/-- LANE_LOCK_LOSS: a lane loses lock, and a link that is up goes down (R305). -/
def execLaneLockLoss (lane : Fin 8) (s : State) : Host.Outcome State Fault Refusal :=
  .next (if s.bsp.locked.getLsbD lane.val
    then linkLost (post (modBsp s (fun b => { b with locked := setBit b.locked lane.val false })) 0x503 5 lane.val 0 0) 1
    else s)

/-- Credits from the peer for an outbound stream (R303, R307). -/
def takeCredit (s : State) (stream credits : Nat) : State :=
  if 13 ≤ stream && stream < 16 then modBsp s (fun b => { b with credits := mset b.credits stream (mget 0 b.credits stream + credits) })
  else s

/-- Segments up to and including a link sequence leave the replay buffer; a journal segment advances the export pointer
in mode 1 (R303, R305, R386). -/
def ackSegments (s : State) (seqNo : BitVec 12) : State :=
  let r := s.bsp.replay
  match r.findIdx? (fun p => p.seqNo == seqNo) with
  | none => s
  | some i =>
    let n := ((r.take (i + 1)).filter (fun p => p.stream = 14)).foldl (fun n p => max n p.upTo) 0
    let s1 := modBsp s (fun b => { b with replay := r.drop (i + 1), txNext := b.txNext - (i + 1), txFails := none })
    if s.jnl.mode = 1 then modJnl s1 (fun j => { j with export_ := BitVec.ofNat 64 (max j.export_.toNat n) }) else s1

/-- A NAK: the segment named and every later one go out again; a segment's third failure in succession takes the link down
(R305). -/
def resendFrom (s : State) (seqNo : BitVec 12) : State := match s.bsp.replay.findIdx? (fun p => p.seqNo == seqNo) with
  | none => s
  | some i =>
    let n := match s.bsp.txFails with
      | some p => if p.1 == seqNo then p.2 + 1 else 1
      | none => 1
    if 3 ≤ n then linkLost s 0 else modBsp s (fun b => { b with txNext := min b.txNext i, txFails := some (seqNo, n) })

/-! ### Pattern frames (R309 to R311) -/

/-- A token of a pattern frame (R310). -/
inductive Token where
  | zeros (n : Nat)
  | bytes (l : List Byte)
  | reserved
  /-- the bytes that it needs are not there -/
  | cut
  deriving DecidableEq, Repr

/-- The tokens of coded bytes, up to one that cannot be passed (R310). -/
def tokens : Nat → List Byte → List Token
  | 0, _ | _, [] => []
  | f + 1, b :: r =>
    let t := b.toNat
    if t < 0x80 then .zeros (t + 1) :: tokens f r
    else if t < 0xC0 then
      if r.length < t - 0x7F then [.cut] else .bytes (r.take (t - 0x7F)) :: tokens f (r.drop (t - 0x7F))
    else if t = 0xC0 then
      if r.length < 2 then [.cut] else .zeros (fieldAt r 0 2 + 1) :: tokens f (r.drop 2)
    else [.reserved]

/-- How many bytes a token appends. -/
def Token.length : Token → Nat
  | .zeros n => n
  | .bytes l => l.length
  | .reserved | .cut => 0

/-- The bytes that a token appends. -/
def Token.append : Token → List Byte
  | .zeros n => List.replicate n 0
  | .bytes l => l
  | .reserved | .cut => []

/-- The difference string of coded bytes, L bytes long; the reason where they do not decode, a reserved token first (R310, R311,
R453). -/
def decodeTokens (n : Nat) (coded : List Byte) : Except Nat (List Byte) :=
  let ts := tokens coded.length coded
  if ts.contains .reserved then .error 2
  else if ts.contains .cut || ts.foldl (fun a t => a + t.length) 0 != n then .error 3
  else .ok (ts.flatMap Token.append)

/-- A frame of L bytes fits a block of its target (R308). -/
def frameFits (b : Bind) (block n : Nat) : Bool :=
  if b.fabric then decide (4096 * block + b.offset + n ≤ 65536)
  else decide (4 * b.offset + n ≤ 8192) && n % 4 == 0

/-- A whole frame decoded: the block it goes to and its bytes, or the reason of its refusal, in the order of R311. -/
def decodeFrame (x : Stream) (f : List Byte) : Except Nat (Bind × Nat × List Byte) :=
  match x.bind with
  | none => .error 1
  | some b =>
    let n := fieldAt f 0 2 + 1
    let key := bitAt (byteAt f 2) 0
    let block := if bitAt (byteAt f 2) 1 then b.alternate else b.primary
    if decide (3 < byteAt f 2) || byteAt f 3 != 0 || fieldAt f 8 8 != 0 || decide (8192 < n) then .error 2
    else if f.length < 16 then .error 3
    else match decodeTokens n (f.drop 16) with
      | .error e => .error e
      | .ok d =>
        match (if key then some (List.replicate n 0) else x.ref) with
        | none => .error 4
        | some r =>
          if r.length != n then .error 4
          else if !frameFits b block n then .error 5
          else .ok (b, block, List.zipWith (· ^^^ ·) d r)

/-- Frame number of a frame's bytes, 0 before it is in. -/
def frameNo (f : List Byte) : Nat := fieldAt f 4 4

/-- A complete frame of a pattern stream: refused, or its reference taken and its delivery on the way (R310 to
R312). -/
def takeFrame (s : State) (k : Nat) (f : List Byte) : State :=
  match decodeFrame (getStream s k) f with
  | .error e => refuseFrame s k e (frameNo f % 65536)
  | .ok p =>
    let d : Delivery := { stream := k, frame := frameNo f, block := p.2.1, first := p.1.offset, due := 0, bytes := p.2.2,
                          order := s.bsp.decoded }
    modStream (modBsp s (fun b => { b with decoded := b.decoded + 1 })) k (fun x => { x with ref := some p.2.2, ready := x.ready ++ [d] })

/-- A segment of a pattern stream (R309, R311). A segment that continues no frame is discarded. -/
def patternSegment (s : State) (k : Nat) (first last : Bool) (data : List Byte) : State :=
  let x := getStream s k
  let s1 := match x.part with
    | some old => if first
        then modStream (refuseFrame s k (if x.bind.isNone then 1 else 6) (frameNo old % 65536)) k (fun x => { x with part := none })
        else s
    | none => s
  match (getStream s1 k).part, first with
  | none, false => s1
  | old, _ =>
    let f := old.getD [] ++ data
    let s2 := modStream s1 k (fun x => { x with part := if last then none else some f })
    flushStreams (if last then takeFrame s2 k f else s2) [k]

/-! ### Image bytes (R317, R333) -/

/-- A segment of stream 12: an answer is one frame of exactly the bytes that its FETCH asked for. -/
def imageSegment (s : State) (first last : Bool) (data : List Byte) : State := match s.load.fetch with
  | none => s
  | some n =>
    let x := getStream s 12
    let f := x.part.getD [] ++ data
    let bad := first != x.part.isNone || decide (n < f.length) || (last && f.length != n)
    let s1 := modStream s 12 (fun x => { x with part := if last || bad then none else some f })
    if bad then loadStop s1 .truncated (cutReason s1) noTile (frameNow s1.load)
    else if last then feedLoader (modLoad s1 (fun l => { l with fetch := none })) f false
    else s1

/-! ### Segments that arrive (R304 to R307) -/

/-- A segment is discarded with NAK; the third failure of one segment takes the link down. A segment out of sequence
is no failure of the one expected. -/
def nakSegment (s : State) (fails : Bool) : State :=
  let s1 := sendCtl (modBsp s (fun b => { b with naks := bump b.naks, rxFails := if fails then b.rxFails + 1 else b.rxFails }))
    (ctlBlock 0x05 s.bsp.rxSeq.toNat)
  if fails && decide (3 ≤ s1.bsp.rxFails) then linkLost s1 0 else s1

/-- An accepted segment acts on its stream. -/
def useSegment (s : State) (k : Nat) (first last : Bool) (data : List Byte) : State :=
  let violation := fun (why : Nat) => post (modBsp s (fun b => { b with violations := bump b.violations })) 0x506 5 k why 0
  if 13 ≤ k then violation 0
  else if (getStream s k).granted < creditsOf data.length then violation 1
  else
    let s1 := modStream s k (fun x => { x with granted := x.granted - creditsOf data.length })
    topUp (if k = 12 then imageSegment s1 first last data else patternSegment s1 k first last data) k

/-- A segment with its header, payload and CRC. -/
def takeSegment (s : State) (hdr : BitVec 64) (payload : List Byte) (crc : BitVec 32) : State :=
  let h := hdr.toNat
  let len := bitsOf h 16 16
  let bad := crc != crc32 (leBytes 8 h ++ payload) || bitsOf h 4 4 != 0 || bitsOf h 10 6 != 0 || bitsOf h 44 20 != 0 ||
    len != payload.length || decide (len < 1) || decide (2048 < len)
  if bad then nakSegment s true
  else if bitsOf h 32 12 != s.bsp.rxSeq.toNat then nakSegment s false
  else
    let s1 := sendCtl (modBsp s (fun b => { b with rxSeq := b.rxSeq + 1, rxFails := 0 })) (ctlBlock 0x04 (bitsOf h 32 12))
    useSegment s1 (bitsOf h 0 4) (bitAt h 8) (bitAt h 9) payload

/-! ### Blocks that arrive (R301 to R303) -/

/-- The segment that comes in is at another point. -/
def setRxSeg (s : State) (r : RxSeg) : State := modBsp s (fun b => { b with rxSeg := r })

/-- A data block: the header after a START, then payload, CRC-32 and padding; one outside a segment is discarded (R304). -/
def dataBlock (s : State) (x : BitVec 64) : State := match s.bsp.rxSeg with
  | .none => s
  | .header =>
    let n := bitsOf x.toNat 16 16
    if n = 0 || 2048 < n then nakSegment (setRxSeg s .none) true else setRxSeg s (.body x [])
  | .body hdr bytes =>
    let n := bitsOf hdr.toNat 16 16
    let l := bytes ++ leBytes 8 x.toNat
    if l.length < n + 4 then setRxSeg s (.body hdr l)
    else takeSegment (setRxSeg s .none) hdr (l.take n) (BitVec.ofNat 32 (fieldAt l n 4))

/-- A control block (R303). A START that comes before a segment has ended fails that segment. -/
def ctlArrives (s : State) (x : BitVec 64) : State :=
  let f := fun (i n : Nat) => bitsOf x.toNat (8 * i) (8 * n)
  match f 0 1 with
  | 0x01 =>
    let s1 := if s.bsp.rxSeg == .none then s else nakSegment s true
    if s1.bsp.up then setRxSeg s1 .header else s1
  | 0x02 | 0x07 => s
  | 0x03 => takeCredit s (f 1 1) (f 2 2)
  | 0x04 => ackSegments s (BitVec.ofNat 12 (f 1 2))
  | 0x05 => resendFrom s (BitVec.ofNat 12 (f 1 2))
  | 0x06 => if f 1 1 < s.bsp.width then modBsp s (fun b => { b with rxLane := (f 1 1 + 1) % b.width }) else s
  | _ => modBsp s (fun b => { b with blockErrors := bump b.blockErrors })

/-- The next block of the link, off the lane whose turn it is: descrambled, then taken as its sync header says (R301, R302). -/
def takeBlock (s : State) (b : LinkBlock) : State :=
  if !s.bsp.up || s.dev.bspDom != .on then s
  else
    let lane := s.bsp.rxLane
    let x := descramble (mget 0 s.bsp.rxScr lane) b.bits
    let s1 := modBsp s (fun p => { p with rxScr := mset p.rxScr lane (laneBits b.bits), rxLane := (lane + 1) % p.width })
    if b.sync = 1 then dataBlock s1 x
    else if b.sync = 2 then ctlArrives s1 x
    else modBsp s1 (fun p => { p with blockErrors := bump p.blockErrors })

/-- BSP_SEGMENT_RECEIVE: the blocks of a segment arrive, with any that stand between them (R301, R303 to R307). -/
def execBspSegmentReceive (blocks : List LinkBlock) (s : State) : Host.Outcome State Fault Refusal :=
  .next (blocks.foldl takeBlock s)

/-- BSP_CREDIT: a CREDIT block arrives (R303, R307). -/
def execBspCredit (b : LinkBlock) (s : State) : Host.Outcome State Fault Refusal := .next (takeBlock s b)

/-- BSP_ACK: an ACK block arrives, and the segments that it acknowledges are released (R303). -/
def execBspAck (b : LinkBlock) (s : State) : Host.Outcome State Fault Refusal := .next (takeBlock s b)

/-- BSP_NAK: a NAK block arrives (R305). -/
def execBspNak (b : LinkBlock) (s : State) : Host.Outcome State Fault Refusal := .next (takeBlock s b)

/-- BSP_ALIGN: an ALIGN block arrives on a lane, and the order of the lanes is found again; while the port trains it leaves only what
the lane carried (R302). -/
def execBspAlign (lane : Fin 8) (b : LinkBlock) (s : State) : Host.Outcome State Fault Refusal :=
  .next (if s.bsp.up && decide (lane.val < s.bsp.width) then takeBlock (modBsp s (fun p => { p with rxLane := lane.val })) b
    else if s.bsp.training then modBsp s (fun p => { p with rxScr := mset p.rxScr lane.val (laneBits b.bits) })
    else s)

/-! ### Segments sent (R304, R305, R314 to R317) -/

/-- A segment of an outbound stream enters the replay buffer and takes its credits. -/
def sendSegment (s : State) (k upTo : Nat) (data : List Byte) : State :=
  modBsp s (fun b => { b with replay := b.replay ++ [{ seqNo := b.txSeq, stream := k, data := data, upTo := upTo }],
                              txSeq := b.txSeq + 1,
                              credits := mset b.credits k (mget 0 b.credits k - creditsOf data.length) })

/-- Bytes as data blocks, padded with zeros, at most n blocks (R304). -/
def dataBlocks : Nat → List Byte → List LinkBlock
  | 0, _ | _, [] => []
  | n + 1, l => { sync := 1, bits := BitVec.ofNat 64 (leNat (l.take 8)) } :: dataBlocks n (l.drop 8)

/-- The header of an outbound segment: FIRST and LAST stand in each (R304). -/
def segHeader (p : SentSeg) : Nat := p.stream + 2 ^ 8 * 3 + 2 ^ 16 * p.data.length + 2 ^ 32 * p.seqNo.toNat

/-- The blocks of a segment: START, header, payload, CRC-32, padding (R304). -/
def segBlocks (p : SentSeg) : List LinkBlock :=
  let h := leBytes 8 (segHeader p) ++ p.data
  { sync := 2, bits := ctlBlock 0x01 0 } :: dataBlocks (h.length + 4) (h ++ leBytes 4 (crc32 h).toNat)

/-- With nothing in line for the lanes, the next segment not sent yet joins it. -/
def feedQueue (b : Bsp) : Bsp :=
  if !b.txQueue.isEmpty then b
  else match b.replay.drop b.txNext with
    | [] => b
    | p :: _ => { b with txQueue := segBlocks p, txNext := b.txNext + 1 }

/-- A block goes onto a lane, scrambled. -/
def putOnLane (b : Bsp) (lane : Nat) (x : LinkBlock) : Bsp :=
  let y := scramble (mget 0 b.txScr lane) x.bits
  { b with line := mset b.line lane { sync := x.sync, bits := y }, txScr := mset b.txScr lane (laneBits y) }

/-- One block on every lane: blocks in line in turn from lane 0, IDLE where none is; an ALIGN on all lanes every 16,384 slots
(R302, R303). -/
def laneSlot (b0 : Bsp) : Bsp :=
  if b0.txSlots + 1 = 16384 then
    (List.range b0.width).foldl (fun b k =>
      putOnLane b k { sync := 2, bits := ctlBlock 0x06 (k + 2 ^ 8 * b0.width + 2 ^ 16 * b0.rate) }) { b0 with txSlots := 0 }
  else
    let b1 := feedQueue b0
    (List.range b1.width).foldl (fun b k => putOnLane b k (b1.txQueue.getD k { sync := 2, bits := ctlBlock 0x02 0 }))
      { b1 with txSlots := b1.txSlots + 1, txQueue := b1.txQueue.drop b1.width }

/-- A nanosecond of the link: at most one slot passes, and whether one does is open (assumption 30). -/
def linkTick (s : State) : State :=
  if !s.bsp.up then s
  else
    let p := drawNat s 36
    if p.1 % 2 = 1 then modBsp p.2 laneSlot else p.2

/-- How many of at most n units a segment carries: at least one, open beyond that. -/
def someOf (s : State) (site n : Nat) : Nat × State :=
  let p := drawNat s site
  (1 + p.1 % n, p.2)

/-- Bytes that the credits of a stream allow in one segment. -/
def creditBytes (s : State) (k : Nat) : Nat := min 2048 (256 * mget 0 s.bsp.credits k)

/-- Stream 13: whole export entries (R314). -/
def sendExports (s : State) : State :=
  let top := min (min 64 s.bsp.exports.length) (creditBytes s 13 / 32)
  if top = 0 then s
  else
    let p := someOf s 31 top
    sendSegment (modBsp p.2 (fun b => { b with exports := b.exports.drop p.1 })) 13 0 ((s.bsp.exports.take p.1).flatMap (·.bytes))

/-- Stream 14: journal bytes in their order, in export mode 1 (R316, R386). -/
def sendJournal (s : State) : State :=
  let next := max s.bsp.jnlNext.toNat (jnlOldest s.jnl)
  let top := min (s.jnl.head.toNat - next) (creditBytes s 14)
  if s.jnl.mode != 1 || top == 0 then s
  else
    let p := someOf s 32 top
    sendSegment (modBsp p.2 (fun b => { b with jnlNext := BitVec.ofNat 64 (next + p.1) })) 14 (next + p.1) (jnlGet s.jnl next p.1)

/-- The oldest record that the recorder still holds. -/
def recOldest (r : Recorder) : Nat := if r.counts.wrap = 0 then 0 else recSeq r - recSlots

/-- Stream 15: the sequence number of the first record, then records in order (R316). -/
def sendRecords (s : State) : State :=
  let next := max s.bsp.recNext (recOldest s.rcd)
  let top := min (min 127 (recSeq s.rcd - next)) ((creditBytes s 15 - 8) / 16)
  if top = 0 then s
  else
    let p := someOf s 33 top
    let recs := (List.range p.1).flatMap (fun i => match mfind s.rcd.slots ((next + i) % recSlots) with
      | some e => recBytes e
      | none => List.replicate 16 0)
    sendSegment (modBsp p.2 (fun b => { b with recNext := next + p.1 })) 15 0 (leBytes 5 next ++ [0, 0, 0] ++ recs)

/-- BSP_SEGMENT_SEND: with credits and data in hand an outbound stream sends one segment; on stream 12, a FETCH for a
load (R305, R307, R317). -/
def execBspSegmentSend (stream : Fin 16) (s : State) : Host.Outcome State Fault Refusal :=
  let k := stream.val
  .next (if k = 12 then askFetch s
    else if k < 13 || !s.bsp.up || decide (64 ≤ s.bsp.replay.length) || !s.bsp.outEn.getLsbD (k - 13) then s
    else match k with
      | 13 => sendExports s
      | 14 => sendJournal s
      | _ => sendRecords s)

/-! ### Descriptors (R318, R319) -/

def shBspLink : Shape := shapeOf 0 false false false [(28, 2)]
def shBspStatus : Shape := shapeOf 0 true false true []
def shStreamBind : Shape := (shapeOf caseBits false false false [(28, 2), (31, 5)]).withBits [(30, 1)]
def shExportSet : Shape := shapeOf caseBits false false false [(28, 1), (32, 4)]
def shStreamReset : Shape := shapeOf caseBits false false false [(29, 1)]
def shOutSet : Shape := (shapeOf 0 false false false []).withBits [(28, 7)]

/-- BSP_LINK retrains the port; one still waiting ends with the link down, as does one for link off. -/
def relink (q : Req) (s : State) : Reply × State :=
  let rate := dByte q.d 28
  let s0 := match s.bsp.linkReq with
    | some old => complete old .ok 0 (modBsp s (fun b => { b with linkReq := none }))
    | none => s
  let s1 := modBsp s0 (fun b => { startTraining b with set := some (rate, dByte q.d 29) })
  if rate = 0 then (.done .ok 0, modBsp s1 (fun b => { b with training := false, retrains := s.bsp.retrains }))
  else (.later, modBsp s1 (fun b => { b with linkReq := some q }))

def bspLinkBody (q : Req) (s : State) : Reply × State :=
  let bad := dirty shBspLink q || decide (3 < dByte q.d 28) || !([1, 2, 4, 8].contains (dByte q.d 29))
  checked [(!isSteward q s, .refusedOwnership), (bad, .badField)] (relink q) s

/-- BSP_LINK: rate and width set, and the port retrains (R302, R318). -/
def execBspLink (q : Req) (s : State) : Host.Outcome State Fault Refusal :=
  .next (runDesc (.bspLink q) 0x80 q (bspLinkBody q) s)

/-- The 64 bytes of BSP_STATUS (R319). -/
def bspStatusBytes (s : State) : List Byte :=
  let b := s.bsp
  let bits := fun (f : Stream → Bool) => (List.range 12).foldl (fun v k => v + 2 ^ k * (f (getStream s k)).toNat) 0
  layout 64 [(0, 1, if b.up then b.rate else 0), (1, 1, if b.up then b.width else 0), (2, 1, b.locked.toNat), (3, 1, b.outEn.toNat),
    (4, 4, b.blockErrors), (8, 4, b.naks), (12, 4, b.retrains), (16, 2, bits (fun x => x.bind.isSome)),
    (18, 2, bits (fun x => x.ref.isSome)), (20, 4, b.refused), (24, 4, b.discarded), (28, 4, b.violations)]

def bspStatusBody (q : Req) (s : State) : Reply × State :=
  checked [(dirty shBspStatus q || short q 64, .badField)] (fun s => replyCopy q (bspStatusBytes s) 0 s) s

/-- BSP_STATUS: the port's state (R319). -/
def execBspStatus (q : Req) (s : State) : Host.Outcome State Fault Refusal :=
  .next (runDesc (.bspStatus q) 0x81 q (bspStatusBody q) s)

/-- A stream bound to another casement than the named one. -/
def bound2Other (q : Req) (k : Nat) (s : State) : Bool := match (getStream s k).bind with
  | some b => b.case_ != dCase q.d
  | none => false

/-- Target fields of a binding outside R308. -/
def badBind (q : Req) : Bool :=
  let fabric := dByte q.d 31 == 1
  decide (1 < dByte q.d 31) || [dByte q.d 32, dByte q.d 33].any (fun n => decide ((if fabric then 15 else 7) < n)) ||
  decide ((if fabric then 4095 else 2047) < dW16 q.d 34)

/-- The binding that a descriptor asks for. -/
def newBind (q : Req) (t : TileId) : Bind :=
  { case_ := dCase q.d, tile := t, fabric := dByte q.d 31 == 1, primary := dByte q.d 32, alternate := dByte q.d 33,
    offset := dW16 q.d 34 }

/-- A binding ends: frames that still wait for it are refused. -/
def unbindStream (s : State) (k : Nat) : State :=
  let s1 := (getStream s k).ready.foldl (fun s d => refuseFrame s k 1 (d.frame % 65536)) s
  topUp (modStream s1 k (fun x => { x with bind := none, ready := [] })) k

def bspStreamBindBody (q : Req) (s : State) : Reply × State :=
  let k := dByte q.d 29
  let on := bitAt (dByte q.d 30) 0
  checked (r59Tile q (if on then .poke else .peek) s ++
      [(dirty shStreamBind q || decide (11 < k) || badBind q, .badField), (bound2Other q k s, .conflict)])
    (fun s => match on, tileId (dByte q.d 28) with
      | true, some t => (.done .ok 0, markChanged (flushStreams (modStream s k (fun x => { x with bind := some (newBind q t) })) [k]) (dCase q.d).val)
      | _, _ => (.done .ok 0, markChanged (unbindStream s k) (dCase q.d).val)) s

/-- BSP_STREAM_BIND: a pattern stream bound to a target, or unbound (R308, R318). -/
def execBspStreamBind (q : Req) (s : State) : Host.Outcome State Fault Refusal :=
  .next (runDesc (.bspStreamBind q) 0x82 q (bspStreamBindBody q) s)

def bspExportSetBody (q : Req) (s : State) : Reply × State :=
  checked (r59Tile q .poke s ++ [(dirty shExportSet q, .badField)])
    (fun s => (.done .ok 0, markChanged (modCv s (dByte q.d 28) (fun v => { v with expMask := BitVec.ofNat 32 (dW32 q.d 32) }))
      (dCase q.d).val)) s

/-- BSP_EXPORT_SET: the accumulators of a tile whose snaps are exported (R314). -/
def execBspExportSet (q : Req) (s : State) : Host.Outcome State Fault Refusal :=
  .next (runDesc (.bspExportSet q) 0x83 q (bspExportSetBody q) s)

def bspStreamResetBody (q : Req) (s : State) : Reply × State :=
  let k := dByte q.d 29
  checked (r59 q .poke none true s ++ [(dirty shStreamReset q || decide (11 < k), .badField), (bound2Other q k s, .conflict)])
    (fun s => (.done .ok 0, modStream s k (fun x => { x with part := none, ref := none }))) s

/-- BSP_STREAM_RESET: incomplete frames are discarded and the reference is invalid (R318). -/
def execBspStreamReset (q : Req) (s : State) : Host.Outcome State Fault Refusal :=
  .next (runDesc (.bspStreamReset q) 0x84 q (bspStreamResetBody q) s)

def bspOutSetBody (q : Req) (s : State) : Reply × State :=
  checked [(!isSteward q s, .refusedOwnership), (dirty shOutSet q, .badField)]
    (fun s => (.done .ok 0, modBsp s (fun b => { b with outEn := BitVec.ofNat 3 (dByte q.d 28) }))) s

/-- BSP_OUT_SET: which outbound streams may transmit (R318). -/
def execBspOutSet (q : Req) (s : State) : Host.Outcome State Fault Refusal :=
  .next (runDesc (.bspOutSet q) 0x85 q (bspOutSetBody q) s)

end Sys2Proof.Machine
end

