-- ==== Sys2Proof/Machine/Converter.lean ====
section
/-! DEFINITION. The converter's events and descriptors (spec/07_converters.md), with the captures that
spec/09_calibration.md runs on it. -/

namespace Sys2Proof.Machine

/-! ### Events -/

/-- TRIGGER_DELAY_EXPIRY: the first sampling window of the triggered sequence may begin (R178). -/
def execTriggerDelayExpiry (t : TileId) (s : State) : Host.Outcome State Fault Refusal :=
  .next (if (getTile s t.val).cv.delay && !dozed s t.val
    then modCv s t.val (fun v => { v with delay := false, seq := if v.seq.isSome then v.seq else some (0, 0) })
    else s)

/-- CONVERSION_ISSUE: the next conversion issues on a free slice (R171, R175). -/
def execConversionIssue (t : TileId) (s : State) : Host.Outcome State Fault Refusal :=
  let x := getTile s t.val
  .next (if !x.cv.on || dozed s t.val then s
    else match nextConv x with
      | none => s
      | some (f, r, i) => match sliceFor x r i with
        | none => s
        | some k =>
          let v := countIssue x f
          modCv s t.val (fun _ => { v with inFlight := v.inFlight ++ [{ slice := k, for_ := f, refOk := cvRefOk x }] }))

/-- The record of a conversion in progress. -/
def convRecord (x : Tile) : ConvFor → Nat
  | .entry e => cvEntry x e
  | .slot j => cvSlotEntry x j
  | .capture => match x.cv.capture with
    | some c => captureRecord c
    | none => 0

/-- The coefficient set of a conversion: entry k has set k, slot j set 16 + j (R221). -/
def convSet : ConvFor → Nat
  | .entry e => e
  | .slot j => 16 + j
  | .capture => 0

/-- A corrected result enters its targets, or is excluded (R183, R185). -/
def takeResult (s : State) (t : Nat) (f : ConvFor) (ok : Bool) (raw : Nat) : State :=
  let x := getTile s t
  let r := convRecord x f
  if ok then
    mergeResult (modCv s t (fun v => { v with unsettled := false })) t r (correctedCode (mget 0 x.cal.coef (convSet f)).toNat raw)
  else
    let s1 := excludeResult s t r (convSet f)
    match f with
    | .slot _ => modCv s1 t (fun v => { v with injExcluded := true })
    | _ => s1

/-- V_P and V_N of a conversion (R169). A cell zero reads the cell's OUT against VMID, at the trim of its round (R227). -/
def convInputs (s : State) (w : AnalogIn) (t : Nat) (f : ConvFor) : Int × Int :=
  let x := getTile s t
  let r := convRecord x f
  match f, (x.cv.capture.map (·.kind) : Option CapKind) with
  | .capture, some (.cellZero k round trim _) =>
    (zeroLevel w x t k (signed 8 (trim + BitVec.ofNat 8 (2 ^ (7 - round))).toNat), refVolts w .vmid)
  | _, _ => (inputLevel s w t (entSelP r), inputLevel s w t (entSelN r))

/-- The raw code that a slice gives: R169 with the slice's error, which keeps within 2 LSB (R170) but while CAL_SLICE measures the
slices' offsets (R228). -/
def convCode (s : State) (w : AnalogIn) (t : Nat) (f : ConvFor) : Nat :=
  let x := getTile s t
  let v := convInputs s w t f
  let err := match f, (x.cv.capture.map (·.kind) : Option CapKind) with
    | .capture, some (.slices _ _) => w.err
    | _, _ => max (-2) (min 2 w.err)
  clampCode (rawCode s.fresh (convRecord x f) v.1 v.2 (refVolts w (cvRefLevel x)) + err)

/-- The run of an injected slot ends once its last result has merged: its waiting change applies, and CV_INJECT
completes (R180, R196). -/
def endSlotRun (s : State) (t : Nat) : State :=
  let x := getTile s t
  match x.cv.inj with
  | none => s
  | some (j, i) =>
    if i < entRepeat (cvSlotEntry x j) || x.cv.inFlight.any (fun c => c.for_ == .slot j) then s
    else
      let s1 := modTile s t (fun x =>
        let y := match mfind x.cv.injChange j with
          | some q => cfgWrite x 0x21 (136 + 16 * j) 10 (dBits q.d 32 10)
          | none => x
        { y with cv := { y.cv with inj := none, injChange := mdel y.cv.injChange j, injWait := mdel y.cv.injWait j } })
      match mfind x.cv.injWait j with
      | some q => if x.cv.injExcluded then complete q .referenceUnsettled 0 s1 else complete q .ok s.dev.now.toNat s1
      | none => s1

/-- The sequence ends once its last result has merged (R175). -/
def endSequence (s : State) (t : Nat) : State :=
  let v := (getTile s t).cv
  match v.seq with
  | some (16, _) =>
    if v.inFlight.any (fun c => match c.for_ with | .entry _ => true | _ => false) then s
    else modCv s t (fun v => { v with
      seq := none, seqDone := BitVec.ofNat 64 (satAdd (2 ^ 64 - 1) v.seqDone.toNat 1), lastBoundary := s.dev.now })
  | _ => s

/-- A capture kept for CAL_COMPUTE, and its descriptor's result (R224, R233). -/
def endSystemCapture (s : State) (t : Nat) (c : Capture) (set : Nat) (high : Bool) : State :=
  let pt : CapPoint := { entry := c.entry, sum := c.sum, n := c.got, min := c.min, max := c.max, ideal := dW16 c.req.d 36 }
  let mean16 := (32 * c.sum + c.got) / (2 * c.got)
  complete c.req .ok (mean16 + 2 ^ 32 * c.min + 2 ^ 48 * c.max)
    (modCal s t (fun k => { k with points := mset k.points (2 * set + high.toNat) pt }))

/-- A round of the binary search of a cell's offset trim ends, from the sign bit down: the round's bit stands while
the mean is not above mid-scale (R227). The last round leaves the trim standing until CAL_CELL_ZERO_END. -/
def endZeroRound (s : State) (t : Nat) (c : Capture) (cell round : Nat) (trim old : BitVec 8) : State :=
  let bit := 2 ^ (7 - round)
  let kept := if c.sum ≤ 8192 * c.got then trim + BitVec.ofNat 8 bit else trim
  modCv s t (fun v => { v with capture := some { c with
    kind := .cellZero cell (round + 1) kept old, tried := 0, got := 0, sum := 0, min := 16383, max := 0,
    done := decide (7 ≤ round) } })

/-- Offset of a slice's mean from SL0's in trim steps of 0.125 LSB, to the nearest (R228). -/
def trimSteps (sum0 sumK : Nat) : Int :=
  let d : Int := (sum0 : Int) - sumK
  if 0 ≤ d then (d + 16) / 32 else -((-d + 16) / 32)

/-- CAL_SLICE has all four means: the trims are committed, or refused where one would leave its range (R228). -/
def endSlices (s : State) (t : Nat) (c : Capture) (sums : List Nat) : State :=
  let b := calBlock (getTile s t)
  let want := fun k => signed 8 (blockSliceTrim t b k).toNat + trimSteps (sums.getD 0 0) (sums.getD k 0)
  let out := [1, 2, 3].any (fun k => decide (want k < -128) || decide (127 < want k))
  if out then
    complete c.req .plausibilityFail (leNat ((List.range 4).map (blockSliceTrim t b)) + 2 ^ 32)
      (postTile s t 0x902 1 t 40 1)
  else
    let new_ := ([1, 2, 3].map (fun k => (k, BitVec.ofInt 8 (want k)))).foldl (fun m p => mset m p.1 p.2) b.slices
    modTile s t (beginCommit c.req (.apply 40) { b with slices := new_ })

/-- A capture goes on or ends after one of its conversions (R223, R227, R228). -/
def endCapture (s : State) (t : Nat) : State :=
  let x := getTile s t
  match x.cv.capture with
  | none => s
  | some c =>
    if c.done || x.cv.inFlight.any (fun v => v.for_ == .capture) then s
    else
      let off := modCv s t (fun v => { v with capture := none })
      if c.got = c.want then
        match c.kind with
        | .system set high => endSystemCapture off t c set high
        | .cellZero cell round trim old => endZeroRound s t c cell round trim old
        | .slices k sums =>
          if k < 3 then modCv s t (fun v => { v with capture := some { c with
            kind := .slices (k + 1) (sums ++ [c.sum]), tried := 0, got := 0, sum := 0, min := 16383, max := 0 } })
          else endSlices off t c (sums ++ [c.sum])
      else if 2 * c.want ≤ c.tried then complete c.req .referenceUnsettled 0 off
      else s

/-- A settled raw code counted in the capture register (R223). -/
def captureResult (s : State) (t : Nat) (ok : Bool) (raw : Nat) : State :=
  if ok then
    modCv s t (fun v => { v with capture := v.capture.map (fun c => { c with
      got := c.got + 1, sum := c.sum + raw, min := min c.min raw, max := max c.max raw }) })
  else s

/-- CONVERSION_COMPLETE: the conversion on a slice ends and its result merges (R169, R175, R183, R185). `w` is the world at the
last edge of the sampling window; the matrix is taken as it stands when the conversion ends (assumption 9). -/
def execConversionComplete (t : TileId) (slice_ : Fin 4) (w : AnalogIn) (s : State) :
    Host.Outcome State Fault Refusal :=
  let x := getTile s t.val
  .next (match x.cv.inFlight.find? (fun c => c.slice = slice_.val && !dozed s t.val) with
    | none => s
    | some c =>
      let raw := convCode s w t.val c.for_
      let s0 := { s with fresh := s.fresh + 1 }
      let ok := c.refOk && cvRefOk x
      let s1 := modCv s0 t.val (fun v => { v with inFlight := v.inFlight.erase c })
      let s2 := if c.for_ == .capture then captureResult s1 t.val ok raw else takeResult s1 t.val c.for_ ok raw
      settleFabric s (cvPump (endCapture (endSequence (endSlotRun s2 t.val) t.val) t.val) t.val))

/-- INJ_SOURCE_EDGE: at the second SAR edge after it, a rising edge that an enabled slot's INJ_SRC has had requests the slot
(R180, R182). -/
def execInjSourceEdge (t : TileId) (j : Fin 4) (s : State) : Host.Outcome State Fault Refusal :=
  let x := getTile s t.val
  .next (match dueEdge s t.val true (· == .slot j.val) with
    | some n =>
      if !x.cv.on || dozed s t.val then s
      else if bitAt (cvSlotSource x j.val) 12 then (cvRequest (dropEdge s t.val n) t.val j.val).2
      else dropEdge s t.val n
    | none => s)

/-- ACC_SNAP_EDGE: a rising edge that an enabled ACC_SNAPSRC has had snaps the accumulator and its tracker (R187). -/
def execAccSnapEdge (t : TileId) (a : Fin 32) (s : State) : Host.Outcome State Fault Refusal :=
  let x := getTile s t.val
  .next (match dueEdge s t.val false (· == .snap a.val) with
    | some n =>
      if !x.cv.on || dozed s t.val then s
      else if bitAt (accRec x a.val) 12 then settleFabric s (snapAcc (dropEdge s t.val n) t.val a.val s.dev.now)
      else dropEdge s t.val n
    | none => s)

/-! ### Descriptors (R195 to R198) -/

def shCvSetup : Shape := shapeOf caseBits false false false [(28, 1), (32, 4)]
def shCvSeq : Shape := shapeOf caseBits true false true [(28, 3)]
def shCvInjSet : Shape := shapeOf caseBits false false false [(28, 2), (32, 10)]
def shCvStart : Shape := shapeOf caseBits false false false [(28, 1)]
def shCvInject : Shape := shapeOf caseBits false false false [(28, 2)]
def shCvAccSet : Shape := shapeOf caseBits false false false [(28, 2), (32, 8)]
def shCvRead : Shape := (shapeOf caseBits true false true [(28, 3)]).withBits [(31, 3)]
def shCvSnap : Shape := shapeOf caseBits false false false [(28, 1), (32, 4)]

/-- A set-up in the shadow waits for the next boundary, which is now when no sequence runs (R175, R176). -/
def shadowWait (q : Req) (x : Tile) (s : State) : Reply × State :=
  let t := dByte q.d 28
  let s1 := setTile s t { x with cv := { x.cv with shadowWait := x.cv.shadowWait ++ [q] } }
  (.later, cvPump (markChanged s1 (dCase q.d).val) t)

def cvSetupBody (q : Req) (s : State) : Reply × State :=
  checked (r59Tile q .poke s ++ [(dirty shCvSetup q || badCvCtrl (dW32 q.d 32), .badField)])
    (fun s => shadowWait q (cfgWrite (getTile s (dByte q.d 28)) 0x21 0 4 (dW32 q.d 32)) s) s

/-- CV_SETUP: the shadow CV_CTRL (R173, R176). -/
def execCvSetup (q : Req) (s : State) : Host.Outcome State Fault Refusal :=
  .next (runDesc (.cvSetup q) 0x60 q (cvSetupBody q) s)

def cvSeqSetBody (q : Req) (s : State) : Reply × State :=
  let t := dByte q.d 28
  let first := dByte q.d 29
  let n := dByte q.d 30
  let bad := dirty shCvSeq q || decide (15 < first) || decide (n < 1) || decide (16 < first + n)
  checked (r59Tile q .poke s ++ [(bad, .badField)])
    (fun s =>
      let x := cfgWrite (getTile s t) 0x21 (8 + 8 * first) (8 * n) (leNat (q.io.dataA.take (8 * n)))
      let written := (List.range n).map (fun i => cvShadowEntry x (first + i))
      if !q.io.bufOk then (.dma, s)
      else if written.any dirtyEntry || badCvTable (cvShadowEntry x) then (.done .badField 0, s)
      else shadowWait q x s) s

/-- CV_SEQ_SET: shadow sequence entries from host memory (R174, R176, R177). -/
def execCvSeqSet (q : Req) (s : State) : Host.Outcome State Fault Refusal :=
  .next (runDesc (.cvSeqSet q) 0x61 q (cvSeqSetBody q) s)

def cvInjSetBody (q : Req) (s : State) : Reply × State :=
  let t := dByte q.d 28
  let j := dByte q.d 29
  let bad := dirty shCvInjSet q || decide (3 < j) || badCvSlot (dW64 q.d 32) (dW16 q.d 40)
  checked (r59Tile q .poke s ++ [(bad, .badField)])
    (fun s =>
      let v := (getTile s t).cv
      let busy := v.injPending.getLsbD j || (match v.inj with | some p => p.1 == j | none => false)
      let s1 := if busy then modCv s t (fun v => { v with injChange := mset v.injChange j q })
        else modTile s t (fun x => cfgWrite x 0x21 (136 + 16 * j) 10 (dBits q.d 32 10))
      (.done .ok 0, markChanged s1 (dCase q.d).val)) s

/-- CV_INJ_SET: one injected slot, at once or when its run ends (R180). -/
def execCvInjSet (q : Req) (s : State) : Host.Outcome State Fault Refusal :=
  .next (runDesc (.cvInjSet q) 0x62 q (cvInjSetBody q) s)

def cvStartBody (q : Req) (s : State) : Reply × State :=
  checked (r59Tile q .poke s ++ [(dirty shCvStart q, .badField)])
    (fun s => let r := cvTrigger s (dByte q.d 28)
      (match r.1 with
       | .taken => .done .ok 0
       | .discarded => .done .overrun 0
       | .missed => .done .calibrationActive 0, r.2)) s

/-- CV_START: a trigger (R178, R179). -/
def execCvStart (q : Req) (s : State) : Host.Outcome State Fault Refusal :=
  .next (runDesc (.cvStart q) 0x63 q (cvStartBody q) s)

def cvInjectBody (q : Req) (s : State) : Reply × State :=
  let t := dByte q.d 28
  let j := dByte q.d 29
  let x := getTile s t
  let bad := dirty shCvInject q || decide (3 < j) || !bitAt (cvSlotSource x j) 12
  checked (r59Tile q .poke s ++ [(bad, .badField)])
    (fun s =>
      let busy := x.cv.injPending.getLsbD j || (match x.cv.inj with | some p => p.1 == j | none => false)
      if busy then (.done .overrun 0, (cvRequest s t j).2)
      else if capturing x then (.done .calibrationActive 0, s)
      else (.later, (cvRequest (modCv s t (fun v => { v with injWait := mset v.injWait j q })) t j).2)) s

/-- CV_INJECT: a request for one injected slot; a slot already pending or running discards it first, also during a capture
(R180, R182, R183, R453). -/
def execCvInject (q : Req) (s : State) : Host.Outcome State Fault Refusal :=
  .next (runDesc (.cvInject q) 0x64 q (cvInjectBody q) s)

def cvAccSetBody (q : Req) (s : State) : Reply × State :=
  let t := dByte q.d 28
  let bad := dirty shCvAccSet q || decide (31 < dByte q.d 29) || badAccRecord (dW64 q.d 32)
  checked (r59Tile q .poke s ++ [(bad, .badField)])
    (fun s => (.done .ok 0, markChanged (settleFabric s
      (modTile s t (fun x => cfgWrite x 0x21 (200 + 8 * dByte q.d 29) 8 (dW64 q.d 32)))) (dCase q.d).val)) s

/-- CV_ACC_SET: one accumulator record (R188). -/
def execCvAccSet (q : Req) (s : State) : Host.Outcome State Fault Refusal :=
  .next (runDesc (.cvAccSet q) 0x65 q (cvAccSetBody q) s)

/-- The 32 bytes of one accumulator set (R197). -/
def accBytes (a : AccSet) (time : Time) : List Byte :=
  layout 32 [(0, 8, a.sum.toNat), (8, 8, a.sumsq.toNat), (16, 4, a.count.toNat + 2 ^ 31 * a.full.toNat),
    (20, 2, a.excl.toNat), (24, 8, time.toNat)]

/-- The 16 bytes of one tracker set (R197). -/
def trkBytes (k : TrkSet) (time : Time) : List Byte :=
  layout 16 [(0, 2, k.min.toNat), (2, 2, k.max.toNat), (4, 4, k.count.toNat), (8, 8, time.toNat)]

/-- The read's set is the snapshot set, and it clears it (R196). -/
def readSnap (q : Req) : Bool := bitAt (dByte q.d 31) 0
def readClear (q : Req) : Bool := bitAt (dByte q.d 31) 1

/-- Field checks of CV_ACC_READ and CV_TRK_READ, with the bytes that a unit takes. -/
def badCvRead (q : Req) (size : Nat) : Bool :=
  dirty shCvRead q || decide (31 < dByte q.d 29) || decide (dByte q.d 30 < 1) || decide (32 < dByte q.d 29 + dByte q.d 30) ||
    short q (size * dByte q.d 30)

/-- The units that a read names. -/
def readUnits (q : Req) : List Nat := (List.range (dByte q.d 30)).map (· + dByte q.d 29)

/-- An accumulator with the set that a read clears emptied. -/
def clearAcc (snap : Bool) (a : Acc) : Acc :=
  if snap then { a with snap := AccSet.empty } else { a with live := AccSet.empty }

def clearTrk (snap : Bool) (k : Trk) : Trk :=
  if snap then { k with snap := TrkSet.empty } else { k with live := TrkSet.empty }

def cvAccReadBody (q : Req) (s : State) : Reply × State :=
  let t := dByte q.d 28
  checked (r59Tile q (if readClear q then .poke else .peek) s ++ [(badCvRead q 32, .badField)])
    (fun s =>
      let x := getTile s t
      let e := edgeTime s
      let bytes := (readUnits q).flatMap (fun n => let a := getAcc x n
        if readSnap q then accBytes a.snap a.snap.time else accBytes a.live e.1)
      let s1 := if readClear q then settleFabric e.2 (modTile e.2 t (fun x =>
        (readUnits q).foldl (fun x n => setAcc x n (clearAcc (readSnap q) (getAcc x n))) x)) else e.2
      if q.io.bufOk then replyCopy q bytes (dByte q.d 30) s1 else (.dma, s)) s

/-- CV_ACC_READ: exact accumulator contents, which it may clear (R190, R197). -/
def execCvAccRead (q : Req) (s : State) : Host.Outcome State Fault Refusal :=
  .next (runDesc (.cvAccRead q) 0x66 q (cvAccReadBody q) s)

def cvTrkReadBody (q : Req) (s : State) : Reply × State :=
  let t := dByte q.d 28
  checked (r59Tile q .peek s ++ [(badCvRead q 16, .badField)])
    (fun s =>
      let x := getTile s t
      let e := edgeTime s
      let bytes := (readUnits q).flatMap (fun n => let k := getTrk x n
        if readSnap q then trkBytes k.snap k.snap.time else trkBytes k.live e.1)
      let s1 := if readClear q then settleFabric e.2 (modTile e.2 t (fun x =>
        (readUnits q).foldl (fun x n => setTrk x n (clearTrk (readSnap q) (getTrk x n))) x)) else e.2
      if q.io.bufOk then replyCopy q bytes (dByte q.d 30) s1 else (.dma, s)) s

/-- CV_TRK_READ: exact tracker contents, which it may clear (R190, R197). -/
def execCvTrkRead (q : Req) (s : State) : Host.Outcome State Fault Refusal :=
  .next (runDesc (.cvTrkRead q) 0x67 q (cvTrkReadBody q) s)

def cvSnapBody (q : Req) (s : State) : Reply × State :=
  let t := dByte q.d 28
  let units := (List.range 32).filter (fun n => bitAt (dW32 q.d 32) n)
  checked (r59Tile q .poke s ++ [(dirty shCvSnap q, .badField)])
    (fun s =>
      let e := edgeTime s
      (.done .ok e.1.toNat, settleFabric s (units.foldl (fun s n => snapAcc s t n e.1) e.2))) s

/-- CV_SNAP: snaps of the named accumulators (R187). -/
def execCvSnap (q : Req) (s : State) : Host.Outcome State Fault Refusal :=
  .next (runDesc (.cvSnap q) 0x68 q (cvSnapBody q) s)

/-- State byte and running entry or slot of CV_STATUS (R198). -/
def cvStateBytes (x : Tile) : Nat × Nat :=
  if capturing x then (4, 0xFF)
  else match x.cv.inj with
    | some p => (3, p.1)
    | none => match x.cv.seq with
      | some p => (2, if p.1 < 16 then p.1 else lastEntry (cvEntry x))
      | none => (x.cv.delay.toNat, 0xFF)

/-- The 64 bytes of CV_STATUS (R198). -/
def cvStatusBytes (x : Tile) : List Byte :=
  layout 64 [(0, 1, cvMode x), (1, 1, recBits x.cv.ctrl.toNat 2 2 + 4 * (cvRefOk x).toNat),
    (2, 1, (cvStateBytes x).1), (3, 1, (cvStateBytes x).2), (4, 4, x.cv.overruns.toNat), (8, 4, x.cv.missed.toNat),
    (12, 4, (x.cv.injOverruns.foldl (fun n p => satAdd 0xFFFFFFFF n p.2.toNat) 0)), (16, 4, x.cv.exclTotal.toNat),
    (20, 8, x.cv.seqDone.toNat), (28, 1, x.cv.injPending.toNat + 16 * x.cv.latched.toNat),
    (32, 8, x.cv.lastBoundary.toNat)]

def cvStatusBody (q : Req) (s : State) : Reply × State :=
  checked (r59Tile q .peek s ++ [(dirty shTileCopy q || short q 64, .badField)])
    (fun s => replyCopy q (cvStatusBytes (getTile s (dByte q.d 28))) 0 s) s

/-- CV_STATUS: the converter's state (R198). -/
def execCvStatus (q : Req) (s : State) : Host.Outcome State Fault Refusal :=
  .next (runDesc (.cvStatus q) 0x69 q (cvStatusBody q) s)

end Sys2Proof.Machine
end

