-- ==== Sys2Proof/Machine/Calib.lean ====
section
/-! DEFINITION. Calibration descriptors 0x70 to 0x75 and the end of a cell zero (spec/09_calibration.md). -/

namespace Sys2Proof.Machine

/-- A capture, a commit or a pending apply of the converter is under way (R229). -/
def calBusy (x : Tile) : Bool := x.cv.capture.isSome || x.cal.commit.isSome || !x.cal.pending.isEmpty

/-- The entry record of a set: the sequence entry in use, or the injected slot's (R221, R223). -/
def setRecord (x : Tile) (k : Nat) : Nat := if k < 16 then cvEntry x k else cvSlotEntry x (k - 16)

/-- The entry record of a set in the shadow table (R225). -/
def shadowRecord (x : Tile) (k : Nat) : Nat := if k < 16 then cvShadowEntry x k else cvSlotEntry x (k - 16)

/-- A capture is requested (R182, R223). -/
def requestCapture (q : Req) (kind : CapKind) (entry want : Nat) (s : State) : Reply × State :=
  let t := dByte q.d 28
  let c : Capture :=
    { req := q, kind := kind, entry := BitVec.ofNat 64 entry, waiting := true, want := want, tried := 0, got := 0,
      sum := 0, min := 16383, max := 0, done := false }
  (.later, cvPump (modCv s t (fun v => { v with capture := some c })) t)

def shCalCapture : Shape := shapeOf caseBits false false false [(28, 3), (32, 6)]
def shCalSet : Shape := shapeOf caseBits false false false [(28, 2)]
def shCalTile : Shape := shapeOf caseBits false false false [(28, 1)]
def shCalLimits : Shape := shapeOf caseBits false false false [(28, 1), (32, 4)]

def calCaptureBody (q : Req) (s : State) : Reply × State :=
  let x := getTile s (dByte q.d 28)
  let k := dByte q.d 29
  let n := dW32 q.d 32
  let bad := dirty shCalCapture q || decide (19 < k) || decide (1 < dByte q.d 30) || decide (n < 16) ||
    decide (65536 < n) || decide (16383 < dW16 q.d 36) || badCvEntry (setRecord x k)
  checked (r59Tile q .poke s ++ [(bad, .badField), (calBusy x, .busy)])
    (requestCapture q (.system k (dByte q.d 30 == 1)) (setRecord x k) n) s

/-- CAL_CAPTURE: N settled raw conversions of a set's entry as its low or high point (R223, R224). -/
def execCalCapture (q : Req) (s : State) : Host.Outcome State Fault Refusal :=
  .next (runDesc (.calCapture q) 0x70 q (calCaptureBody q) s)

/-! ### CAL_COMPUTE (R224, R225) -/

/-- A quotient rounded half away from zero; the divisor is positive. -/
def roundDiv (n d : Int) : Int := if 0 ≤ n then (2 * n + d) / (2 * d) else -((2 * -n + d) / (2 * d))

/-- GQ of two captures. -/
def calGq (lo hi : CapPoint) : Int :=
  roundDiv (65536 * ((hi.ideal : Int) - lo.ideal) * (hi.n * lo.n)) ((hi.sum : Int) * lo.n - lo.sum * hi.n)

/-- OFS16 of the low capture under a gain. -/
def calOfs (lo : CapPoint) (gq : Int) : Int :=
  roundDiv (16 * ((lo.sum : Int) * gq - lo.ideal * 65536 * lo.n)) (lo.n * gq)

/-- The coefficient word of an offset and a gain (R221). -/
def calWord (ofs gq : Int) : Nat := (BitVec.ofInt 16 ofs).toNat + 2 ^ 16 * (BitVec.ofInt 16 (gq - 65536)).toNat

/-- The rows of R225 after the first: the reason, 0 for a set that stands, and the word computed. -/
def calJudge (b : CalBlock) (lo hi : CapPoint) : Nat × Nat :=
  if hi.sum * lo.n ≤ lo.sum * hi.n || hi.ideal ≤ lo.ideal then (3, 0)
  else
    let gq := calGq lo hi
    let ofs := calOfs lo gq
    let w := calWord ofs gq
    if lo.min = 0 || hi.min = 0 || lo.max = 16383 || hi.max = 16383 then (4, w)
    else if b.ofsLimit.toNat < ofs.natAbs then (1, w)
    else if b.gainLimit.toNat < (gq - 65536).natAbs then (2, w)
    else (0, w)

/-- Both captures of a set, with records that stand as the shadow table has them now. -/
def calPoints (x : Tile) (k : Nat) : Option (CapPoint × CapPoint) :=
  match mfind x.cal.points (2 * k), mfind x.cal.points (2 * k + 1) with
  | some lo, some hi =>
    if lo.entry.toNat = shadowRecord x k && hi.entry.toNat = shadowRecord x k then some (lo, hi) else none
  | _, _ => none

def calComputeBody (q : Req) (s : State) : Reply × State :=
  let t := dByte q.d 28
  let k := dByte q.d 29
  let x := getTile s t
  let b := calBlock x
  checked (r59Tile q .poke s ++
      [(dirty shCalSet q || decide (19 < k), .badField), (calBusy x, .busy), ((calPoints x k).isNone, .badField)])
    (fun s => match calPoints x k with
      | none => (.done .badField 0, s)
      | some (lo, hi) =>
        let j := calJudge b lo hi
        if j.1 = 0 then
          (.later, modTile s t (beginCommit q (.apply k)
            (calDated { b with sets := mset b.sets k (BitVec.ofNat 32 j.2) } k s.dev.now)))
        else (.done .plausibilityFail (j.2 + 2 ^ 32 * j.1), postTile s t 0x902 1 t k j.1)) s

/-- CAL_COMPUTE: a coefficient set from its two captures, committed and then applied at a boundary (R225). -/
def execCalCompute (q : Req) (s : State) : Host.Outcome State Fault Refusal :=
  .next (runDesc (.calCompute q) 0x71 q (calComputeBody q) s)

/-! ### Cell zero and slices -/

/-- Offset trim of a cell in use (R219). -/
def cellTrim (t : Nat) (x : Tile) (k : Nat) : BitVec 8 := mget (Config.factoryTrim t k) x.cal.cellTrims k

def calCellZeroBody (q : Req) (s : State) : Reply × State :=
  let t := dByte q.d 28
  let k := dByte q.d 29
  let x := getTile s t
  let cfg := acConfig (acRecord x k)
  let bad := dirty shCalSet q || decide (7 < k) || !(cfg == 1 || cfg == 5 || cfg == 7)
  checked (r59Tile q .poke s ++ [(bad, .badField), (calBusy x, .busy)])
    (requestCapture q (.cellZero k 0 0x80 (cellTrim t x k)) 0 64) s

/-- CAL_CELL_ZERO: the input offset of a cell nulled by binary search of its trim (R227). -/
def execCalCellZero (q : Req) (s : State) : Host.Outcome State Fault Refusal :=
  .next (runDesc (.calCellZero q) 0x72 q (calCellZeroBody q) s)

/-- CAL_CELL_ZERO_END: OUT reconnects and the capture ends; the trim is committed, or the old one stands where the
result is at an end of the range (R227). -/
def execCalCellZeroEnd (t : TileId) (s : State) : Host.Outcome State Fault Refusal :=
  let x := getTile s t.val
  .next (match x.cv.capture with
    | some { req := q, kind := .cellZero k _ trim _, done := true, .. } =>
      let s1 := modCv s t.val (fun v => { v with capture := none })
      let b := calBlock x
      if trim = 0x80 || trim = 0x7F then
        cvPump (complete q .plausibilityFail (trim.toNat + 2 ^ 32) (postTile s1 t.val 0x902 1 t.val (32 + k) 1)) t.val
      else
        let b1 := calDated { b with cells := mset b.cells k trim } (20 + k) s.dev.now
        cvPump (modTile s1 t.val (fun x =>
          let y := beginCommit q (.cell k) b1 x
          { y with cal := { y.cal with cellTrims := mset y.cal.cellTrims k trim } })) t.val
    | _ => s)

def calSliceBody (q : Req) (s : State) : Reply × State :=
  checked (r59Tile q .poke s ++ [(dirty shCalTile q, .badField), (calBusy (getTile s (dByte q.d 28)), .busy)])
    (requestCapture q (.slices 0 []) 0 256) s

/-- CAL_SLICE: the offset trims of SL1 to SL3 matched to SL0 (R228). -/
def execCalSlice (q : Req) (s : State) : Host.Outcome State Fault Refusal :=
  .next (runDesc (.calSlice q) 0x73 q (calSliceBody q) s)

def calLimitsBody (q : Req) (s : State) : Reply × State :=
  let t := dByte q.d 28
  let bad := dirty shCalLimits q || decide (5242 < dW16 q.d 32) || decide (6553 < dW16 q.d 34)
  checked (r59Tile q .poke s ++ [(bad, .badField), (calBusy (getTile s t), .busy)])
    (fun s => (.later, modTile s t (fun x => beginCommit q .limits
      { calBlock x with ofsLimit := BitVec.ofNat 16 (dW16 q.d 32), gainLimit := BitVec.ofNat 16 (dW16 q.d 34) } x))) s

/-- CAL_LIMITS: the plausibility limits, committed to MRAM (R225, R233). -/
def execCalLimits (q : Req) (s : State) : Host.Outcome State Fault Refusal :=
  .next (runDesc (.calLimits q) 0x74 q (calLimitsBody q) s)

def calReadBody (q : Req) (s : State) : Reply × State :=
  let t := dByte q.d 28
  let x := getTile s t
  let b := calBlock x
  checked (r59Tile q .peek s ++ [(dirty shTileCopy q || short q 512, .badField), (calBusy x, .busy)])
    (replyCopy q (blockBytes t b (if x.cal.factory then 0 else 0xA5)) b.seqNo.toNat) s

/-- CAL_READ: the calibration block in use (R230, R233). -/
def execCalRead (q : Req) (s : State) : Host.Outcome State Fault Refusal :=
  .next (runDesc (.calRead q) 0x75 q (calReadBody q) s)

end Sys2Proof.Machine
end

