-- ==== Sys2Proof/Machine/NetOps.lean ====
section
/-! DEFINITION. The way of a packet through the network: input queues of flits, routes, copies, delivery, bounces, arbitration
and links (spec/10_network.md R235 to R257). A flit stands in an input queue of a router until FLIT_RECEIVE brings it over a
link into a queue of the next router; the rest of a router's work needs no time (assumption 26). -/

namespace Sys2Proof.Machine

/-! ### Dateline classes and flits (R237, R238) -/

/-- The link at a port is its ring's dateline (R237). -/
def dateline (t port : Nat) : Bool := match port with
  | 0 => t % 12 == 11
  | 1 => t % 12 == 0
  | 2 => t / 12 == 7
  | _ => t / 12 == 0

/-- The dateline class of a packet on its next link (R237); it came in over port `inPort`. -/
def nextClass (t inPort port : Nat) (c : Fin 2) : Fin 2 :=
  if dateline t port then 1 else if 4 ≤ inPort || (inPort < 2 && 2 ≤ port) then 0 else c

/-- The flits of a packet that enters at a router for some tiles. -/
def flitsOf (p : Packet) (dests : List Nat) : List Moving :=
  let n := hdrLen p.hdr + 1
  (List.range n).map (fun i =>
    { flit := { hdr := p.hdr, data := slice p.data (64 * i) 64, vc := Fin.ofNat 4 (hdrVc p.hdr), cls := 0, last := i + 1 == n },
      first := i == 0, dests := dests, turned := [] })

/-! ### Bounces and copies (R247, R254, R255) -/

/-- The BOUNCE of a packet, with the hints of the bank that it names (R254). -/
def bouncePacket (s : State) (t : Nat) (h : BitVec 64) (data : List Byte) (st : Status) : Packet :=
  let e := roleEntry (rtBank (getTile s t).net (hdrEpoch h)) (hdrDst h)
  let toTile := hdrSrc h = 255
  let hint := if tileAddressed h then (127, 127, 0) else (rtTile0 e, rtTile1 e, if rtState e = 0 then 0 else rtTenure e)
  mkPacket 0x26 (getTile s t).net.svcEpoch 3 t 255
    (if toTile then 0 else hdrSrcTenure h) (if toTile then hdrSrcTenure h % 128 else hdrSrc h)
    (leBytes 1 (statusCode st) ++ [0] ++ leBytes 1 hint.1 ++ leBytes 1 hint.2.1 ++ leBytes 2 hint.2.2 ++ [0, 0] ++
      leBytes 8 h.toNat ++ padTo 48 (data.take 48))

/-- The tiles that a role-addressed packet goes to (R247). -/
def destTiles (e : BitVec 64) (vc : Nat) : List Nat :=
  if rtState e = 0 then []
  else if vc = 0 then liveTiles e
  else if rtLive0 e then [rtTile0 e] else if rtLive1 e then [rtTile1 e] else []

/-- The tiles that a packet goes to from the router at which it enters; none where its tenure is not the entry's, or no tile is
live (R247, R255). -/
def packetDests (s : State) (t : Nat) (h : BitVec 64) : List Nat :=
  if tileAddressed h then [hdrDst h]
  else
    let e := roleEntry (rtBank (getTile s t).net (hdrEpoch h)) (hdrDst h)
    if hdrVc h != 0 && hdrDstTenure h != rtTenure e then [] else destTiles e (hdrVc h)

/-- Flits that wait for room in an input queue: a key of Router.entering. -/
def enterFlits (s : State) (t k : Nat) (fs : List Moving) : State :=
  modNet s t (fun r => { r with entering := mset r.entering k (mget [] r.entering k ++ fs) })

/-- A BOUNCE enters the network at the router that bounces; one that cannot be delivered is dropped (R254). -/
def enterBounce (s : State) (t : Nat) (p : Packet) : State :=
  let s1 := countIn s t (hdrEpoch p.hdr)
  let ds := packetDests s t p.hdr
  if malformed p || ds.isEmpty then dropPacket s1 t p.hdr else enterFlits s1 t 8 (flitsOf p ds)

/-- A packet is bounced at a router: consumed and counted, and its BOUNCE sets out. A VC0 packet and a BOUNCE are dropped
(R254). -/
def bounceAt (s : State) (t : Nat) (h : BitVec 64) (data : List Byte) (st : Status) : State :=
  if hdrVc h = 0 || hdrType h = 0x26 then dropPacket s t h
  else
    let s1 := modNet (countOut s t (hdrEpoch h)) t (fun r => if st == .shuttered
      then { r with bouncedShut := bump r.bouncedShut } else { r with bouncedMoved := bump r.bouncedMoved })
    enterBounce s1 t (bouncePacket s t h data st)

/-- A packet enters the network at a router, from its tile (port 5) or its service (port 4): the header's checks and the check
of its tenure, then its flits wait for their input queue (R240, R247, R255). -/
def enterPacket (s : State) (t port : Nat) (p : Packet) : State :=
  let h := p.hdr
  let s1 := countIn s t (hdrEpoch h)
  let ds := packetDests s t h
  if malformed p then dropPacket s1 t h
  else if ds.isEmpty then bounceAt s1 t h p.data .roleMoved
  else enterFlits s1 t (4 * (5 - port) + hdrVc h) (flitsOf p ds)

/-! ### Ways out of a router (R236, R244, R247) -/

/-- One more branch, joined to one through the same port on which no flit has crossed. -/
def addBranch (b : Branch) : List Branch → List Branch
  | [] => [b]
  | c :: r => if c.port = b.port && !c.begun
      then { c with dests := c.dests ++ b.dests, turned := c.turned ++ b.turned.filter (fun l => !c.turned.contains l) } :: r
      else c :: addBranch b r

/-- The branches of a packet toward some tiles, and whether one of these cannot be reached. -/
def branchesTo (s : State) (t inPort : Nat) (h : BitVec 64) (c : Fin 2) (turned ds : List Nat) : List Branch × Bool :=
  ds.foldl (fun a d => match hop s (rtBank (getTile s t).net (hdrEpoch h)) t d turned with
    | some p => (addBranch { port := Fin.ofNat 4 p.1, cls := nextClass t inPort p.1 c, dests := [d], turned := p.2, begun := false,
                             took := false } a.1, a.2)
    | none => (a.1, true)) ([], false)

/-- What a local or service port does with a packet that has reached it (R249, R256). -/
inductive Port where
  | deliver | drop | bounce
  deriving DecidableEq, Repr

def portDecision (sh : Shut) (listed : Bool) (vc : Nat) : Port :=
  if !listed then .drop
  else if sh == .open_ || vc = 3 then .deliver
  else if vc = 0 then .drop else .bounce

/-- Service port tiles (R5). -/
def hasService (t : Nat) : Bool := t == 0 || t == 11 || t == 84 || t == 95

/-- The way of the packet whose first flit stands at the head of input queue `k`: its branches, and its end at the port here as
the shutter stands now (R236, R247, R256). Each copy beyond the first counts as a packet that enters here (assumption 26). -/
def judge (s : State) (t k : Nat) (m : Moving) : State :=
  let h := m.flit.hdr
  let b := branchesTo s t (k / 8) h m.flit.cls m.turned (m.dests.filter (fun d => d != t))
  let here := m.dests.contains t
  let ends := b.1.length + here.toNat + b.2.toNat
  let s0 := (List.range (ends - 1)).foldl (fun s _ => countIn s t (hdrEpoch h)) s
  let s1 := if b.2 then dropPacket s0 t h else s0
  let set_ := fun (s : State) (e : Ending) =>
    modNet s t (fun r => { r with ways := mset r.ways k { branches := b.1, here := e, took := false } })
  if here then
    let svc := !tileAddressed h && decide (240 ≤ hdrDst h)
    let r := (getTile s t).net
    let entry := roleEntry (rtBank r (hdrEpoch h)) (hdrDst h)
    match portDecision (if svc then r.svcShut else r.shut) (tileAddressed h || listsLive entry t) (hdrVc h) with
    | .deliver => set_ s1 (.port svc [])
    | .drop => set_ (dropPacket s1 t h) .consumed
    | .bounce => set_ (bounceAt s1 t h m.flit.data .shuttered) .consumed
  else set_ s1 (if b.1.isEmpty then .consumed else .none)

/-! ### The ports (R80, R257) -/

/-- A packet delivered: bundles wait for the tile; any other packet is taken at once. -/
def deliver (s : State) (t : Nat) (fs : List Flit) : State := match fs with
  | [] => s
  | f :: _ =>
    let s1 := countOut s t (hdrEpoch f.hdr)
    if hdrType f.hdr = 0x01
    then modNet s1 t (fun r => { r with ejectQ := r.ejectQ ++ [{ hdr := f.hdr, data := fs.flatMap (·.data) }] }) else s1

/-- The local port takes a VC0 flit only while no bundle waits there for the tile, whose buffer may be full (R80). -/
def portTakes (x : Tile) (f : Flit) : Bool := f.vc != 0 || x.net.ejectQ.isEmpty

/-- The head of an input queue leaves it: every branch has taken it, and it has ended here if it ends here. -/
def popHead (s : State) (t k : Nat) : State :=
  let r := (getTile s t).net
  match mget [] r.queues k, mfind r.ways k with
  | m :: rest, some w =>
    if (w.here != .none && !w.took) || !w.branches.all (·.took) then s
    else
      let ways := if m.flit.last then mdel r.ways k
        else mset r.ways k { w with branches := w.branches.map (fun b => { b with took := false }), took := false }
      let s1 := modNet s t (fun r => { r with
        queues := if rest.isEmpty then mdel r.queues k else mset r.queues k rest, ways := ways })
      match m.flit.last, w.here with
      | true, .port _ fs => deliver s1 t fs
      | _, _ => s1
  | _, _ => s

/-- One act of a router on an input queue: a first flit at its head is judged, a flit that ends here is taken, and a head with
nothing left to do leaves. -/
def queueAct (s : State) (t k : Nat) : State :=
  let x := getTile s t
  match mget [] x.net.queues k, mfind x.net.ways k with
  | [], _ => s
  | m :: _, none => if m.first then judge s t k m else s
  | m :: _, some w =>
    let s1 := match w.took, w.here with
      | false, .port svc fs => if portTakes x m.flit
          then modNet s t (fun r => { r with ways := mset r.ways k { w with here := .port svc (fs ++ [m.flit]), took := true } })
          else s
      | false, .consumed => modNet s t (fun r => { r with ways := mset r.ways k { w with took := true } })
      | _, _ => s
    popHead s1 t k

/-- Flits in both class queues of a port and VC, for byte 44 of NET_ROUTER_STATUS (R259). -/
def queueFlits (r : Router) (k : Nat) : Nat := (mget [] r.queues (k / 2 * 2)).length + (mget [] r.queues (k / 2 * 2 + 1)).length

/-- A flit joins an input queue. -/
def joinQueue (s : State) (t k : Nat) (ms : List Moving) : State :=
  let s1 := modNet s t (fun r => { r with queues := mset r.queues k (mget [] r.queues k ++ ms) })
  modNet s1 t (fun r => { r with peak := max r.peak (queueFlits r k) })

/-- The input queue that entering flits join: those of a tile or a service in class 0, and a BOUNCE in the 4 flits that the local
port's VC3 queue keeps for it (R237, R254). -/
def entryQueue (k : Nat) : Nat := if k = 8 then 47 else 8 * (5 - k / 4) + 2 * (k % 4)

/-- Entering flits join their input queue while it holds fewer than 4 (R241). -/
def enterAct (s : State) (t k : Nat) : State :=
  let r := (getTile s t).net
  let fs := mget [] r.entering k
  let n := min fs.length (4 - (mget [] r.queues (entryQueue k)).length)
  if n = 0 then s
  else
    let rest := fs.drop n
    joinQueue (modNet s t (fun r => { r with entering := if rest.isEmpty then mdel r.entering k else mset r.entering k rest }))
      t (entryQueue k) (fs.take n)

/-- A router works until nothing in it can go on without a link, at most n rounds. -/
def routerWork : Nat → State → Nat → State
  | 0, s, _ => s
  | n + 1, s, t =>
    let r := (getTile s t).net
    if r.queues.isEmpty && r.entering.isEmpty then s
    else
      let s1 := (r.entering.map (·.1)).foldl (fun s k => enterAct s t k) s
      let s2 := ((getTile s1 t).net.queues.map (·.1)).foldl (fun s k => queueAct s t k) s1
      if (getTile s2 t).net = r then s2 else routerWork n s2 t

/-- Rounds that empty a router: three acts for each flit in it. -/
def routerSettle (s : State) (t : Nat) : State :=
  let r := (getTile s t).net
  routerWork (3 * ((r.queues ++ r.entering).map (fun p => p.2.length)).sum + 16) s t

/-! ### Links: credits and arbitration (R241, R242) -/

/-- A flit that could cross: the sender's queue, the branch, and the flit as the next router takes it. -/
structure Crossing where
  key : Nat
  branch : Branch
  moving : Moving
  deriving DecidableEq, Repr

/-- Input queue of a port, VC and class (R241). -/
def queueKey (port : Nat) (f : Flit) : Nat := 8 * port + 2 * f.vc.val + f.cls.val

/-- Another packet has begun to pass a link in a VC and class, and its flits are contiguous (R241). -/
def linkHeld (r : Router) (k port : Nat) (vc : Fin 4) (c : Fin 2) : Bool :=
  r.ways.any (fun p => p.1 != k && p.1 % 8 / 2 == vc.val && p.2.branches.any (fun b => b.begun && b.port.val == port && b.cls == c))

/-- The flits that router u could send over a port now: each at the head of its queue, on a branch of its packet, with a credit
for the queue of the router at the other end. -/
def readyFlits (s : State) (u port : Nat) : List Crossing :=
  let r := (getTile s u).net
  let far := (getTile s (neighbour u port)).net
  r.queues.filterMap (fun p => match p.2, mfind r.ways p.1 with
    | m :: _, some w => match w.branches.find? (fun b => b.port.val == port && !b.took) with
      | some b =>
        let f := { m.flit with cls := b.cls }
        if (mget [] far.queues (queueKey (backPort port) f)).length < 4 && !linkHeld r p.1 port f.vc b.cls
        then some { key := p.1, branch := b, moving := { m with flit := f, dests := b.dests, turned := b.turned } } else none
      | none => none
    | _, _ => none)

/-- One of several flits of equal rank: the rule does not say which, so the choice is open (assumption 26). -/
def anyOf (fresh : Nat) : List Crossing → Option Crossing
  | [] => none
  | [c] => some c
  | c :: d :: r => (c :: d :: r)[Config.freeNat fresh 37 % (r.length + 2)]?

/-- The flit that arbitration grants at an output port: VC0 first, then VC3, then VC1 and VC2 in turn (R242). -/
def granted (s : State) (u port : Nat) : Option Crossing :=
  let cs := readyFlits s u port
  let of := fun (v : Fin 4) => cs.filter (fun c => c.moving.flit.vc == v)
  let turn2 := (getTile s u).net.turn2.getLsbD port
  let order := [of 0, of 3, of (if turn2 then 2 else 1), of (if turn2 then 1 else 2)]
  anyOf s.fresh ((order.find? (fun l => !l.isEmpty)).getD [])

/-- The flit on a link at its receiver: the one asked for again after a failure, or the one that arbitration grants (R244). -/
def arriving (s : State) (t port : Nat) : Option Crossing :=
  let u := neighbour t port
  match mfind (getTile s t).net.crcFails port with
  | some n => (readyFlits s u (backPort port)).find? (fun c => c.key = n.2)
  | none => granted s u (backPort port)

/-- A flit crosses: the sender's branch has taken it, its replay buffer keeps the last 16 flits sent, and VC1 and VC2 change turns
(R242, R244). -/
def leaveRouter (s : State) (u port : Nat) (c : Crossing) : State :=
  let s1 := modNet s u (fun r =>
    let all := mget [] r.replay port ++ [c.moving.flit]
    let v := c.moving.flit.vc
    { r with
      replay := mset r.replay port (all.drop (all.length - 16)),
      turn2 := if v = 1 then setBit r.turn2 port true else if v = 2 then setBit r.turn2 port false else r.turn2,
      ways := match mfind r.ways c.key with
        | some w => mset r.ways c.key { w with branches := w.branches.map (fun b =>
            if b = c.branch then { b with begun := true, took := true } else b) }
        | none => r.ways })
  popHead s1 u c.key

/-- A good flit crosses the link at a receiver's port, and both routers go on. -/
def crossLink (s : State) (t port : Nat) (c : Crossing) : State :=
  let u := neighbour t port
  let s1 := leaveRouter { s with fresh := s.fresh + 1 } u (backPort port) c
  let s2 := joinQueue (modNet s1 t (fun r => { r with crcFails := mdel r.crcFails port })) t (queueKey port c.moving.flit) [c.moving]
  routerSettle (routerSettle s2 u) t

/-! ### Senders (R249, R250) -/

/-- The check of a sender at its local port (R249): accepted, or dropped as stale. A tile whose local state is RETIRED sends only
VC3 packets to role 249, also under a role that a bank still lists for it (R364, R367). -/
def senderOk (s : State) (t : Nat) (h : BitVec 64) : Bool :=
  let r := (getTile s t).net
  let mine := if hdrSrc h < 240 then
      let e := roleEntry (rtBank r (hdrEpoch h)) (hdrSrc h)
      listsLive e t && rtTenure e == hdrSrcTenure h
    else hdrSrc h = 255 && bitsOf (hdrSrcTenure h) 0 7 = t && hdrSrcTenure h < 128
  mine && (r.localSt != .retired || (hdrVc h == 3 && hdrDst h == 249 && !tileAddressed h))

/-- A stale sender's packet is dropped and counted; NET_STALE_DROP at most once in 1 ms (R249). -/
def staleDrop (s : State) (t : Nat) (h : BitVec 64) : State :=
  let s1 := modNet s t (fun r => { r with stale := bump r.stale })
  let due := match (getTile s t).net.staleAt with
    | none => true
    | some a => decide (1000000 ≤ (s.dev.now - a).toNat)
  if due then
    postTile (modNet s1 t (fun r => { r with staleAt := some s.dev.now })) t 0x302 2 t (hdrSrc h) (hdrSrcTenure h)
  else s1

/-- The packet with the route epoch that its router gives it (R250). -/
def stampEpoch (r : Router) (p : Packet) : Packet :=
  { p with hdr := setBit p.hdr 50 (if hdrVc p.hdr = 0 then r.vc0Epoch else r.svcEpoch) }

/-! ### Links going down and coming up (R244) -/

/-- The change of the table that marks a link avoided, or not. -/
def linkEpoch (s : State) (t port : Nat) (down : Bool) : State :=
  requestEpoch s { why := .link, roles := [], avoid := some (linkOf t port, down) }

/-- The branches of a router's packets over a link that went down: one that has begun waits for the link; any other goes the other
way round, and a tile that no way reaches loses its copy (R244). -/
def turnBranches (s : State) (t port : Nat) : State :=
  (getTile s t).net.ways.foldl (fun s p =>
    let away := p.2.branches.filter (fun b => b.port.val == port && !b.begun)
    match mget [] (getTile s t).net.queues p.1 with
    | m :: _ => if away.isEmpty then s else
      let stay := p.2.branches.filter (fun b => !(b.port.val == port && !b.begun))
      let new_ := away.foldl (fun a b =>
        let n := branchesTo s t (p.1 / 8) m.flit.hdr m.flit.cls b.turned b.dests
        (n.1.foldl (fun l c => addBranch c l) a.1, a.2 || n.2)) (stay, false)
      let ends := new_.1.length + new_.2.toNat
      let s0 := (List.range (ends - p.2.branches.length)).foldl (fun s _ => countIn s t (hdrEpoch m.flit.hdr)) s
      let s00 := (List.range (p.2.branches.length - ends)).foldl (fun s _ => countOut s t (hdrEpoch m.flit.hdr)) s0
      let s1 := if new_.2 then dropPacket s00 t m.flit.hdr else s00
      modNet s1 t (fun r => { r with ways := mset r.ways p.1 { p.2 with
        branches := new_.1, here := if new_.1.isEmpty && p.2.here == .none then .consumed else p.2.here } })
    | [] => s) s

/-- A link goes down: both routers post NET_LINK_DOWN, and the hub starts an epoch change. The link of a service port
has one router and no avoid bit. -/
def linkDown (s : State) (t port : Nat) : State :=
  if (getTile s t).net.down.getLsbD port then s
  else if port = 4 then
    settleFaultN (postTile (modNet s t (fun r => { r with down := setBit r.down 4 true })) t 0x301 2 t 4 0)
  else
    let u := neighbour t port
    let s1 := modNet s t (fun r => { r with down := setBit r.down port true })
    let s2 := modNet s1 u (fun r => { r with down := setBit r.down (backPort port) true })
    let s3 := postTile (postTile s2 t 0x301 2 t port 0) u 0x301 2 u (backPort port) 0
    let s4 := turnBranches (turnBranches s3 t port) u (backPort port)
    settleFaultN (linkEpoch (routerSettle (routerSettle s4 t) u) t port true)

/-- A link comes up after training. -/
def linkUp (s : State) (t port : Nat) : State :=
  if !(getTile s t).net.down.getLsbD port then s
  else
    let u := neighbour t port
    let s1 := modNet s t (fun r => { r with down := setBit r.down port false, crcFails := mdel r.crcFails port })
    let s2 := modNet s1 u (fun r => { r with
      down := setBit r.down (backPort port) false, crcFails := mdel r.crcFails (backPort port) })
    settleFaultN (linkEpoch s2 t port false)

end Sys2Proof.Machine
end

