-- ==== Sys2Proof/Machine/Cycles.lean ====
section
/-! DEFINITION. Emulated cycles: programme steps, lintels, bundles, stalls, clock generators, the configuration scan and
the tile controller's watchdog (spec/02_boolean_processors.md, spec/03_emulated_cycles.md, spec/14_continuity.md R363,
R365). -/

namespace Sys2Proof.Machine

/-- The generator's output may step the tile (R71). -/
def clkSteps : Clk → Bool
  | .locked | .holdover => true
  | .off | .locking | .unlocked | .failed => false

/-- A tile of a RUNNING casement that is healthy and in a phase. -/
def tileIn (s : State) (t : Nat) (ph : Phase) : Bool :=
  let x := getTile s t
  x.cyc.phase == ph && !x.ctl.failSilent && (match caseOfTile s t with | some p => p.2.st == .running | none => false)

/-! ### Faults in stores and datapaths (R55 to R57, R69) -/

/-- A step of a tile reads a unit: the words of its step, the dictionary entries and slot rows that they name, the
memory words that it reads (R57). -/
def readsUnit (x : Tile) (st : Nat) : StoreUnit → Bool
  | .instruction _ p | .exchange _ p => p.val == st
  | .dictionary c f => (List.range 32).any (fun m => recBits (insWord x (32 * c.val + m) st) 52 12 == f.val)
  | .slotRow b r => (List.range 4).any (fun i => recBits (insWord x b.val st) (16 + 9 * i) 9 / 32 == r.val)
  | .memory b w => (stepAccesses x st (stepResults x st)).any (fun a => !a.write && a.block == b.val && a.word == w.val)

/-- The lintel's scrub reads a unit (R55). The spec does not say in which order a pass takes the units of a structure:
DESIGN CHOICE, ascending from 0 at a load (assumption 8). -/
def scrubsUnit (b : BpState) : StoreUnit → Bool
  | .instruction _ p | .exchange _ p => p.val == b.scrubWord
  | .dictionary _ f => f.val == b.scrubEntry
  | .slotRow _ r => r.val == b.scrubRow
  | .memory _ w => w.val == b.scrubMem

/-- A fault that a step finds: what it reads, and the checks of its datapaths and counters. -/
def stepFinds (x : Tile) (st : Nat) : StoreFault → Bool
  | .corrected u | .doubleBit u => readsUnit x st u
  | .parity _ _ | .residue _ => true

/-- A fault that the last barrier step finds: what the scrub reads, and the residues. -/
def scrubFinds (b : BpState) : StoreFault → Bool
  | .corrected u | .doubleBit u => scrubsUnit b u
  | .parity _ _ => false
  | .residue _ => true

/-- Structure code of a unit (R69). -/
def unitCode : StoreUnit → Nat
  | .instruction _ _ => 0 | .exchange _ _ => 1 | .dictionary _ _ => 2 | .slotRow _ _ => 3 | .memory _ _ => 4

/-- Bytes 1 and 3 of the event of a unit: its BP cluster or 0xFF, and its member or block number or 0xFF (R69). -/
def unitBytes : StoreUnit → Nat × Nat
  | .instruction b _ | .slotRow b _ => (b.val / 32, b.val % 32)
  | .exchange c _ | .dictionary c _ => (c.val, 0xFF)
  | .memory b _ => (0xFF, b.val)

/-- Structure code of a datapath (R69). -/
def pathCode : ParityPath → Nat
  | .clusterLane => 5 | .exchangeWires => 6 | .memoryPort => 7

/-- What the checks of R55 do with one fault found: a corrected error is counted, and each posts its event (R56, R57,
R69). -/
def postFault (t : Nat) (s : State) : StoreFault → State
  | .corrected u =>
    let k := unitCode u
    postTile (modBp s t (fun b => { b with corrected := mset b.corrected k (bump (mget 0 b.corrected k)) })) t 0x601 1 t
      (unitBytes u).1 (k + 256 * (unitBytes u).2)
  | .doubleBit u => postTile s t 0x602 1 t (unitBytes u).1 (unitCode u + 256 * (unitBytes u).2)
  | .parity p c => postTile s t 0x603 1 t c.val (pathCode p + 256 * 0xFF)
  | .residue cyc => postTile s t 0x604 1 t 0xFF (8 + cyc.toNat + 256 * 0xFF)

/-- The fault makes its tile fail-silent (R57). -/
def fatalFault : StoreFault → Bool
  | .corrected _ => false
  | .doubleBit _ | .parity _ _ | .residue _ => true

/-- The faults found at one instant: each is counted and posted, and a fatal one among them makes the tile fail-silent.
The Bool says that the tile goes on. -/
def storeFaults (s : State) (t : Nat) (fs : List StoreFault) : Bool × State :=
  let s1 := fs.foldl (postFault t) s
  if fs.any fatalFault then (false, goSilent s1 t 1) else (true, s1)

/-! ### Step edges (R26, R72, R81, R82) -/

/-- A step edge at which the step counter stands, counted under its cause (R72); `counts`: of a kind that the stall limit
counts (R82). -/
def stallEdge (s : State) (t : Nat) (counts : Bool) (f : Stalls → Stalls) : State :=
  let now := s.dev.now
  modCyc s t (fun y => { y with
    stalls := f y.stalls, stallSince := if counts then some (y.stallSince.getD now) else none,
    stallPosted := counts && y.stallPosted })

def importStall (s : State) (t : Nat) : State := stallEdge s t true (fun z => { z with imports := z.imports + 1 })
def lintelStall (s : State) (t : Nat) (counts : Bool) : State := stallEdge s t counts (fun z => { z with lintel := z.lintel + 1 })
def pacingStall (s : State) (t : Nat) : State := stallEdge s t false (fun z => { z with pacing := z.pacing + 1 })
def generatorStall (s : State) (t : Nat) (counts : Bool) : State :=
  stallEdge s t counts (fun z => { z with generator := z.generator + 1 })

/-- The step executes; after step D - 1 the tile arrives and begins its barrier steps (R53, R84). -/
def runStep (s : State) (t : Nat) : State :=
  let d := tileDepth s t
  let x := landDue (getTile s t) (getTile s t).cyc.step
  let s1 := markDirty (execStep (setTile s t x) t) t (stepWords { x with bp := readsDue x.bp x.cyc.step } x.cyc.step)
  modCyc s1 t (fun y => { y with
    stallSince := none, stallPosted := false, barrier := 0, closeEdges := 0, phase := if d ≤ y.step then .barrier else y.phase })

/-- An edge in the programme: no BP executes while a due bundle is missing; else what the step reads is checked, and the
step executes (R26, R56, R57, R81). -/
def programmeEdge (s : State) (t : Nat) (seen : List StoreFault) : State :=
  let x := getTile s t
  if (importAwaited x x.cyc.step).isSome then importStall s t
  else
    let p := storeFaults s t (seen.filter (stepFinds { x with bp := readsDue x.bp x.cyc.step } x.cyc.step))
    if p.1 then runStep p.2 t else p.2

/-- An edge after the tile has arrived: barrier steps B0 to B7, in the last of which the scrub reads its units, then a
lintel stall step for each edge waited (R29, R55, R84, R86). -/
def barrierEdge (s : State) (t : Nat) (seen : List StoreFault) : State :=
  let y := (getTile s t).cyc
  let s1 := modCyc s t (fun y => { y with closeEdges := if y.closeSig then min 2 (y.closeEdges + 1) else 0 })
  if 8 ≤ y.barrier then lintelStall s1 t true
  else
    let s2 := modCyc s1 t (fun y => { y with barrier := y.barrier + 1, stallSince := none, stallPosted := false })
    if y.barrier = 7 then
      let p := storeFaults s2 t (seen.filter (scrubFinds (getTile s t).bp))
      if p.1 then modBp p.2 t scrubUnitDone else p.2
    else s2

/-- HOLD keeps a tile that has closed cycle m from its release (R84 step 5). -/
def heldAt (s : State) (k : Casement) (t m : Nat) : Bool :=
  k.chan.epochHold ||
  (decide (k.chan.closeDone < (m + 1) % 2 ^ 64) && (stopsAfter k m || k.isolated || k.dupPause)) ||
  (!k.isolated && (let e := entryOf s t
    bothLive e && rtTile1 e == t && k.chan.mask.getLsbD (rtTile0 e) && decide ((getTile s (rtTile0 e)).cyc.cycle.toNat ≤ m)))

/-- No other tile of the mask has begun the cycle. -/
def firstToRelease (s : State) (k : Casement) (t : Nat) (n : BitVec 64) : Bool :=
  (tilesOf k.chan.mask).all (fun u => u = t || (getTile s u).cyc.cycle != n)

/-- The casement's next release is not yet PACE after its last one, as the lead hub measures it (R96). -/
def paceWait (s : State) (k : Casement) (t : Nat) (n : BitVec 64) : Bool :=
  k.pace != 0 && firstToRelease s k t n && decide ((s.dev.now - k.chan.lastRelease).toNat < k.pace.toNat)

/-- An edge between the close and the release: relock, HOLD and the way to the release count as lintel stall steps, a pace
wait as pacing stall steps (R72, R86, R96). -/
def closedEdge (s : State) (t : Nat) (k : Casement) : State :=
  let y := (getTile s t).cyc
  if clkSteps y.clk && k.st == .running && !heldAt s k t y.cycle.toNat && paceWait s k t (y.cycle + 1) then pacingStall s t
  else lintelStall s t false

/-- PROGRAMME_STEP: one step edge of a tile. In its programme the tile executes its step, in a lintel it makes a barrier
step or waits; with its generator out of lock the edge is a generator stall step (R26, R29, R71, R72, R84). -/
def execProgrammeStep (t : TileId) (seen : List StoreFault) (s : State) : Host.Outcome State Fault Refusal :=
  let x := getTile s t.val
  .next (match caseOfTile s t.val with
    | none => s
    | some (_, k) =>
      if x.ctl.failSilent || x.cyc.phase == .idle || k.pwr != .run || !(k.st == .running || caseStill k) then s
      else match x.cyc.clk with
        | .off | .failed => s
        | .unlocked => generatorStall s t.val (k.st == .running)
        | .locking => lintelStall s t.val false
        | .locked | .holdover => match x.cyc.phase with
          | .idle => s
          | .stepping => if k.st == .running then programmeEdge s t.val seen else s
          | .barrier => if k.st == .running then barrierEdge s t.val seen else s
          | .closed => closedEdge s t.val k)

/-! ### The lintel (R84) -/

/-- GATHER: a toggle at a barrier hub is checked and gathered (R84, R88). -/
def execGather (hub : SectorId) (c : CaseId) (w : GatherWire) (s : State) : Host.Outcome State Fault Refusal :=
  .next (match getCase s c.val with
    | none => s
    | some k => match w with
      | .arrive t =>
        if sectorOf t.val != hub.val then s
        else if !k.chan.mask.getLsbD t.val then barrierFault s c.val hub.val (t.val % 24)
        else takeArrive s c.val hub.val t.val
      | .sectorDone j => takeSectorDone s c.val hub.val j.val
      | .dualRail i =>
        let s1 := barrierFault s c.val hub.val i.toNat
        if i.toNat < 24 then (if k.chan.mask.getLsbD (24 * hub.val + i.toNat) then takeArrive s1 c.val hub.val (24 * hub.val + i.toNat) else s1)
        else if 48 ≤ i.toNat && i.toNat < 52 then takeSectorDone s1 c.val hub.val (i.toNat - 48)
        else s1)

/-- LINTEL_CLOSE: a tile closes its cycle at the later of the end of B7 and the second step edge after CLOSE reached it
(R84 step 4). -/
def execLintelClose (t : TileId) (s : State) : Host.Outcome State Fault Refusal :=
  let y := (getTile s t.val).cyc
  .next (if tileIn s t.val .barrier && decide (8 ≤ y.barrier) && y.closeSig && decide (2 ≤ y.closeEdges) && clkSteps y.clk
    then closeTile s (caseByte s t.val) t.val else s)

/-- A new N that is due at a release and that the tile's generator does not run yet (R96). -/
def newRate (k : Casement) (x : Tile) (n : Nat) : Option Nat :=
  let ns := (k.rates.filter (fun r => r.cyc.toNat ≤ n && dByte r.req.d 28 != 0)).map (fun r => dByte r.req.d 28)
  match ns.getLast? with
  | some v => if v = x.cyc.clkN then none else some v
  | none => none

/-- LINTEL_RELEASE: with HOLD clear and any pace wait over, a tile releases the next cycle; a new N relocks its generator
first (R22, R84 step 6, R96). -/
def execLintelRelease (t : TileId) (s : State) : Host.Outcome State Fault Refusal :=
  let x := getTile s t.val
  .next (if !tileIn s t.val .closed || !clkSteps x.cyc.clk then s
    else match caseOfTile s t.val with
      | none => s
      | some (c, k) =>
        let n := x.cyc.cycle + 1
        if heldAt s k t.val x.cyc.cycle.toNat then s
        else match newRate k x n.toNat with
          | some v => modCyc s t.val (fun y => { y with clk := .locking, clkN := v })
          | none =>
            if paceWait s k t.val n then s
            else
              let first := firstToRelease s k t.val n
              let s0 := if k.replay.isSome && first then replayRelease s c n.toNat else s
              let s1 := if first then modCase s0 c (fun k => { k with chan := { k.chan with lastRelease := s.dev.now } }) else s0
              lastRelease (releaseTile s1 c t.val n) c n)

/-! ### Bundles (R79, R80, R248) -/

/-- Bundles that a tile buffers at most (R80). -/
def bundleRoom (y : CycState) : Bool := decide (y.bundles.length + y.held.length < 128)

/-- A copy held for a reference copy that has now been passed is absorbed (R248). -/
def absorbHeld (s : State) (t : Nat) (b : Bundle) : State :=
  let twins := (getTile s t).cyc.held.filter (fun h => h.imp = b.imp && h.tag == b.tag)
  modTile s t (fun x => { x with cyc := { x.cyc with held := x.cyc.held.filter (fun h => !(h.imp = b.imp && h.tag == b.tag)) },
                                 net := { x.net with absorbed := satAdd 0xFFFFFFFF x.net.absorbed twins.length } })

/-- A copy is passed to the checks of R79, and remembered for its twin. -/
def passCopy (s : State) (t srcRole : Nat) (b : Bundle) : State :=
  bufferBundle (absorbHeld (modCyc s t (fun y => { y with passed := y.passed ++ [(b.imp, b.tag)] })) t b) t srcRole b

/-- A bundle taken from the local port (R79, R248). -/
def takeBundle (s : State) (t : Nat) (p : Packet) (b : Bundle) : State :=
  let role := hdrSrcRole p
  let e := roleEntry (rtBank (getTile s t).net (p.hdr.getLsbD 50)) role
  if !bothLive e then bufferBundle s t role b
  else
    let was := (getTile s t).cyc.passed.contains (b.imp, b.tag)
    let refDead := (getTile s (rtTile0 e)).ctl.failSilent
    if was && (b.src.val != rtTile0 e) then
      modNet s t (fun r => { r with absorbed := bump r.absorbed })
    else if b.src.val = rtTile0 e || refDead then
      (if was then (if refDead then modNet s t (fun r => { r with absorbed := bump r.absorbed }) else bufferBundle s t role b)
       else passCopy s t role b)
    else modCyc s t (fun y => { y with held := y.held ++ [b] })
where
  hdrSrcRole (p : Packet) : Nat := bitsOf p.hdr.toNat 24 8

/-- The bundle that a packet carries, when it names a tile as its sender (R77). No row of R79 speaks of a SRC_TILE above
95: DESIGN CHOICE, such a bundle is discarded with BUNDLE_UNEXPECTED before the rows are tried (assumption 23). -/
def parseBundle (p : Packet) : Option Bundle :=
  match tileId (byteAt p.data 1) with
  | some src =>
    let n := fieldAt p.data 2 2
    some { imp := byteAt p.data 0, src := src, tag := BitVec.ofNat 32 (fieldAt p.data 4 4), octets := n, data := slice p.data 8 n }
  | none => none

/-- BUNDLE_ARRIVAL: the tile takes a bundle that its local port holds (R79, R80, R248). While its buffer is full the
bundle waits at the port. -/
def execBundleArrival (t : TileId) (p : Packet) (s : State) : Host.Outcome State Fault Refusal :=
  let x := getTile s t.val
  .next (if !x.net.ejectQ.contains p || !bundleRoom x.cyc then s
    else
      let s1 := routerSettle (modNet s t.val (fun r => { r with ejectQ := r.ejectQ.erase p })) t.val
      match parseBundle p with
      | some b => takeBundle s1 t.val p b
      | none => postTile (modCyc s1 t.val (fun y => { y with unexpected := bump y.unexpected })) t.val 0x682 1 t.val
          (caseByte s t.val) (byteAt p.data 0))

/-! ### Stalls and clocks (R71, R82) -/

/-- The tile's present stall, of the kinds that R82 counts, has lasted longer than the stall limit of its casement. -/
def stallOver (s : State) (t : Nat) : Bool :=
  match (getTile s t).cyc.stallSince, caseOfTile s t with
  | some t0, some p => p.2.st == .running && decide (1000 * p.2.stallLimit.toNat < (s.dev.now - t0).toNat)
  | _, _ => false

/-- The step that a tile reports as its current one: D - 1 from its arrival to its release, where the step counter names no
programme step. DESIGN CHOICE: the spec does not say what "current step" is outside the programme (assumption 23). -/
def currentStep (s : State) (t : Nat) : Nat := min (getTile s t).cyc.step (tileDepth s t - 1)

/-- STALL_TIMEOUT: a stall has outlasted the limit; posted once for it (R82). -/
def execStallTimeout (t : TileId) (s : State) : Host.Outcome State Fault Refusal :=
  .next (if stallOver s t.val && !(getTile s t.val).cyc.stallPosted then
      postTile (modCyc s t.val (fun y => { y with stallPosted := true, stallTimeouts := bump y.stallTimeouts })) t.val 0x681 1
        t.val (caseByte s t.val) (currentStep s t.val)
    else s)

/-- SYSREF25 is absent at a tile whose TK domain is ON: a generator that keeps its frequency is in holdover, and the tile
posts CLOCK_HOLDOVER once in this absence (R71). -/
def enterHoldover (s : State) (t : Nat) : State :=
  let x := getTile s t
  if x.dom.tk != .on || x.cyc.clk == .failed then s
  else
    let s1 := modCyc (rebaseTmrs s t) t (fun y => { y with
      clk := if y.clk == .locked || y.clk == .off then .holdover else y.clk, clkPosted := true })
    if x.cyc.clkPosted then s1 else postTile s1 t 0x685 1 t 0xFF 0

/-- SYSREF_LOSS: every running generator enters holdover (R71, R442). -/
def execSysrefLoss (s : State) : Host.Outcome State Fault Refusal :=
  .next (if s.dev.sysref then settleFaultN (allTiles.foldl enterHoldover (modDev s (fun d => { d with sysref := false }))) else s)

/-- A generator leaves holdover (R71). -/
def leaveHoldover (s : State) (t : Nat) : State :=
  modCyc (rebaseTmrs s t) t (fun y => { y with clk := if y.clk == .holdover then .locked else y.clk, clkPosted := false })

/-- SYSREF_RETURN: holdover ends (R71). -/
def execSysrefReturn (s : State) : Host.Outcome State Fault Refusal :=
  .next (settleFaultN (modDev (allTiles.foldl leaveHoldover s) (fun d => { d with sysref := true })))

/-- GENERATOR_UNLOCK: a running generator drifts more than 0.5 %; the step counter stops (R71). -/
def execGeneratorUnlock (t : TileId) (s : State) : Host.Outcome State Fault Refusal :=
  let x := getTile s t.val
  .next (if x.dom.tk == .on && (clkSteps x.cyc.clk || x.cyc.clk == .off) then
      settleFaultN (postTile (modCyc (rebaseTmrs s t.val) t.val (fun y => { y with clk := .unlocked, unlockedAt := s.dev.now })) t.val 0x683 1 t.val
        (caseByte s t.val) (currentStep s t.val))
    else s)

/-- Time since the last CLOCK_UNLOCKED of a tile. -/
def unlockedFor (s : State) (t : Nat) : Nat := (s.dev.now - (getTile s t).cyc.unlockedAt).toNat

/-- GENERATOR_RELOCK: back within 0.5 % within 1 ms of CLOCK_UNLOCKED, the tile resumes where it stopped; without SYSREF25
its generator is in holdover (R71). -/
def execGeneratorRelock (t : TileId) (s : State) : Host.Outcome State Fault Refusal :=
  .next (if (getTile s t.val).cyc.clk == .unlocked && decide (unlockedFor s t.val ≤ 1000000) then
      let s1 := modCyc (rebaseTmrs s t.val) t.val (fun y => { y with clk := .locked })
      settleFaultN (if s.dev.sysref then s1 else enterHoldover s1 t.val)
    else s)

/-- CLOCK_FAILED: no lock 1 ms after CLOCK_UNLOCKED; the tile goes fail-silent (R71). -/
def execClockFailed (t : TileId) (s : State) : Host.Outcome State Fault Refusal :=
  .next (if (getTile s t.val).cyc.clk == .unlocked && decide (1000000 ≤ unlockedFor s t.val) then
      let s1 := modCyc (rebaseTmrs s t.val) t.val (fun y => { y with clk := .failed })
      settleFaultN (goSilent (postTile s1 t.val 0x684 1 t.val (caseByte s t.val) 0) t.val 2)
    else s)

/-! ### Configuration scan and controller (R122, R363, R24) -/

/-- CONFIG_SCAN: the read-back of a logic cluster; `good` says that its CRC matches. A pass ends with cluster 15 (R122,
R126). -/
def execConfigScan (t : TileId) (q : Fin 16) (good : Bool) (s : State) : Host.Outcome State Fault Refusal :=
  let x := getTile s t.val
  .next (if x.dom.tk != .on || x.dom.lf != .on || x.ctl.restarting then s
    else if good then
      modFab s t.val (fun y => { y with scanPasses := if q.val = 15 then bump y.scanPasses else y.scanPasses })
    else
      settleFaultN (goSilent (postTile (modFab s t.val (fun y => { y with upsets := bump y.upsets })) t.val 0x702 1 t.val q.val 0) t.val 3))

/-- TC_WATCHDOG_EXPIRY: a second expiry within 1 s makes the tile fail-silent; otherwise the controller restarts (R363,
R24). -/
def execTcWatchdogExpiry (t : TileId) (s : State) : Host.Outcome State Fault Refusal :=
  let x := getTile s t.val
  let again := match x.ctl.watchdog with
    | some w => decide ((s.dev.now - w).toNat ≤ 1000000000)
    | none => false
  let s1 := modCtl s t.val (fun c => { c with watchdog := some s.dev.now })
  .next (if x.dom.tk != .on then s
    else if again then settleFaultN (goSilent s1 t.val 4)
    else modCtl s1 t.val (fun c => { c with restarting := true }))

/-- The event buffer is posted, and comparator edges that waited are delivered (R24, R209). -/
def tcBack (s : State) (t : Nat) : State :=
  let buf := (getTile s t).ctl.buffer
  let s1 := modCtl { s with rcd := { s.rcd with posted := s.rcd.posted ++ buf } } t (fun c => { c with restarting := false, buffer := [] })
  (List.range 16).foldl (fun s k => match (getCmp (getTile s t) k).held with
    | some e => deliverEdge (modCmp s t k (fun c => { c with held := none })) t k true e
    | none => s) s1

/-- The firmware counter rises once every controller runs one slot (R375). -/
def fwCount (s : State) : State :=
  let b := (getTile s 0).ctl.slotB
  if allTiles.all (fun t => (getTile s t).ctl.slotB == b) then
    modHub s (fun h => { h with fwCounter := max h.fwCounter (Config.firmwareVersion (if b then h.fwB else h.fwA)) })
  else s

/-- TC_RESTART_DONE: a restarting controller returns; a slot that fails its boot check returns it to its former slot
(R24, R376). -/
def execTcRestartDone (t : TileId) (bootOk : Bool) (s : State) : Host.Outcome State Fault Refusal :=
  let x := getTile s t.val
  .next (if !x.ctl.restarting then s
    else match x.ctl.activate with
      | none => tcBack s t.val
      | some q =>
        let s1 := modCtl (tcBack s t.val) t.val (fun c => { c with activate := none })
        if bootOk then complete q .ok (x.ctl.slotB).toNat (fwCount s1)
        else complete q .authFail 0 (postTile (modCtl s1 t.val (fun c => { c with slotB := x.ctl.formerB })) t.val 0x20B 1 t.val
          x.ctl.formerB.toNat 0))

/-! ### Automatic retirement (R365) -/

/-- A retirement of the tile is under way or waits. -/
def retiring (s : State) (t : Nat) : Bool :=
  let is := fun (w : EpochFor) => match w with
    | .retire _ u _ => u.val == t
    | .load | .dissolve | .link | .promote | .shadow => false
  s.hub.epoch.any (fun e => is e.why) || s.hub.waiting.any (fun w => is w.why)

/-- The survivor of a promotion is lost: STALE_TENURE with the new tenure and no tile (R368, R372). -/
def loseSurvivor (s : State) (t tenure : Nat) : State := match s.hub.promo with
  | some p => if p.survivor.val = t && p.stage != .effective then endPromo s .staleTenure (tenure + 0x7F7F * 2 ^ 16) else s
  | none => s

/-- A casement that has lost a tile without a partner is STOPPED (R365). -/
def stopLost (s : State) (c t tenure role : Nat) : State :=
  let a := modCase (dropEntry (abandonCkpt s c) c) c (fun k => { k with st := .stopped, lost := mdel k.lost role })
  post (loseSurvivor a t tenure) 0x206 3 c role 0

/-- A fail-silent tile that holds no role stops its casement too, with no entry to clear (assumption 13). -/
def stopRoleless (s : State) (c : Nat) (k : Casement) (t : Nat) : State :=
  if (getTile s t).ctl.failSilent && (k.st == .running || k.st == .paused || k.st == .held)
  then settleFaultN (epochSettle (stopGo (stopLost s c t 0 0xFF) c)) else s

/-- AUTO_RETIRE: the service hub retires a fail-silent tile by an epoch change; a simplex role's casement is STOPPED
(R365). -/
def execAutoRetire (t : TileId) (s : State) : Host.Outcome State Fault Refusal :=
  .next (match caseOfTile s t.val, roleIn (hubBank s) t.val with
    | some (c, k), none => stopRoleless s c k t.val
    | some (c, _), some r =>
      let e := roleEntry (hubBank s) r
      if !(getTile s t.val).ctl.failSilent || retiring s t.val then s
      else
        let ten := nextTenure (rtTenure e)
        let partner := (liveTiles e).filter (fun u => u != t.val && !(getTile s u).ctl.failSilent)
        let s1 := post s 0x205 3 t.val r ten
        let s2 := if partner.isEmpty then stopLost s1 c t.val ten r
          else modCase s1 c (fun k => { k with lost := mset k.lost r t.val })
        let s3 := requestEpoch s2 { why := .retire r t none, roles := [], avoid := none }
        settleFaultN (epochSettle (if partner.isEmpty then stopGo s3 c else s3))
    | _, _ => s)

end Sys2Proof.Machine
end

