-- ==== Sys2Proof/Machine/Casements.lean ====
section
/-! DEFINITION. Casements, roles, promotion, retest, repair and controller firmware: the descriptors 0x20 to 0x2D and the
ends of a background copy and of a march test (spec/14_continuity.md). -/

namespace Sys2Proof.Machine

/-! ### Checks that these descriptors share -/

/-- A shutter of the casement is not OPEN. -/
def anyShut (s : State) (k : Casement) : Bool :=
  (tilesOf k.region).any (fun t => shutterCounts (getTile s t) && (getTile s t).net.shut != .open_)

/-- Descriptors to the casement complete with SHUTTERED, those of this chapter included: FAILED (R340), the takeover,
pass 2 and start-up of a load up to step (d) (R344), and HOLD (R418). -/
def caseClosed (s : State) (c : Nat) : Bool := match getCase s c with
  | none => false
  | some k => k.st == .failed || (k.st == .loading && anyShut s k) || takenOver s c ||
      (k.pwr == .hold && anyShut s k)

/-- CASE_DISSOLVE of the casement has been accepted and has not completed. -/
def dissolving (s : State) (c : Nat) : Bool := match getCase s c with
  | some k => (match k.stop with | some (.dissolve _) => true | _ => false)
  | none => false

/-- State of the casement that a descriptor names. -/
def caseState (q : Req) (s : State) : Option CaseSt := (getCase s (dCase q.d)).map (·.st)

/-- A tile of the spare pool with local state SPARE, taken by no promotion and no shadow (R353, R369, R396). -/
def inPool (s : State) (t : Nat) : Bool :=
  decide (t < 96) && (caseOfTile s t).isNone && (getTile s t).net.localSt == .spare &&
    !(match s.hub.promo with | some p => p.spare.val == t | none => false) &&
    !(match s.hub.shadow with | some p => p.map.any (fun m => m.2 == t) | none => false)

/-- A load, a promotion or an epoch change not yet drained is under way (R252). -/
def placementBusy (s : State) : Bool := loaderBusy s || s.hub.promo.isSome || s.hub.shadow.isSome || epochBusy s

/-! ### CASE_CREATE, CASE_DISSOLVE, CASE_OWNER, CASE_RESET, CASE_POLICY -/

def shCaseCreate : Shape := shapeOf caseBits false false false [(28, 1), (32, 12)]
def shCaseOnly : Shape := shapeOf caseBits false false false []
def shCaseOwner : Shape := shapeOf caseBits false false false [(28, 1)]
def shCasePolicy : Shape := (shapeOf caseBits false false false []).withBits [(28, 1)]

/-- The region that CASE_CREATE names. -/
def createRegion (q : Req) : BitVec 96 := BitVec.ofNat 96 (dBits q.d 32 12)

/-- An EMPTY casement; the pins of its tiles that belong to none become its own. -/
def createCase (q : Req) (s : State) : State :=
  let c := dCase q.d
  let owner : HostId := Fin.ofNat 8 (dByte q.d 28)
  let s1 := setCase s c.val (Casement.created owner (createRegion q))
  let s2 := modDev s1 (fun d => { d with pinCase := (tilesOf (createRegion q)).foldl (fun m t =>
    (List.range 18).foldl (fun m i => if (mfind m (pinAt t i)).isSome then m else mset m (pinAt t i) c) m) d.pinCase })
  post (modDev s2 (fun d => { d with changed := setBit d.changed c.val false })) 0x201 3 c.val owner.val 0

def caseCreateBody (q : Req) (s : State) : Reply × State :=
  checked [(!isSteward q s, .refusedOwnership), (dirty shCaseCreate q, .badField),
    ((getCase s (dCase q.d)).isSome, .conflict), ((tilesOf (createRegion q)).any (fun t => !inPool s t), .regionViolation),
    (createRegion q == 0 || decide (7 < dByte q.d 28), .badField), (placementBusy s, .busy)]
    (fun s => (.done .ok 0, createCase q s)) s

/-- CASE_CREATE: an EMPTY casement (R353). -/
def execCaseCreate (q : Req) (s : State) : Host.Outcome State Fault Refusal :=
  .next (runDesc (.caseCreate q) 0x20 q (caseCreateBody q) s)

/-- Checks of a steward's descriptor that names a casement and changes its membership or ownership. -/
def stewardCase (sh : Shape) (q : Req) (s : State) : List (Bool × Status) :=
  [(!isSteward q s, .refusedOwnership), ((getCase s (dCase q.d)).isNone || dirty sh q, .badField),
   (loadTouches s (dCase q.d), .busy), (caseClosed s (dCase q.d), .shuttered)]

def caseDissolveBody (q : Req) (s : State) : Reply × State :=
  checked (stewardCase shCaseOnly q s ++ [(dissolving s (dCase q.d), .busy)])
    (fun s => (.later, beginStop s (dCase q.d) (.dissolve q))) s

/-- CASE_DISSOLVE: the casement stops and its tiles return to the pool (R354). -/
def execCaseDissolve (q : Req) (s : State) : Host.Outcome State Fault Refusal :=
  .next (runDesc (.caseDissolve q) 0x21 q (caseDissolveBody q) s)

def caseOwnerBody (q : Req) (s : State) : Reply × State :=
  checked (stewardCase shCaseOwner q s ++ [(decide (7 < dByte q.d 28), .badField)])
    (fun s => (.done .ok 0, modCase s (dCase q.d) (fun k => { k with owner := Fin.ofNat 8 (dByte q.d 28) }))) s

/-- CASE_OWNER: ownership moves to another host (R355). -/
def execCaseOwner (q : Req) (s : State) : Host.Outcome State Fault Refusal :=
  .next (runDesc (.caseOwner q) 0x22 q (caseOwnerBody q) s)

/-- A CASEMENT reset begins: at once, at the next close, after the start-up of the casement, or with the exit from
HOLD (R357, R427). A casement without an image has nothing to reset (assumption 12). -/
def beginReset (q : Req) (s : State) : Reply × State :=
  let c := (dCase q.d).val
  match getCase s c with
  | none => (.done .badField 0, s)
  | some k =>
    if k.st == .empty then (.done .ok 0, post s 0x203 3 c 0 0)
    else if k.pwr == .hold || k.entering then
      (.later, modCase (wakeByCommand (dropReset s c) c) c (fun k => { k with stop := some (.reset q) }))
    else if k.st == .loading then (.later, modCase (dropReset s c) c (fun k => { k with halt := true, stop := some (.reset q) }))
    else (.later, beginStop (if k.pwr == .doze then wakeByCommand s c else s) c (.reset q))

/-- CASE_RESET reaches a casement in HOLD (R418). -/
def resetClosed (q : Req) (s : State) : Bool := caseClosed s (dCase q.d) &&
  (match getCase s (dCase q.d) with | some k => k.pwr != .hold && !k.entering | none => true)

def caseResetBody (q : Req) (s : State) : Reply × State :=
  checked [(goneCase q s, .badField), (notAllowed q .peek s, .refusedOwnership), ((getCase s (dCase q.d)).isNone || dirty shCaseOnly q, .badField),
    (resetClosed q s, .shuttered), (caseState q s == some .stopped || dissolving s (dCase q.d), .busy)] (beginReset q) s

/-- CASE_RESET: a CASEMENT reset (R357). -/
def execCaseReset (q : Req) (s : State) : Host.Outcome State Fault Refusal :=
  .next (runDesc (.caseReset q) 0x23 q (caseResetBody q) s)

def casePolicyBody (q : Req) (s : State) : Reply × State :=
  checked [(goneCase q s, .badField), (notAllowed q .poke s, .refusedOwnership), ((getCase s (dCase q.d)).isNone || dirty shCasePolicy q, .badField),
    (caseClosed s (dCase q.d), .shuttered)]
    (fun s => (.done .ok 0, modCase (markChanged s (dCase q.d).val) (dCase q.d) (fun k => { k with dupPause := bitAt (dByte q.d 28) 0 }))) s

/-- CASE_POLICY: DUP_PAUSE (R362, R377). -/
def execCasePolicy (q : Req) (s : State) : Host.Outcome State Fault Refusal :=
  .next (runDesc (.casePolicy q) 0x24 q (casePolicyBody q) s)

/-! ### CASE_PIN_ASSIGN (R356) -/

def shPinAssign : Shape := (shapeOf caseBits false false false [(32, 2)]).withBits [(28, 1)]

/-- A pin joins a casement, or none, with cold set-up and resistor-defined. Where the casement's outputs are released its
pads are too, and in HOLD it is held with nothing driven. -/
def movePin (s : State) (p : Nat) (to_ : Option CaseId) : State :=
  let s1 := floatPinsOf (coldPin s p) [p]
  let s2 := modDev s1 (fun d => { d with pinCase := match to_ with | some c => mset d.pinCase p c | none => mdel d.pinCase p })
  match to_.bind (fun c => getCase s2 c.val) with
  | none => s2
  | some k =>
    if k.st == .empty || k.st == .loading || k.st == .failed then s2
    else if k.pwr == .hold then latchPin s2 p none
    else releasePins s2 [p]

def pinAssignBad (q : Req) (s : State) : Bool :=
  dirty shPinAssign q || decide (1727 < dW16 q.d 32) ||
    (if bitAt (dByte q.d 28) 0 then (getCase s (dCase q.d)).isNone else (dCase q.d).val != 0)

/-- A load, or a full takeover, concerns the casement that the pin leaves or joins. -/
def pinMoveBusy (q : Req) (s : State) : Bool :=
  (bitAt (dByte q.d 28) 0 && loadTouches s (dCase q.d)) ||
    (match mfind s.dev.pinCase (dW16 q.d 32) with | some c => loadTouches s c.val | none => false)

def casePinAssignBody (q : Req) (s : State) : Reply × State :=
  let p := dW16 q.d 32
  let assign := bitAt (dByte q.d 28) 0
  checked [(!isSteward q s, .refusedOwnership), (pinAssignBad q s, .badField), (pinMoveBusy q s, .busy),
    (assign && caseClosed s (dCase q.d), .shuttered), (pinLocked s p, .locked)]
    (fun s => (.done .ok 0, settleFabric s (movePin s p (if assign then some (dCase q.d) else none)))) s

/-- CASE_PIN_ASSIGN: a pin moves to a casement or to none (R356). -/
def execCasePinAssign (q : Req) (s : State) : Host.Outcome State Fault Refusal :=
  .next (runDesc (.casePinAssign q) 0x25 q (casePinAssignBody q) s)

/-! ### Roles (R365 to R372) -/

def shRolePromote : Shape := shapeOf caseBits true false false [(28, 3), (32, 6)]
def shRoleRetire : Shape := shapeOf caseBits false false false [(29, 2), (36, 2)]

/-- The role that a descriptor names, in the bank of the service epoch in force (R368). -/
def namedEntry (q : Req) (s : State) : BitVec 64 := roleEntry (hubBank s) (dByte q.d 29)

/-- The result of STALE_TENURE: the current tenure and the role's two tiles (R368). -/
def staleResult (e : BitVec 64) : Nat := rtTenure e + 2 ^ 16 * rtTile0 e + 2 ^ 24 * rtTile1 e

/-- A check list in which STALE_TENURE stands between two parts and brings its result. -/
def withTenure (q : Req) (before after : List (Bool × Status)) (act : State → Reply × State) (s : State) : Reply × State :=
  match firstOf before with
  | some st => (.done st 0, s)
  | none =>
    if rtTenure (namedEntry q s) != dW16 q.d 36 then (.done .staleTenure (staleResult (namedEntry q s)), s)
    else checked after act s

/-- The only live tile of a role that lost its other one. -/
def survivorOf (q : Req) (s : State) : Option Nat := match getCase s (dCase q.d) with
  | none => none
  | some k =>
    let live := (liveTiles (namedEntry q s)).filter (fun u => !(getTile s u).ctl.failSilent)
    if rtCase (namedEntry q s) == (dCase q.d).val && (mfind k.lost (dByte q.d 29)).isSome && live.length == 1 then live.head? else none

/-- The promotion's preconditions on role and casement (R369). -/
def promotable (q : Req) (s : State) : Bool :=
  (survivorOf q s).isSome && (caseState q s == some .running || caseState q s == some .paused)

/-- The spare is not free, or too far from a trunk that the role taps. -/
def badSpare (q : Req) (s : State) : Bool :=
  let t := dByte q.d 30
  !inPool s t || (match survivorOf q s with
    | some v => sectorOf v != sectorOf t && !(taps v (getTile s v)).isEmpty
    | none => false)

/-- Promotion begins: the spare powers up cleared, and the image is asked for (R370, R371 step 1). -/
def beginPromotion (q : Req) (s : State) : State := match getCase s (dCase q.d), survivorOf q s with
  | some k, some v =>
    let p : Promo := { req := q, case_ := dCase q.d, role := dByte q.d 29, survivor := Fin.ofNat 96 v,
                       former := Fin.ofNat 96 ((mfind k.lost (dByte q.d 29)).getD 0), spare := Fin.ofNat 96 (dByte q.d 30),
                       stage := .passes, dirty := [], atCycle := 0 }
    let s1 := takeTile s (fun _ => List.range 18) (dByte q.d 30)
    let s2 := modHub s1 (fun h => { h with promo := some p })
    settleFabric s (modLoad s2 (fun l => { loaderIdle l with
      phase := .pass1, purpose := .promote, req := some q, case_ := dCase q.d, fromBsp := dByte q.d 28 == 1 }))
  | _, _ => s

/-- The VC0 reservation that goes with the role from its former tile, added to what is reserved on the spare's links, is over the
limit of R243 (R369, assumption 20). -/
def overRoutes (q : Req) (s : State) : Bool := match (getCase s (dCase q.d)).bind (fun k => mfind k.lost (dByte q.d 29)) with
  | none => false
  | some old => (List.range 4).any (fun p =>
      let flits := fun (t : Nat) => cfgRead (getTile s t) 0x30 p 1
      decide (48 < flits old + flits (dByte q.d 30)))

def rolePromoteBody (q : Req) (s : State) : Reply × State :=
  withTenure q
    [(!isSteward q s, .refusedOwnership), (caseClosed s (dCase q.d), .shuttered),
     (dirty shRolePromote q || badSource q false || decide (239 < dByte q.d 29) || decide (95 < dByte q.d 30), .badField)]
    [(!promotable q s, .badField), (badSpare q s, .regionViolation), (overRoutes q s, .conflict), (placementBusy s, .busy)]
    (fun s => (.later, beginPromotion q s)) s

/-- ROLE_PROMOTE: a duplex role with one live tile is rebuilt on a spare (R369 to R371). -/
def execRolePromote (q : Req) (s : State) : Host.Outcome State Fault Refusal :=
  .next (runDesc (.rolePromote q) 0x26 q (rolePromoteBody q) s)

/-- BACKGROUND_COPY_DONE: a complete pass of the background copy is over; it waits while the casement is paused or held
(R371 step 4, R372). -/
def execBackgroundCopyDone (s : State) : Host.Outcome State Fault Refusal :=
  .next (match s.hub.promo with
    | some p =>
      let runs := match getCase s p.case_.val with | some k => k.st == .running | none => false
      if p.stage == .copying && runs then modHub s (fun h => { h with promo := some { p with stage := .copied } }) else s
    | none => s)

/-- The tile may be retired from its role: one of two live tiles. -/
def retirable (q : Req) (s : State) : Bool :=
  let e := namedEntry q s
  rtCase e == (dCase q.d).val && (getCase s (dCase q.d)).isSome && bothLive e && listsLive e (dByte q.d 30)

/-- TILE_RETIRED, and the epoch change that clears the tile from the role (R365, R366). -/
def beginRetire (q : Req) (s : State) : State :=
  let t : TileId := Fin.ofNat 96 (dByte q.d 30)
  let r := dByte q.d 29
  let s1 := post s 0x205 3 t.val r (nextTenure (rtTenure (namedEntry q s)))
  epochSettle (requestEpoch s1 { why := .retire r t (some q), roles := [], avoid := none })

def roleRetireBody (q : Req) (s : State) : Reply × State :=
  withTenure q
    [(!isSteward q s, .refusedOwnership), (caseClosed s (dCase q.d), .shuttered),
     (dirty shRoleRetire q || decide (239 < dByte q.d 29) || decide (95 < dByte q.d 30), .badField)]
    [(!retirable q s, .badField), (loadTouches s (dCase q.d) || epochBusy s, .busy)]
    (fun s => (.later, beginRetire q s)) s

/-- ROLE_RETIRE: a tile of a duplex role is retired (R365, R377). -/
def execRoleRetire (q : Req) (s : State) : Host.Outcome State Fault Refusal :=
  .next (runDesc (.roleRetire q) 0x27 q (roleRetireBody q) s)

/-! ### Retest and repair (R373, R374) -/

def shTileOnly : Shape := shapeOf 0 false false false [(30, 1)]

/-- A tile with local state RETIRED. -/
def retiredTile (s : State) (t : Nat) : Bool := decide (t < 96) && (getTile s t).net.localSt == .retired

/-- A TILE reset: configuration cold but for the records of its 18 pins, window latches 0, domains cycled, PWR_RESET_DONE
(R141, R426, R431). -/
def tileReset (s : State) (t : Nat) : State :=
  let s1 := modPin (poolTile s (fun _ => List.range 18) t) t (fun y => { y with outLatch := 0, enLatch := 0 })
  post (settleFabric s (settleTins s1)) 0x001 0 6 t 0

/-- A load has the tile: a full load, or a partial load of its casement (R345). -/
def loadHasTile (s : State) (t : Nat) : Bool :=
  s.load.purpose == .load && s.load.phase != .idle && (s.load.full || (match getCase s s.load.case_.val with
    | some k => k.region.getLsbD t
    | none => false))

/-- A tile is being tested, its controller restarts, or a load has it. -/
def testBusy (s : State) (t : Nat) : Bool :=
  (getTile s t).ctl.test.isSome || (getTile s t).ctl.restarting || loadHasTile s t

/-- Checks of TILE_RETEST and TILE_REPAIR; a retest takes a tile of no role only. -/
def testChecks (q : Req) (free : Bool) (s : State) : List (Bool × Status) :=
  let t := dByte q.d 30
  [(!isSteward q s, .refusedOwnership), (dirty shTileOnly q || !retiredTile s t || (free && (roleIn (hubBank s) t).isSome), .badField),
   (testBusy s t, .busy)]

def tileRetestBody (q : Req) (s : State) : Reply × State :=
  let t := dByte q.d 30
  checked (testChecks q true s)
    (fun s => (.later, modCtl (tileReset s t) t (fun c => { c with test := some (false, q) }))) s

/-- TILE_RETEST: a TILE reset and a march test of a RETIRED tile (R373). -/
def execTileRetest (q : Req) (s : State) : Host.Outcome State Fault Refusal :=
  .next (runDesc (.tileRetest q) 0x28 q (tileRetestBody q) s)

def tileRepairBody (q : Req) (s : State) : Reply × State :=
  checked (testChecks q false s)
    (fun s => (.later, modCtl s (dByte q.d 30) (fun c => { c with test := some (true, q) }))) s

/-- TILE_REPAIR: failing rows of a RETIRED tile are mapped onto spare rows (R374). -/
def execTileRepair (q : Req) (s : State) : Host.Outcome State Fault Refusal :=
  .next (runDesc (.tileRepair q) 0x29 q (tileRepairBody q) s)

/-- The end of a retest: SPARE and in the pool on a pass, which a condemned tile never makes. -/
def retestDone (s : State) (t : Nat) (q : Req) (r : MarchResult) : State :=
  let ok := r.pass && !(getTile s t).net.condemned
  let s1 := if ok then
      let a := modTile s t (fun x => { x with net := { x.net with localSt := .spare }, ctl := { x.ctl with failSilent := false } })
      { a with cases := mmap (fun _ k => { k with region := setBit k.region t false }) a.cases }
    else s
  let code := if ok then 0 else r.failing.toNat
  complete q .ok ((!ok).toNat + 2 ^ 8 * code) (postTile s1 t 0x209 1 t (!ok).toNat code)

/-- Spare rows of a tile's BP that are not in use: two of the instruction store and one of the local slots, less those of the factory
map and of the repair map (R374). -/
def sparesFree (t bp : Nat) (m : RepairCopy) (slots : Bool) : Nat :=
  if slots then 1 - Config.factorySlotRows t bp % 2 - (mget [] m.slots bp).length
  else 2 - Config.factoryRows t bp % 3 - (mget [] m.istore bp).length

/-- A failing row on a free spare row of its BP: the map, how many rows it takes, and whether a BP lacks a spare. -/
def mapRow (t : Nat) (slots : Bool) (a : RepairCopy × Nat × Bool) (p : Nat × Nat) : RepairCopy × Nat × Bool :=
  if sparesFree t p.1 a.1 slots = 0 then (a.1, a.2.1, true)
  else
    let m := if slots then { a.1 with slots := mset a.1.slots p.1 (mget [] a.1.slots p.1 ++ [p.2]) }
      else { a.1 with istore := mset a.1.istore p.1 (mget [] a.1.istore p.1 ++ [p.2]) }
    (m, a.2.1 + 1, a.2.2)

/-- The end of a repair: the map is committed, and a tile with too many failing rows is condemned. -/
def repairDone (s : State) (t : Nat) (q : Req) (r : MarchResult) : State :=
  let i := (r.istoreRows.map (fun p => (p.1.val, p.2.val))).foldl (mapRow t false) (repairOf (getTile s t).ctl, 0, false)
  let l := (r.slotRows.map (fun p => (p.1.val, p.2.val))).foldl (mapRow t true) i
  let bad := l.2.2
  let n := l.2.1
  let s1 := modTile s t (fun x => { x with ctl := repairCommit x.ctl l.1.istore l.1.slots,
                                           net := { x.net with condemned := x.net.condemned || bad } })
  complete q .ok (n % 65536 + 2 ^ 16 * bad.toNat) (postTile s1 t 0x20A 1 t bad.toNat n)

/-- MARCH_TEST_DONE: the march test of a TILE_RETEST or a TILE_REPAIR ends (R373, R374). -/
def execMarchTestDone (t : TileId) (r : MarchResult) (s : State) : Host.Outcome State Fault Refusal :=
  .next (match (getTile s t.val).ctl.test with
    | none => s
    | some p =>
      let s1 := modCtl s t.val (fun c => { c with test := none })
      if p.1 then repairDone s1 t.val p.2 r else retestDone s1 t.val p.2 r)

/-! ### Controller firmware (R375, R376) -/

def shFwLoad : Shape := shapeOf 0 true false true []
def shFwActivate : Shape := shapeOf 0 false false false [(30, 2)]

/-- Some controller runs a slot; one that restarts may return to its former slot. -/
def slotRun (s : State) (b : Bool) : Bool :=
  allTiles.any (fun t => let c := (getTile s t).ctl; c.slotB == b || (c.activate.isSome && c.formerB == b))

/-- The image checked and written into the slot that no controller runs. -/
def fwWrite (q : Req) (s : State) : Reply × State :=
  let img := padTo q.d.length.toNat (q.io.dataA.take q.d.length.toNat)
  let toB := !slotRun s true
  if !q.io.bufOk then (.dma, s)
  else checked [(!Config.firmwareSigned img, .authFail), (decide (Config.firmwareVersion img < s.hub.fwCounter), .rollbackRefused)]
    (fun s => (.done .ok toB.toNat, modHub s (fun h => if toB then { h with fwB := img } else { h with fwA := img }))) s

def tcFwLoadBody (q : Req) (s : State) : Reply × State :=
  let n := q.d.length.toNat
  checked [(!isSteward q s, .refusedOwnership), (dirty shFwLoad q || decide (n < 64) || decide (524288 < n), .badField),
    (slotRun s true && slotRun s false, .busy)] (fwWrite q) s

/-- TC_FW_LOAD: a firmware image into a slot (R375). -/
def execTcFwLoad (q : Req) (s : State) : Host.Outcome State Fault Refusal :=
  .next (runDesc (.tcFwLoad q) 0x2A q (tcFwLoadBody q) s)

/-- A tile takes part in a load, a promotion or a shadow creation. -/
def tilePlaced (s : State) (t : Nat) : Bool :=
  (s.load.purpose == .load && s.load.phase != .idle && (s.load.full || (match caseOfTile s t with
    | some p => p.1 == s.load.case_.val
    | none => false))) ||
  (match s.hub.promo with | some p => p.survivor.val == t || p.spare.val == t | none => false) ||
  (match s.hub.shadow with | some p => p.map.any (fun m => m.2 == t) | none => false)

def tcFwActivateBody (q : Req) (s : State) : Reply × State :=
  let t := dByte q.d 30
  checked [(!isSteward q s, .refusedOwnership), (dirty shFwActivate q || decide (95 < t) || decide (1 < dByte q.d 31), .badField),
    (allTiles.any (fun u => (getTile s u).ctl.restarting) || tilePlaced s t, .busy)]
    (fun s => (.later, modCtl s t (fun c => { c with
      restarting := true, activate := some q, formerB := c.slotB, slotB := dByte q.d 31 == 1 }))) s

/-- TC_FW_ACTIVATE: a tile controller restarts from a slot (R376). -/
def execTcFwActivate (q : Req) (s : State) : Host.Outcome State Fault Refusal :=
  .next (runDesc (.tcFwActivate q) 0x2B q (tcFwActivateBody q) s)

/-! ### CASE_STATUS and TILE_STATUS (R378) -/

def shCaseStatus : Shape := shapeOf caseBits true false true []
def shTileStatusAll : Shape := shapeOf 0 true false true []

/-- The 64 bytes of CASE_STATUS. -/
def caseStatusBytes (k : Casement) : List Byte :=
  layout 64 [(0, 1, caseStCode k.st), (1, 1, k.owner.val), (2, 1, k.dupPause.toNat), (3, 1, k.lost.length),
    (4, 12, k.region.toNat), (16, 8, k.disagreements.toNat), (24, 8, k.lastDisagree.toNat)]

def caseStatusBody (q : Req) (s : State) : Reply × State :=
  checked [(goneCase q s, .badField), (notAllowed q .peek s, .refusedOwnership),
    ((getCase s (dCase q.d)).isNone || dirty shCaseStatus q || short q 64, .badField), (caseClosed s (dCase q.d), .shuttered)]
    (fun s => match getCase s (dCase q.d) with
      | some k => replyCopy q (caseStatusBytes k) 0 s
      | none => (.done .badField 0, s)) s

/-- CASE_STATUS: the state of a casement (R378). -/
def execCaseStatus (q : Req) (s : State) : Host.Outcome State Fault Refusal :=
  .next (runDesc (.caseStatus q) 0x2C q (caseStatusBody q) s)

/-- Spare rows that the worst BP of a tile has left (R378 bytes 5 and 6). -/
def rowsFree (s : State) (t : Nat) (slots : Bool) : Nat :=
  (List.range 1024).foldl (fun n b => min n (sparesFree t b (repairOf (getTile s t).ctl) slots)) 2

/-- The 8 bytes of a tile in TILE_STATUS. -/
def tileStatusBytes (s : State) (t : Nat) : List Byte :=
  let x := getTile s t
  layout 8 [(0, 1, caseByte s t), (1, 1, roleByte s t), (2, 1, if x.net.condemned then 3 else localCode x.net.localSt),
    (3, 1, x.ctl.cause.toNat), (4, 1, x.ctl.slotB.toNat + 2 * x.ctl.restarting.toNat),
    (5, 1, rowsFree s t false), (6, 1, rowsFree s t true)]

def tileStatusBody (q : Req) (s : State) : Reply × State :=
  checked [(dirty shTileStatusAll q || short q 768, .badField)]
    (fun s => replyCopy q (allTiles.flatMap (tileStatusBytes s)) 0 s) s

/-- TILE_STATUS: the state of every tile (R378). -/
def execTileStatus (q : Req) (s : State) : Host.Outcome State Fault Refusal :=
  .next (runDesc (.tileStatus q) 0x2D q (tileStatusBody q) s)

end Sys2Proof.Machine
end

