-- ==== Sys2Proof/Machine/CmpTimer.lean ====
section
/-! DEFINITION. Events and descriptors of comparators and tile timers (spec/08_comparators_timers.md). -/

namespace Sys2Proof.Machine

/-! ### Events -/

/-- VREF_EXT of a tile clears: conversions under way against it are unsettled, and comparators against it are UNDECIDED
(R160, R183, R206). -/
def dropVrefExt (s : State) (t sec : Nat) : State :=
  let s1 := modTile s t (fun x => { x with
      an := { x.an with vrefExt := false },
      cv := { x.cv with inFlight := if recBits x.cv.ctrl.toNat 2 2 = 1
        then x.cv.inFlight.map (fun c => { c with refOk := false }) else x.cv.inFlight } })
  let s2 := ((List.range 16).filter (fun k => cmpMode (getTile s t) k != 0 && cmpRef (getTile s t) k == 1)).foldl
    (fun s k => cmpUndecide s t k) s1
  postTile s2 t 0x802 1 t sec 0

/-- AREF_RANGE_CHANGE: AREF_s enters or leaves 0.50 V to 1.70 V (R160). -/
def execArefRangeChange (sec : SectorId) (inRange : Bool) (s : State) : Host.Outcome State Fault Refusal :=
  let s1 := modDev s (fun d => { d with aref := setBit d.aref sec.val inRange })
  .next (if s.dev.aref.getLsbD sec.val && !inRange then
      ((s.tiles.filter (fun p => p.1 / 24 = sec.val && p.2.dom.an == .on)).map (·.1)).foldl
        (fun s t => dropVrefExt s t sec.val) s1
    else s1)

/-- COMPARATOR_CROSSING: a continuous comparator decides on its input as the world gives it (R201, R203). -/
def execComparatorCrossing (t : TileId) (k : Fin 16) (w : AnalogIn) (writeOk : Bool) (s : State) :
    Host.Outcome State Fault Refusal :=
  let x := getTile s t.val
  .next (if cmpMode x k.val = 1 && cmpRuns x k.val then cmpTake s t.val k.val w writeOk else s)

/-- The 60 ns window of a tick of comparator k ends now: device time was a whole multiple of CMP_TICK µs 60 ns ago, and that
tick has not decided yet (R204). -/
def cmpTickDue (s : State) (t k : Nat) : Bool :=
  let x := getTile s t
  s.dev.now.toNat % (recBits (cmpWord x k 1) 0 20 * 1000) == 60 && (getCmp x k).lastTick != some s.dev.now

/-- CMP_SAMPLE_TICK: at the end of a tick's window a sampled comparator takes its one decision (R204). -/
def execCmpSampleTick (t : TileId) (k : Fin 16) (w : AnalogIn) (writeOk : Bool) (s : State) :
    Host.Outcome State Fault Refusal :=
  let x := getTile s t.val
  .next (if cmpMode x k.val = 2 && cmpRuns x k.val && cmpTickDue s t.val k.val then
      cmpTake (modCmp s t.val k.val (fun c => { c with lastTick := some s.dev.now })) t.val k.val w writeOk
    else s)

/-- A running timer whose clock runs. -/
def tmTicks (s : State) (t k : Nat) : Bool :=
  (getTmr (getTile s t) k).running && (getTile s t).dom.lf == .on && !dozed s t

/-- TM_COUNT is to become C by counting, has not yet, and can have by now. C = 0 is reached only by wrapping, and mode 4 has no
compare (R212). -/
def compareDue (s : State) (t k : Nat) : Bool :=
  let x := getTile s t
  let c := tmCmp x k
  decide (1 ≤ tmMode x k) && decide (tmMode x k ≤ 3) && c != 0 && decide (c ≤ tmPeriod x k) && !(getTmr x k).hit &&
    decide ((getTmr x k).count.toNat < c) && tmReached s t k c

/-- The count of a timer taken as n by an edge: where the clock is exact, at the very edge (R71, R454). -/
def countedTo (s : State) (t n : Nat) (m : Tmr) (shown : Nat) : Tmr :=
  let x := getTile s t
  let e := tmSpan s m
  let exact := (tickRange x e).2 == some (tickRange x e).1
  { m with count := BitVec.ofNat 32 shown,
           since := if exact then m.since + BitVec.ofNat 64 (10 * (n - m.count.toNat)) else s.dev.now }

/-- TM_COUNT becomes C: the trigger event, and the output of modes 1 and 3 (R212). -/
def passCompare (s : State) (t k : Nat) : State :=
  let x := getTile s t
  let c := tmCmp x k
  let mode := tmMode x k
  timerTrigger (changeTmr s t k (fun m =>
    let m1 := countedTo s t c m c
    { m1 with hit := true, out := if mode = 1 then !m.out else if mode = 3 then false else m.out })) t k false

/-- TIMER_COMPARE: a running timer's count reaches C (R212). -/
def execTimerCompare (t : TileId) (k : Fin 8) (s : State) : Host.Outcome State Fault Refusal :=
  .next (if tmTicks s t.val k.val && compareDue s t.val k.val then passCompare s t.val k.val else s)

/-- The count of a timer wraps to 0: waiting writes take effect, and the period event follows; where C is 0 so does the trigger
event (R212, R213). -/
def wrapTmr (s : State) (t k : Nat) : State :=
  let mode := tmMode (getTile s t) k
  let p := tmPeriod (getTile s t) k
  let s1 := modTile s t (fun x => takeNext x k)
  let zero := tmCmp (getTile s1 t) k == 0
  let s2 := changeTmr s1 t k (fun m =>
    let m1 := countedTo s t (p + 1) m 0
    { m1 with hit := false, out := if mode = 1 then m.out != zero else if mode = 3 then !zero else m.out })
  let s3 := if mode != 4 then timerTrigger s2 t k true else s2
  if zero && mode != 4 then timerTrigger s3 t k false else s3

/-- TIMER_WRAP: TM_COUNT has gone past P, after the compare of its period (R212, R213). -/
def execTimerWrap (t : TileId) (k : Fin 8) (s : State) : Host.Outcome State Fault Refusal :=
  let x := getTile s t.val
  let mode := tmMode x k.val
  .next (if tmTicks s t.val k.val && (mode = 1 || mode = 3 || mode = 4) && tmReached s t.val k.val (tmPeriod x k.val + 1) then
      wrapTmr (if compareDue s t.val k.val then passCompare s t.val k.val else s) t.val k.val
    else s)

/-- TIMER_ONE_SHOT_END: a one-shot reaches P, after its compare, and stops (R212). -/
def execTimerOneShotEnd (t : TileId) (k : Fin 8) (s : State) : Host.Outcome State Fault Refusal :=
  let x := getTile s t.val
  .next (if tmTicks s t.val k.val && tmMode x k.val = 2 && tmReached s t.val k.val (tmPeriod x k.val) then
      changeTmr (if compareDue s t.val k.val then passCompare s t.val k.val else s) t.val k.val (fun m => { m with
        running := false, count := BitVec.ofNat 32 (tmPeriod x k.val), out := false })
    else s)

/-- A capture: TM_CAP and the capture count, which saturates, the trigger event, and an output of 1 for one clock period (R212,
R215, R217). -/
def captureTmr (s : State) (t k : Nat) (n : BitVec 32) : State :=
  timerTrigger (changeTmr s t k (fun m => { m with
    cap := n, caps := inc32 m.caps, out := true, fallAt := some (s.dev.now + 10) })) t k false

/-- The edge is noted for timer k. -/
def toTimer (k : Nat) : EdgeSink → Bool
  | .timer j _ => j == k
  | .slot _ | .snap _ | .design _ => false

/-- TIMER_SOURCE_EDGE: at the second timer edge after it, an edge of the source that TM_EVSEL selects starts a one-shot, or
captures into TM_CAP what TM_COUNT was at the first (R211, R212, R215). A capture timer that does not run captures nothing. -/
def execTimerSourceEdge (t : TileId) (k : Fin 8) (s : State) : Host.Outcome State Fault Refusal :=
  let x := getTile s t.val
  .next (match dueEdge s t.val true (toTimer k.val) with
    | none => s
    | some n =>
      if x.dom.lf != .on || dozed s t.val then s
      else
        let s1 := dropEdge s t.val n
        if tmMode x k.val = 2 then startTmr s1 t.val k.val
        else if tmMode x k.val = 4 && (getTmr x k.val).running then
          captureTmr s1 t.val k.val (match n.sink with | .timer _ c => c | _ => 0)
        else s1)

/-- What a check expects: the complement of the decision before, 0 or 1 (R210). -/
def checkExpect (kind : Nat) (before : Bool) : Bool := if kind = 1 then !before else kind == 3

/-- CMP_CHECK_END: the check's result; the output is no longer held. The reference decisions are those that the comparator had
before the check and has now (R210). -/
def execCmpCheckEnd (t : TileId) (k : Fin 16) (observed : Bool) (s : State) : Host.Outcome State Fault Refusal :=
  let c := getCmp (getTile s t.val) k.val
  .next (match c.check with
    | none => s
    | some (q, before) =>
      let kind := dByte q.d 30
      let want := checkExpect kind before
      let code := if kind = 1 && (before != c.d || !c.decided) then 2 else if observed = want then 0 else 1
      let s1 := modCmp s t.val k.val (fun c => { c with check := none })
      let s2 := if code = 1 then postTile (modCt s1 t.val (fun y => { y with checkFails := bump y.checkFails }))
          t.val 0x8A1 1 t.val k.val kind else s1
      cmpRefresh (complete q .ok (code + 2 ^ 8 * observed.toNat + 2 ^ 16 * want.toNat) s2) t.val k.val true)

/-! ### Descriptors (R216, R217) -/

def shCmpSet : Shape := shapeOf caseBits false false false [(28, 2), (32, 8)]
def shCmpEv : Shape := (shapeOf caseBits false false false [(28, 2), (32, 2)]).withBits [(30, 1)]
def shCmpCheck : Shape := shapeOf caseBits false false false [(28, 3)]
def shTmSet : Shape := shapeOf caseBits false false false [(28, 2), (32, 12)]
def shTmArm : Shape := (shapeOf caseBits false false false [(28, 2)]).withBits [(30, 1)]
def shTmRead : Shape := shapeOf caseBits true false true [(28, 3)]

/-- The input that a record names is the tile's net or an analogue pin assigned to the casement (R216). -/
def cmpInputOk (q : Req) (w0 : Nat) (s : State) : Bool :=
  let n := recBits w0 16 6
  decide (n < 32) || decide (37 < n) || pinOf s (1152 + 6 * dByte q.d 28 + (n - 32)) (dCase q.d).val

/-- A comparator's new record takes effect: mode, reference and input changes leave it UNDECIDED (R206). -/
def changeCmp (s : State) (t k w0 w1 : Nat) : State :=
  let old := cmpWord (getTile s t) k 0
  let undecide := recBits old 0 4 != recBits w0 0 4 || recBits old 16 6 != recBits w0 16 6
  let s1 := modTile s t (fun x => cfgWrite x 0x22 (8 * k) 8 (w0 + 2 ^ 32 * w1))
  let s2 := if undecide || recBits w0 0 2 = 0 then cmpUndecide s1 t k else cmpRefresh s1 t k true
  refreshBlank s2 t

def cmpSetBody (q : Req) (s : State) : Reply × State :=
  let t := dByte q.d 28
  let k := dByte q.d 29
  let w0 := dW32 q.d 32
  let w1 := dW32 q.d 36
  let inside := tileInside q t s && decide (k < 16) && cmpInputOk q w0 s
  checked (r59 q .poke (some t) inside s ++ [(dirty shCmpSet q || badCmpRecord w0 w1, .badField)])
    (fun s => let e := edgeTime s
      (.done .ok e.1.toNat, markChanged (changeCmp e.2 t k w0 w1) (dCase q.d).val)) s

/-- CMP_SET: one comparator record (R200, R206, R216). -/
def execCmpSet (q : Req) (s : State) : Host.Outcome State Fault Refusal :=
  .next (runDesc (.cmpSet q) 0x58 q (cmpSetBody q) s)

def cmpEvbindBody (q : Req) (s : State) : Reply × State :=
  let t := dByte q.d 28
  let k := dByte q.d 29
  let c := dW16 q.d 32
  let inside := tileInside q t s && decide (k < 16)
  let owned := match mfind s.hif.rings c with | some r => r.owner == q.host | none => false
  let event := match mfind s.hif.rings c with | some r => r.kind == .event | none => false
  checked (r59 q .poke (some t) inside s ++
      [(dirty shCmpEv q, .badField), (!owned, .refusedOwnership), (!event, .badField)])
    (fun s => (.done .ok 0, markChanged (modCmp s t k (fun y => { y with
      bound := if bitAt (dByte q.d 30) 0 then some (BitVec.ofNat 16 c) else none, held := none })) (dCase q.d).val)) s

/-- CMP_EVBIND: a comparator bound to an event ring, or unbound (R209, R216). -/
def execCmpEvbind (q : Req) (s : State) : Host.Outcome State Fault Refusal :=
  .next (runDesc (.cmpEvbind q) 0x59 q (cmpEvbindBody q) s)

/-- A check that R210 refuses. -/
def badCheck (x : Tile) (k kind : Nat) : Bool :=
  let code := recBits (cmpWord x k 0) 4 10
  decide (kind < 1) || decide (3 < kind) || cmpMode x k != 1 || (kind == 2 && decide (code < 64)) ||
    (kind == 3 && decide (896 < code) && (cmpRef x k == 1 || cmpRef x k == 2))

def cmpCheckBody (q : Req) (s : State) : Reply × State :=
  let t := dByte q.d 28
  let k := dByte q.d 29
  let inside := tileInside q t s && decide (k < 16)
  let x := getTile s t
  checked (r59 q .poke (some t) inside s ++
      [(dirty shCmpCheck q || badCheck x k (dByte q.d 30), .badField), ((getCmp x k).check.isSome, .busy)])
    (fun s => (.later, modCmp s t k (fun c => { c with check := some (q, c.d) }))) s

/-- CMP_CHECK: a continuous comparator tested by swap or tie, its output held meanwhile (R210). -/
def execCmpCheck (q : Req) (s : State) : Host.Outcome State Fault Refusal :=
  .next (runDesc (.cmpCheck q) 0x5A q (cmpCheckBody q) s)

/-- A timer's new record takes effect at its timer edge (R213). -/
def changeTm (s : State) (t k w0 w1 w2 : Nat) : State :=
  let x := getTile s t
  let m := getTmr x k
  let mode := recBits w0 0 3
  let wait := m.running && mode == tmMode x k && mode != 2
  let x1 := if wait then cfgWrite x 0x22 (128 + 16 * k) 4 w0
    else cfgWrite x 0x22 (128 + 16 * k) 12 (w0 + 2 ^ 32 * w1 + 2 ^ 64 * w2)
  let m1 : Tmr := if mode = tmMode x k then { m with next := if wait then some (BitVec.ofNat 32 w1, BitVec.ofNat 32 w2) else none }
    else { m with running := false, count := 0, out := false, hit := false, fallAt := none, next := none }
  let s1 := setTile s t { x1 with ct := { x1.ct with tmrs := mset x1.ct.tmrs k m1 } }
  if tmrOut x k = tmrOut (getTile s1 t) k then s1 else refreshBlank (settleFabric s s1) t

def tmSetBody (q : Req) (s : State) : Reply × State :=
  let t := dByte q.d 28
  let k := dByte q.d 29
  let inside := tileInside q t s && decide (k < 8)
  checked (r59 q .poke (some t) inside s ++ [(dirty shTmSet q || badTmRecord k (dW32 q.d 32), .badField)])
    (fun s => let e := edgeTime s
      (.done .ok e.1.toNat,
        markChanged (changeTm e.2 t k (dW32 q.d 32) (dW32 q.d 36) (dW32 q.d 40)) (dCase q.d).val)) s

/-- TM_SET: one timer record (R211, R213, R216). -/
def execTmSet (q : Req) (s : State) : Host.Outcome State Fault Refusal :=
  .next (runDesc (.tmSet q) 0x5B q (tmSetBody q) s)

def tmArmBody (q : Req) (s : State) : Reply × State :=
  let t := dByte q.d 28
  let k := dByte q.d 29
  let inside := tileInside q t s && decide (k < 8)
  checked (r59 q .poke (some t) inside s ++ [(dirty shTmArm q, .badField)])
    (fun s => let e := edgeTime s
      (.done .ok e.1.toNat, if bitAt (dByte q.d 30) 0 then startTmr e.2 t k else stopTmr e.2 t k)) s

/-- TM_ARM: a timer starts or stops (R214, R216). -/
def execTmArm (q : Req) (s : State) : Host.Outcome State Fault Refusal :=
  .next (runDesc (.tmArm q) 0x5C q (tmArmBody q) s)

/-- The 16 bytes of one timer (R217). -/
def tmBytes (s : State) (t k : Nat) : List Byte :=
  let m := getTmr (getTile s t) k
  layout 16 [(0, 4, (tmCount s t k).toNat), (4, 4, m.cap.toNat), (8, 4, m.caps.toNat)]

def tmReadBody (q : Req) (s : State) : Reply × State :=
  let t := dByte q.d 28
  let first := dByte q.d 29
  let n := dByte q.d 30
  let inside := tileInside q t s && decide (first < 8)
  let bad := dirty shTmRead q || decide (n < 1) || decide (8 < first + n) || short q (16 * n)
  checked (r59 q .peek (some t) inside s ++ [(bad, .badField)])
    (fun s => replyCopy q ((List.range n).flatMap (fun i => tmBytes s t (first + i))) n s) s

/-- TM_READ: counts and captures of timers (R217). -/
def execTmRead (q : Req) (s : State) : Host.Outcome State Fault Refusal :=
  .next (runDesc (.tmRead q) 0x5D q (tmReadBody q) s)

/-- The 64 bytes of CT_STATUS (R217). -/
def ctStatusBytes (x : Tile) : List Byte :=
  let bits := fun (m : Nat) (f : Nat → Bool) => (List.range m).foldl (fun v n => v + 2 ^ n * (f n).toNat) 0
  layout 64 [(0, 2, bits 16 (fun k => (getCmp x k).out)),
    (2, 2, bits 16 (fun k => cmpMode x k != 0 && !(getCmp x k).decided)),
    (4, 2, bits 16 (fun k => cmpMode x k != 0 && cmpBlank x k)), (6, 2, bits 16 (fun k => (getCmp x k).bound.isSome)),
    (8, 1, bits 8 (fun k => (getTmr x k).running)), (9, 1, bits 8 (fun k => tmrOut x k)),
    (12, 4, x.ct.checkFails), (16, 4, x.ct.coalesced)]

def ctStatusBody (q : Req) (s : State) : Reply × State :=
  checked (r59Tile q .peek s ++ [(dirty shTileCopy q || short q 64, .badField)])
    (fun s => replyCopy q (ctStatusBytes (getTile s (dByte q.d 28))) 0 s) s

/-- CT_STATUS: the comparators and timers of a tile (R217). -/
def execCtStatus (q : Req) (s : State) : Host.Outcome State Fault Refusal :=
  .next (runDesc (.ctStatus q) 0x5E q (ctStatusBody q) s)

end Sys2Proof.Machine
end

