-- ==== Sys2Proof/Machine/CycleDesc.lean ====
section
/-! DEFINITION. Descriptors of the Boolean processors and of emulated cycles: peeks, pokes, schedule and store
figures, rate, pause, step and lintel status (spec/02_boolean_processors.md R58 to R67, spec/03_emulated_cycles.md R95
to R100). -/

namespace Sys2Proof.Machine

/-! ### Field checks (R60, R61) -/

def shBpCycle : Shape := shapeOf caseBits true false true [(28, 8), (40, 8)]
def shMemCycle : Shape := shapeOf caseBits true false true [(28, 2), (32, 4), (40, 8)]
def shTileStatus : Shape := shapeOf caseBits true false true [(28, 1)]
def shTileClear : Shape := (shapeOf caseBits true false true [(28, 1)]).withBits [(29, 1)]
def shRate : Shape := shapeOf caseBits false false false [(28, 1), (32, 16)]
def shPause : Shape := shapeOf caseBits false false false [(40, 8)]
def shStep : Shape := shapeOf caseBits false false false [(32, 4)]
def shBoundary : Shape := shapeOf caseBits true false true [(28, 1), (40, 8)]

/-- A range of n units from the first, in a file of `top`. -/
def badRange (first n top : Nat) : Bool := n == 0 || decide (top < first + n)

/-- Fields of BP_PEEK and BP_POKE; `top` is 512 for a peek and 384 for a poke. -/
def badBpFields (q : Req) (top : Nat) : Bool :=
  dirty shBpCycle q || decide (31 < dByte q.d 29) || badRange (dByte q.d 30) (dByte q.d 31) 32 ||
    badRange (dW16 q.d 32) (dW16 q.d 34) top || short q ((reqBits q false + 7) / 8)

/-- Fields of MEM_PEEK and MEM_POKE. -/
def badMemFields (q : Req) : Bool :=
  dirty shMemCycle q || decide (7 < dByte q.d 29) || badRange (dW16 q.d 32) (dW16 q.d 34) 2048 || short q (4 * dW16 q.d 34)

/-- Every entry that a BP_POKE names is an emulated flip-flop of every member that it names (R63). -/
def pokesFfs (x : Tile) (d : Nat) (q : Req) : Bool :=
  let ffs := ffSlots x d
  (List.range (dByte q.d 31)).all (fun i => (List.range (dW16 q.d 34)).all (fun j =>
    (mget 0 ffs (32 * dByte q.d 29 + dByte q.d 30 + i)).getLsbD (dW16 q.d 32 + j)))

/-- Schedule depth of the casement that a descriptor names. -/
def depthOf (q : Req) (s : State) : Nat := match getCase s (dCase q.d) with
  | some k => k.depth
  | none => 0

/-! ### Peeks (R62, R64, R65) -/

/-- A tile stands paused between the close of its cycle and a release. -/
def pausedTile (s : State) (t : Nat) : Bool :=
  (getTile s t).cyc.phase == .closed && (match caseOfTile s t with | some p => caseStill p.2 | none => false)

/-- A peek accepted: served at once from a paused tile, else at its close. -/
def acceptPeek (q : Req) (kind : PeekKind) (s : State) : Reply × State :=
  let t := servedBy s (dByte q.d 28)
  let y := (getTile s t).cyc
  let named := dW64 q.d 40
  if pausedTile s t && (named = nextCycle || named = y.cycle.toNat) then
    (.later, servePeek t y.cycle.toNat s { req := q, kind := kind, cyc := y.cycle })
  else
    checked (r62 named (openClose y) y.cycle.toNat y.pokes.length)
      (fun s => (.later, modCyc s t (fun y => { y with peeks := y.peeks ++
        [{ req := q, kind := kind, cyc := BitVec.ofNat 64 (namedCycle named (openClose y)) }] }))) s

def bpPeekBody (q : Req) (s : State) : Reply × State :=
  checked (r59Served q .peek s ++ [(badBpFields q 512, .badField)]) (acceptPeek q .bp) s

/-- BP_PEEK: value-file entries as a close leaves them (R60 to R65). -/
def execBpPeek (q : Req) (s : State) : Host.Outcome State Fault Refusal :=
  .next (runDesc (.bpPeek q) 0x30 q (bpPeekBody q) s)

def memPeekBody (q : Req) (s : State) : Reply × State :=
  checked (r59Served q .peek s ++ [(badMemFields q, .badField)]) (acceptPeek q .mem) s

/-- MEM_PEEK: words of emulated memory as a close leaves them (R60 to R65). -/
def execMemPeek (q : Req) (s : State) : Host.Outcome State Fault Refusal :=
  .next (runDesc (.memPeek q) 0x32 q (memPeekBody q) s)

def boundaryPeekBody (q : Req) (s : State) : Reply × State :=
  checked (r59Served q .peek s ++ [(dirty shBoundary q || short q 64, .badField)]) (acceptPeek q .boundary) s

/-- BOUNDARY_PEEK: boundary inputs and outputs of a cycle (R99). -/
def execBoundaryPeek (q : Req) (s : State) : Host.Outcome State Fault Refusal :=
  .next (runDesc (.boundaryPeek q) 0x3B q (boundaryPeekBody q) s)

/-! ### Pokes (R62, R63, R65) -/

/-- The tiles that a poke reaches: the tile that serves it, and its live partner. -/
def pokeTiles (s : State) (q : Req) : List Nat := deliveryTiles s (dByte q.d 28)

/-- A poke queued in each tile that it reaches, for the same release; its descriptor completes with the first. -/
def queuePoke (q : Req) (mem : Bool) (n : Nat) (s : State) : State :=
  let first := servedBy s (dByte q.d 28)
  (pokeTiles s q).foldl (fun s t => modCyc s t (fun y => { y with pokes := y.pokes ++
    [{ req := q, mem := mem, cyc := BitVec.ofNat 64 n, completes := t == first }] })) s

/-- A poke accepted, its data fetched. -/
def acceptPoke (q : Req) (mem : Bool) (s : State) : Reply × State :=
  let ts := pokeTiles s q
  let first := ts.foldl (fun n t => max n (openRelease (getTile s t).cyc)) 0
  let y := (getTile s (servedBy s (dByte q.d 28))).cyc
  let full := ts.any (fun t => decide (64 ≤ (getTile s t).cyc.pokes.length))
  checked (r62 (dW64 q.d 40) first y.cycle.toNat (if full then 64 else 0))
    (fun s => if q.io.bufOk then (.later, queuePoke q mem (namedCycle (dW64 q.d 40) first) s) else (.dma, s)) s

def bpPokeBody (q : Req) (s : State) : Reply × State :=
  let x := getTile s (servedBy s (dByte q.d 28))
  checked (r59Served q .poke s ++ [(isolatedCase q s, .shuttered), (badBpFields q 384, .badField),
    (!pokesFfs x (depthOf q s) q, .badField)]) (acceptPoke q false) s

/-- BP_POKE: emulated flip-flops written at a release (R60 to R65). -/
def execBpPoke (q : Req) (s : State) : Host.Outcome State Fault Refusal :=
  .next (runDesc (.bpPoke q) 0x31 q (bpPokeBody q) s)

def memPokeBody (q : Req) (s : State) : Reply × State :=
  checked (r59Served q .poke s ++ [(isolatedCase q s, .shuttered), (badMemFields q, .badField)]) (acceptPoke q true) s

/-- MEM_POKE: words of emulated memory written at a release (R60 to R65). -/
def execMemPoke (q : Req) (s : State) : Host.Outcome State Fault Refusal :=
  .next (runDesc (.memPoke q) 0x33 q (memPokeBody q) s)

/-! ### Figures (R66, R67, R100) -/

/-- Sum of the four stall totals. -/
def stallTotal (y : Stalls) : Nat := y.imports.toNat + y.lintel.toNat + y.pacing.toNat + y.generator.toNat

/-- Access slots of a block that a programme of depth d uses: its READs and WRITE_IFs (R44). -/
def blockAccesses (x : Tile) (d b : Nat) : Nat :=
  ((usedWords x).filter (fun a =>
    let st := a % 1024
    let op := insOpx (insWord x (a / 1024) st)
    decide (st < d) && (op == 3 || op == 4) && recBits (exchWord x (a / 1024 / 32) st) 60 3 == b)).length

/-- The 64 bytes of SCHEDULE_INFO (R66). -/
def scheduleBytes (x : Tile) (k : Casement) : List Byte :=
  let ffs := (ffSlots x k.depth).foldl (fun n p => n + popCount p.2) 0
  layout 64 ([(0, 2, k.depth), (4, 4, 25000 * x.cyc.clkN), (8, 8, x.cyc.cycle.toNat), (16, 8, stallTotal x.cyc.stalls)] ++
    (List.range 8).map (fun b => (24 + b, 1, blockAccesses x k.depth b)) ++ [(32, 2, (ffs + 999) / 1000)])

def scheduleInfoBody (q : Req) (s : State) : Reply × State :=
  checked (r59Tile q .peek s ++ [(dirty shTileStatus q || short q 64, .badField)])
    (fun s => match getCase s (dCase q.d) with
      | some k => replyCopy q (scheduleBytes (getTile s (dByte q.d 28)) k) 0 s
      | none => (.done .badField 0, s)) s

/-- SCHEDULE_INFO: schedule figures of a tile (R66). -/
def execScheduleInfo (q : Req) (s : State) : Host.Outcome State Fault Refusal :=
  .next (runDesc (.scheduleInfo q) 0x34 q (scheduleInfoBody q) s)

/-- The 64 bytes of STORE_STATUS (R67). -/
def storeBytes (t : Nat) (x : Tile) : List Byte :=
  let rows := fun (m : Map (List Nat)) => m.foldl (fun n p => n + p.2.length) 0
  let factory := (List.range 1024).foldl (fun n b => n + Config.factoryRows t b % 3 + Config.factorySlotRows t b % 2) 0
  layout 64 ((List.range 5).map (fun k => (4 * k, 4, mget 0 x.bp.corrected k)) ++
    [(20, 4, x.bp.scrubPasses), (24, 4, factory + rows (repairOf x.ctl).istore + rows (repairOf x.ctl).slots)])

/-- STORE_STATUS clears the counts after the copy; the rows in use are no count of events. The spec names nothing else
that clears the counts: DESIGN CHOICE, a load, a return to the pool and a TILE reset (clearedTile) clear them with the
tile's state, a CASEMENT reset and HOLD keep them (assumption 23). -/
def clearStore (x : Tile) : Tile := { x with bp := { x.bp with corrected := [], scrubPasses := 0 } }

def storeStatusBody (q : Req) (s : State) : Reply × State :=
  let t := dByte q.d 28
  checked (r59Tile q .peek s ++ [(dirty shTileClear q || short q 64, .badField)])
    (fun s =>
      let r := replyCopy q (storeBytes t (getTile s t)) 0 s
      if q.io.bufOk && bitAt (dByte q.d 29) 0 then (r.1, modTile r.2 t clearStore) else r) s

/-- STORE_STATUS: error counts of a tile, which it may clear (R67). -/
def execStoreStatus (q : Req) (s : State) : Host.Outcome State Fault Refusal :=
  .next (runDesc (.storeStatus q) 0x35 q (storeStatusBody q) s)

/-- State byte of LINTEL_STATUS (R100). The table names no state for a tile that runs no programme, nor for one that relocks
or waits for its pace: DESIGN CHOICE, 4 (assumption 23). -/
def lintelState (x : Tile) : Nat :=
  let y := x.cyc
  if y.phase == .idle then 4
  else if !clkSteps y.clk && y.clk != .locking then 5
  else match y.phase with
    | .stepping => if (importAwaited x y.step).isSome then 1 else 0
    | .barrier => if y.barrier < 8 then 2 else 3
    | .closed | .idle => 4

/-- The 64 bytes of LINTEL_STATUS. -/
def lintelBytes (s : State) (t : Nat) : List Byte :=
  let x := getTile s t
  let y := x.cyc
  layout 64 [(0, 1, lintelState x), (1, 1, if lintelState x = 1 then (importAwaited x y.step).getD 0xFF else 0xFF),
    (2, 2, currentStep s t), (8, 8, y.cycle.toNat), (16, 8, y.stalls.imports.toNat),
    (24, 8, y.stalls.lintel.toNat), (32, 8, y.stalls.pacing.toNat), (40, 4, y.stallTimeouts), (44, 4, y.unexpected),
    (48, 8, y.stalls.generator.toNat)]

def lintelStatusBody (q : Req) (s : State) : Reply × State :=
  checked (r59Tile q .peek s ++ [(dirty shTileStatus q || short q 64, .badField)])
    (fun s => replyCopy q (lintelBytes s (dByte q.d 28)) 0 s) s

/-- LINTEL_STATUS: where a tile stands in its cycle, and its stall totals (R100). -/
def execLintelStatus (q : Req) (s : State) : Host.Outcome State Fault Refusal :=
  .next (runDesc (.lintelStatus q) 0x3C q (lintelStatusBody q) s)

/-! ### Rate, pause and step (R95 to R98) -/

/-- The latest of a count over the live tiles of the named casement. -/
def overTiles (q : Req) (f : CycState → Nat) (s : State) : Nat := match getCase s (dCase q.d) with
  | some k => (liveTilesOf s k).foldl (fun n t => max n (f (getTile s t).cyc)) 0
  | none => 0

/-- Cycle in progress of the named casement. -/
def cycleNow (q : Req) (s : State) : Nat := match getCase s (dCase q.d) with
  | some k => caseCycle k s
  | none => 0

/-- Fields of CYCLE_RATE. -/
def badRate (q : Req) : Bool :=
  let n := dByte q.d 28
  dirty shRate q || (n != 0 && (decide (n < 16) || decide (36 < n))) || decide (1000000000 < dW32 q.d 36)

def cycleRateBody (q : Req) (s : State) : Reply × State :=
  let first := overTiles q openRelease s
  checked (r59 q .poke none true s ++ [(badRate q, .badField)] ++ r62 (dW64 q.d 40) first (cycleNow q s) 0)
    (fun s => (.later, modCase (markChanged s (dCase q.d).val) (dCase q.d).val (fun k => { k with rates := k.rates ++
      [{ req := q, cyc := BitVec.ofNat 64 (namedCycle (dW64 q.d 40) first) }] }))) s

/-- CYCLE_RATE: N, PACE and STALL_LIMIT from the release of a cycle on (R96). -/
def execCycleRate (q : Req) (s : State) : Host.Outcome State Fault Refusal :=
  .next (runDesc (.cycleRate q) 0x38 q (cycleRateBody q) s)

/-- A pause is pending. -/
def pausePending (q : Req) (s : State) : Bool := match getCase s (dCase q.d) with
  | some k => k.pause.isSome
  | none => false

def cyclePauseBody (q : Req) (s : State) : Reply × State :=
  let first := overTiles q openClose s
  checked (r59 q .poke none true s ++ [(dirty shPause q, .badField), (pausePending q s, .busy)] ++
      r62 (dW64 q.d 40) first (cycleNow q s) 0)
    (fun s => (.later, modCase s (dCase q.d).val (fun k => { k with
      pause := some (BitVec.ofNat 64 (namedCycle (dW64 q.d 40) first), q) }))) s

/-- CYCLE_PAUSE: the casement pauses after the close of a cycle (R97). -/
def execCyclePause (q : Req) (s : State) : Host.Outcome State Fault Refusal :=
  .next (runDesc (.cyclePause q) 0x39 q (cyclePauseBody q) s)

/-- The casement is held by a barrier fault. -/
def heldCase (q : Req) (s : State) : Bool := match getCase s (dCase q.d) with
  | some k => k.st == .held
  | none => false

/-- The casement is paused or held by a barrier fault. -/
def stillCase (q : Req) (s : State) : Bool := match getCase s (dCase q.d) with
  | some k => caseStill k
  | none => false

/-- Checks of CYCLE_STEP; the steward alone may step a casement that is held (R95, R98). -/
def stepChecks (q : Req) (s : State) : List (Bool × Status) :=
  (if heldCase q s then
    [(!isSteward q s, .refusedOwnership), (match getCase s (dCase q.d) with | some k => takenOver s (dCase q.d) || caseShut k none s | none => true, .shuttered)]
   else r59 q .poke none true s) ++
  [(dirty shStep q || !stillCase q s, .badField)]

/-- The casement goes on: HOLD and the fault cleared, freely or for COUNT cycles; a step that is pending from before keeps
its own last cycle. In DOZE the release waits for the exit (assumption 22). -/
def stepCase (q : Req) (s : State) : State :=
  let n := dW32 q.d 32
  let stops := !s.dev.sleepReq.isEmpty
  settleFaultN (wakeRouters (modCase s (dCase q.d).val (fun k =>
    let k1 := { k with
      chan := { k.chan with fault := false }, halt := stops,
      resume := if n = 0 then k.resume ++ [q] else k.resume,
      stepTo := if n = 0 then k.stepTo else k.stepTo ++ [(BitVec.ofNat 64 (caseCycle k s + n), q)] }
    if k.pwr == .run then { k1 with st := .running } else { k1 with st := .paused, pwrFrom := .running })))

def cycleStepBody (q : Req) (s : State) : Reply × State :=
  checked (stepChecks q s) (fun s => (.later, stepCase q s)) s

/-- CYCLE_STEP: a paused or held casement goes on (R98). -/
def execCycleStep (q : Req) (s : State) : Host.Outcome State Fault Refusal :=
  .next (runDesc (.cycleStep q) 0x3A q (cycleStepBody q) s)

end Sys2Proof.Machine
end

