-- ==== Sys2Proof/Machine/HostIf.lean ====
section
/-! DEFINITION. Doorbell polls, descriptor fetch, bring-up of a host, and the ring administration opcodes 0x00 to
0x07 (spec/11_host_rings.md). -/

namespace Sys2Proof.Machine

/-! ### Bring-up (R265 to R269) -/

/-- LOG2 from 4 to 16. -/
def log2Ok (n : Nat) : Bool := 4 ≤ n && n ≤ 16

/-- A host can reach its registers: its port has power and a link, and no reset holds the device (R293, R424, R435). -/
def hostReach (s : State) (h : HostId) : Bool :=
  s.dev.inReset == .none && s.dev.vsd && (if h.val < 4 then s.dev.pcieA else s.dev.pcieB) == .on

/-- EN is acted on: the registers are checked, and the admin rings and polling start (R269). -/
def enableHost (s : State) (h : HostId) : State :=
  let x := getHost s h
  if x.active then s
  else if !log2Ok x.sqSize.toNat || !log2Ok x.cqSize.toNat || x.sqBase = 0 || x.cqBase = 0 || x.dbRoot = 0 then
    post (raiseFault s h 0) 0x402 4 h.val 0 0
  else
    let s1 := setHost s h { x with
      active := true,
      adminSq := some (Ring.fresh .submission h x.sqSize.toNat x.sqBase 0),
      adminCq := some (Ring.fresh .completion h x.cqSize.toNat x.cqBase 1),
      dbBase := x.dbRoot, rootSeen := 0, groupsSeen := [], idle := 0, interval := x.poll.toNat, dbEpisode := false, turn := 0 }
    post (modDev (settleQuiesced s1 h) (fun d => { d with wakeN := false })) 0x401 4 h.val 0 0

/-- HOST_ENABLE: SET_HOSTCTL.EN goes from 0 to 1; it is acted on once READY is set (R266, R269). -/
def execHostEnable (h : HostId) (s : State) : Host.Outcome State Fault Refusal :=
  let s1 := modHost s h (fun x => { x with en := true })
  .next (if (getHost s h).en || !hostReach s h then s else if s.hif.ready then enableHost s1 h else s1)

/-- DEVICE_READY: the ring service runs; a host whose EN is 1 is brought up (R266). -/
def execDeviceReady (s : State) : Host.Outcome State Fault Refusal :=
  .next (if s.hif.ready || s.dev.inReset != .none || s.dev.svc != .on then s
    else (List.finRange 8).foldl (fun s (h : HostId) => if (getHost s h.val).en then enableHost s h else s)
      (modHif s (fun f => { f with ready := true })))

/-! ### Fetching (R278) -/

/-- Room in a completion ring for another record: reserved and unconsumed records never exceed its size. -/
def cqRoom (x : Ring) : Nat := if x.error then 0 else ringSize x - (ringUsed x + x.reserved)

/-- Descriptors produced and not yet fetched, modulo 2^32 (R272, R284). -/
def sqBehind (x : Ring) : Nat := (x.index.toNat + 2 ^ 32 - x.count % 2 ^ 32) % 2 ^ 32

/-- Descriptors that one read takes from a submission ring: at most 16. -/
def fetchCount (s : State) (h : HostId) (r : RingRef) : Nat := match getRing s r with
  | none => 0
  | some x =>
    if x.error || x.deleting.isSome then 0
    else match getRing s (cqRef h x) with
      | none => 0
      | some y => min 16 (min (sqBehind x) (cqRoom y))

/-- The context of a ring as descriptors carry it: none for an admin ring. -/
def refRing : RingRef → Option (BitVec 16)
  | .pool c => some (BitVec.ofNat 16 c)
  | .adminSq _ | .adminCq _ => none

/-- One read of descriptors; a failed read takes the ring to ERROR (R284 reason 3). -/
def fetchFrom (s : State) (h : HostId) (r : RingRef) : State :=
  let n := fetchCount s h r
  if n = 0 then s
  else match getRing s r with
    | none => s
    | some x =>
      if x.noFetch then ringError s r 3
      else
      let first := s.hif.fetched
      let s1 := setRing s r { x with count := x.count + n, inflight := x.inflight ++ (List.range n).map (· + first) }
      let s2 := modRing s1 (cqRef h x) (fun y => { y with reserved := y.reserved + n })
      let news := (List.range n).map (fun i => ({ seq := first + i, host := h, ring := refRing r, steward := s.hif.steward == h,
                                                  live := true, started := false } : OpenDesc))
      modHost (modHif s2 (fun f => { f with fetched := f.fetched + n, opened := f.opened ++ news })) h
        (fun z => { z with turn := x.word })

/-- Rings in order of their index words. -/
def insertByWord (w : Nat) (r : RingRef) : List (Nat × RingRef) → List (Nat × RingRef)
  | [] => [(w, r)]
  | p :: l => if w < p.1 then (w, r) :: p :: l else p :: insertByWord w r l

/-- The submission rings of a host, in round-robin order from after the one served last (R278). -/
def hostSqs (s : State) (h : HostId) : List RingRef :=
  let pool := (s.hif.rings.filter (fun p => p.2.owner == h && p.2.kind == .submission)).map
    (fun p => (p.2.word, RingRef.pool p.1))
  let all := ((0, RingRef.adminSq h) :: pool).foldl (fun l p => insertByWord p.1 p.2 l) []
  let turn := (getHost s h).turn
  ((all.filter (fun p => turn < p.1)) ++ (all.filter (fun p => p.1 ≤ turn))).map (·.2)

/-- Rounds of reads over a host's rings until none has work that it may fetch, at most n rounds. -/
def serveRounds : Nat → State → HostId → State
  | 0, s, _ => s
  | n + 1, s, h =>
    let rs := hostSqs s h
    if rs.all (fun r => fetchCount s h r == 0) then s
    else serveRounds n (rs.foldl (fun s r => fetchFrom s h r) s) h

/-- The device fetches what a host has produced; none while QUIESCE is 1 (R270, R278). -/
def serveRings (s : State) (h : HostId) : State :=
  let x := getHost s h
  if x.active && !x.quiesce then settleQuiesced (serveRounds 8192 s h) h else s

/-! ### Polls (R273 to R276) -/

/-- The interval after one more idle poll (R275). -/
def idleInterval (x : HostSt) : Nat :=
  if 2000 ≤ x.poll.toNat || x.backoffDis then x.poll.toNat
  else if x.idle < 1000 then x.poll.toNat else min 2000 (2 * x.interval)

/-- A failed doorbell read (R276). -/
def pollFailed (s : State) (h : HostId) : State :=
  let s1 := modHost (raiseFault s h 1) h (fun x => { x with dbEpisode := true, interval := 2000 })
  if (getHost s h).dbEpisode then s1 else post s1 0x404 4 h.val 0 0

/-- An index word of a ring as read: the ring goes to ERROR where the counts cannot be (R284 reasons 1 and 2); an
event ring's waiting entries follow. -/
def takeIndex (s : State) (r : RingRef) (v : BitVec 32) : State := match getRing s r with
  | none => s
  | some x =>
    if x.index = v then s
    else
      let y := { x with index := v }
      let s1 := setRing s r y
      if x.kind == .submission then (if ringSize x < sqBehind y then ringError s1 r 1 else s1)
      else if ringSize x < ringUsed y then ringError s1 r 2
      else match r with
        | .pool c => flushEntries x.waiting.length s1 c
        | _ => s1

/-- The ring of a host that an index word serves (R271). -/
def ringOfWord (s : State) (h : HostId) (n : Nat) : Option RingRef :=
  if n = 0 then some (.adminSq h) else if n = 1 then some (.adminCq h)
  else (s.hif.rings.find? (fun p => p.2.owner == h && p.2.word == n)).map (fun p => .pool p.1)

/-- The index words of one group acted on. -/
def takeGroup (h : HostId) (s : State) (g : Nat) (ws : List (BitVec 32)) : State :=
  ws.zipIdx.foldl (fun s p => match ringOfWord s h (64 * g + p.2) with
    | some r => takeIndex s r p.1
    | none => s) s

/-- Groups whose word differs from its last value seen. -/
def changedGroups (x : HostSt) (gs : List (BitVec 64)) : List Nat :=
  (gs.zipIdx.filter (fun p => p.1 != mget 0 x.groupsSeen p.2)).map (·.2)

/-- One read of the doorbell block at an offset, of n bytes; none where it fails (R271, R276). -/
def readBlock (x : HostSt) (rd : PollReads) (off n : Nat) : Option (List Byte) :=
  (rd.mem.find? (fun p => p.1 == x.dbBase + BitVec.ofNat 64 off && p.2.length == n)).map (·.2)

/-- The root generation word (R271). -/
def readRoot (x : HostSt) (rd : PollReads) : Option (BitVec 64) := (readBlock x rd 0 8).map (fun b => BitVec.ofNat 64 (leNat b))

/-- The 128 group generation words, in one read (R271, R273). -/
def readGroupWords (x : HostSt) (rd : PollReads) : Option (List (BitVec 64)) :=
  (readBlock x rd 0x400 1024).map (fun b => (List.range 128).map (fun g => BitVec.ofNat 64 (fieldAt b (8 * g) 8)))

/-- The 64 index words of a group, in one read (R271, R273). -/
def readIndexWords (x : HostSt) (rd : PollReads) (g : Nat) : Option (List (BitVec 32)) :=
  (readBlock x rd (0x800 + 256 * g) 256).map (fun b => (List.range 64).map (fun n => BitVec.ofNat 32 (fieldAt b (4 * n) 4)))

/-- What a poll reads of the changed groups; none where a read fails. -/
def readGroups (x : HostSt) (rd : PollReads) : List Nat → Option (List (Nat × List (BitVec 32)))
  | [] => some []
  | g :: r => match readIndexWords x rd g, readGroups x rd r with
    | some ws, some l => some ((g, ws) :: l)
    | _, _ => none

/-- Which rings of a host the device can read and write from this poll on (R284). -/
def takeReach (s : State) (h : HostId) (rd : PollReads) : State :=
  let set_ := fun (c : Option (BitVec 16)) (r : Ring) => { r with noFetch := rd.noFetch.contains c, noWrite := rd.noWrite.contains c }
  modHif (modHost s h (fun x => { x with adminSq := x.adminSq.map (set_ none), adminCq := x.adminCq.map (set_ none) }))
    (fun f => { f with rings := mmap (fun c r => if r.owner == h then set_ (some (BitVec.ofNat 16 c)) r else r) f.rings })

/-- A poll that finds a change (R273). -/
def pollChange (s : State) (h : HostId) (rd : PollReads) (root : BitVec 64) : State :=
  let x := getHost s h
  match readGroupWords x rd with
  | none => pollFailed s h
  | some gs => match readGroups x rd (changedGroups x gs) with
    | none => pollFailed s h
    | some l =>
      let s1 := setHost s h { x with
        rootSeen := root,
        groupsSeen := gs.zipIdx.map (fun p => (p.2, p.1)),
        idle := 0,
        interval := x.poll.toNat,
        dbEpisode := false }
      serveRings (l.foldl (fun s p => takeGroup h s p.1 p.2) s1) h

/-- DOORBELL_POLL: a host's poll timer expires (R273 to R276). -/
def execDoorbellPoll (h : HostId) (rd : PollReads) (s : State) : Host.Outcome State Fault Refusal :=
  let s1 := takeReach s h rd
  let x := getHost s1 h
  .next (if !x.active then s
    else match readRoot x rd with
      | none => pollFailed s1 h
      | some root =>
        if root = x.rootSeen then
          setHost s1 h { x with idle := x.idle + 1, interval := idleInterval x, dbEpisode := false }
        else pollChange s1 h rd root)

/-- QUIESCE: fetching stops, and QUIESCED follows the last completion (R270). -/
def execQuiesce (h : HostId) (s : State) : Host.Outcome State Fault Refusal :=
  .next (if !hostReach s h then s else settleQuiesced (modHost s h (fun x => { x with quiesce := true })) h)

/-- QUIESCE_CLEAR: fetching resumes (R270). -/
def execQuiesceClear (h : HostId) (s : State) : Host.Outcome State Fault Refusal :=
  .next (if !hostReach s h then s else serveRings (settleQuiesced (modHost s h (fun x => { x with quiesce := false })) h) h)

/-- MSIX_MOD_TIME_EXPIRY: MOD_TIME after the first counting entry, the ring signals (R286). -/
def execMsixModTimeExpiry (h : HostId) (ring : Option (BitVec 16)) (s : State) : Host.Outcome State Fault Refusal :=
  let r := match ring with
    | some c => RingRef.pool c.toNat
    | none => .adminCq h
  .next (match getRing s r with
    | none => s
    | some x =>
      if x.owner == h && x.kind != .submission && decide (0 < x.unsignalled) && (ringIrq s r x).2.2.2 != 0
      then signalRing s r else s)

/-! ### Deletion of rings (R270, R292, R293) -/

/-- Every ring of a host is deleted, the admin rings included. -/
def deleteHostRings (s : State) (h : HostId) : State :=
  let s1 := modHost s h (fun x => { x with active := false, adminSq := none, adminCq := none })
  let s2 := modHif s1 (fun f => { f with
    opened := f.opened.map (fun o => if o.host == h then { o with live := false } else o),
    rings := mmap (fun _ r => if r.owner == h then { r with deleting := none } else r) f.rings })
  ((s2.hif.rings.filter (fun p => p.2.owner == h)).map (·.1)).foldl clearContext s2

/-- A pool ring deleted at once; a completion ring takes every submission ring bound to it along (R292). -/
def forceDelete (s : State) (c : Nat) : State :=
  let s1 := ((s.hif.rings.filter (fun p => p.2.kind == .submission && p.2.bound == some (BitVec.ofNat 16 c))).map (·.1)).foldl
    clearContext s
  clearContext s1 c

/-! ### Descriptors (R296 to R298) -/

/-- RESERVED_OPCODE: an opcode that no chapter lists completes with NOT_SUPPORTED, whatever its other fields (R280, R294). -/
def execReservedOpcode (op : Byte) (q : Req) (s : State) : Host.Outcome State Fault Refusal :=
  .next (match openOf q s with
    | none => s
    | some o =>
      if o.started || q.d.op != op || !reservedOp op then s
      else if mustWait q o s then parkDesc (.reservedOpcode op q) s
      else complete q .notSupported 0 (markStarted q s))

def shNop : Shape := shapeOf 0 false false false []
def shRingDelete : Shape := shapeOf 0 false false false [(32, 2)]
def shRingModerate : Shape := (shapeOf 0 false false false [(32, 2), (37, 3)]).withBits [(36, 0xBF)]
def shRingQuery : Shape := shapeOf 0 true false true [(32, 2)]
def shRingAssign : Shape := (shapeOf 0 false false false [(28, 1), (32, 2), (36, 4)]).withBits [(29, 1)]
def shHandover : Shape := shapeOf 0 false false false [(28, 1)]
def shHostStatus : Shape := shapeOf 0 true false true []

/-- The fields that RING_CREATE uses for each kind. -/
def shRingCreate (kind : Nat) : Shape :=
  let runs := if kind = 0 then [(28, 8), (37, 3)] else [(28, 6), (37, 3)]
  (shapeOf 0 true false true runs).withBits ((36, 0xBF) :: if kind = 2 then [(40, 1)] else [])

def nopBody (q : Req) (s : State) : Reply × State :=
  checked [(dirty shNop q, .badField)] (fun s => (.done .ok s.dev.now.toNat, s)) s

/-- NOP: completes at once with device time (R296). -/
def execNop (q : Req) (s : State) : Host.Outcome State Fault Refusal :=
  .next (runDesc (.nop q) 0x00 q (nopBody q) s)

/-- The host that a context is assigned to (R292). -/
def ownerOf : List (Nat × Nat × Option HostId) → Nat → Option HostId
  | [], _ => none
  | (first, n, h) :: r, c => if first ≤ c && c < first + n then h else ownerOf r c

/-- The context is assigned to the issuer. -/
def ownsContext (q : Req) (c : Nat) (s : State) : Bool := ownerOf s.hif.assign c == some q.host

def ringKindOf : Nat → RingKind
  | 0 => .submission
  | 1 => .completion
  | _ => .event

/-- A field of RING_CREATE out of its range (R297, second row). -/
def badRingCreate (q : Req) : Bool :=
  let kind := dByte q.d 28
  let log2 := dByte q.d 29
  let word := dW16 q.d 30
  dirty (shRingCreate kind) q || decide (2 < kind) || !log2Ok log2 || decide (word < 2) || decide (8191 < word) ||
    dByte q.d 37 == 0 || q.d.length.toNat != 2 ^ log2 * (if kind = 0 then 64 else 16) ||
    q.d.addrA.toNat % 64 != 0

/-- The bound ring is a live completion ring of the issuer. -/
def boundOk (q : Req) (s : State) : Bool := match mfind s.hif.rings (dW16 q.d 34) with
  | some r => r.kind == .completion && r.owner == q.host
  | none => false

/-- The ring that RING_CREATE makes (R277). -/
def newRing (q : Req) : Ring :=
  let kind := dByte q.d 28
  let r := Ring.fresh (ringKindOf kind) q.host (dByte q.d 29) q.d.addrA (dW16 q.d 30)
  if kind = 0 then { r with bound := some (BitVec.ofNat 16 (dW16 q.d 34)) }
  else { r with vector := BitVec.ofNat 6 (dByte q.d 36), irq := bitAt (dByte q.d 36) 7, modCount := dByte q.d 37,
                modTime := BitVec.ofNat 16 (dW16 q.d 38), notice := kind == 2 && bitAt (dByte q.d 40) 0 }

def ringCreateBody (q : Req) (s : State) : Reply × State :=
  let c := dW16 q.d 32
  let mine := fun (p : Nat × Ring) => p.2.owner == q.host
  checked [(!ownsContext q c s, .refusedOwnership), (badRingCreate q, .badField),
      (dByte q.d 28 == 0 && !boundOk q s, .badField),
      ((newRing q).notice && s.hif.rings.any (fun p => mine p && p.2.notice), .conflict),
      ((mfind s.hif.rings c).isSome, .busy),
      (s.hif.rings.any (fun p => mine p && p.2.word == dW16 q.d 30), .conflict)]
    (fun s => (.done .ok 0, modHif s (fun f => { f with rings := mset f.rings c (newRing q) }))) s

/-- RING_CREATE: a pool ring goes live (R277, R297). -/
def execRingCreate (q : Req) (s : State) : Host.Outcome State Fault Refusal :=
  .next (runDesc (.ringCreate q) 0x01 q (ringCreateBody q) s)

def ringDeleteBody (q : Req) (s : State) : Reply × State :=
  let c := dW16 q.d 32
  checked [(!ownsContext q c s, .refusedOwnership), (dirty shRingDelete q, .badField),
      (s.hif.rings.any (fun p => p.2.kind == .submission && p.2.bound == some (BitVec.ofNat 16 c)), .busy)]
    (fun s => match mfind s.hif.rings c with
      | none => (.done .ok 0, s)
      | some r =>
        if r.kind != .submission then (.done .ok 0, clearContext s c)
        else if r.deleting.isSome then (.done .busy 0, s)
        else
          let s1 := setRing s (.pool c) { r with deleting := some q }
          (.later, sweepDeletes s1.hif.rings.length s1)) s

/-- RING_DELETE: a submission ring once its descriptors have completed, another at once (R296, R297). -/
def execRingDelete (q : Req) (s : State) : Host.Outcome State Fault Refusal :=
  .next (runDesc (.ringDelete q) 0x02 q (ringDeleteBody q) s)

def ringModerateBody (q : Req) (s : State) : Reply × State :=
  let c := dW16 q.d 32
  let none_ := match mfind s.hif.rings c with | some r => r.kind == .submission | none => true
  checked [(!ownsContext q c s, .refusedOwnership),
      (dirty shRingModerate q || none_ || dByte q.d 37 == 0, .badField)]
    (fun s => (.done .ok 0, signalDue (modRing s (.pool c) (fun r => { r with
      vector := BitVec.ofNat 6 (dByte q.d 36), irq := bitAt (dByte q.d 36) 7, modCount := dByte q.d 37,
      modTime := BitVec.ofNat 16 (dW16 q.d 38) })) (.pool c))) s

/-- RING_MODERATE: vector and moderation of a completion or event ring, which signals where its condition is now met (R286,
R296). -/
def execRingModerate (q : Req) (s : State) : Host.Outcome State Fault Refusal :=
  .next (runDesc (.ringModerate q) 0x03 q (ringModerateBody q) s)

/-- The 32 bytes of RING_QUERY (R298). -/
def ringQueryBytes : Option Ring → List Byte
  | none => layout 32 [(0, 1, 0xFF), (6, 2, 0xFFFF), (28, 1, 0xFF)]
  | some r => layout 32 [(0, 1, ringKindCode r.kind), (1, 1, r.log2), (2, 1, r.error.toNat), (3, 1, r.reason.toNat),
      (4, 2, r.word), (6, 2, match r.bound with | some c => c.toNat | none => 0xFFFF), (8, 8, r.base.toNat),
      (16, 4, r.count), (20, 4, r.index.toNat),
      (24, 1, if r.kind == .submission then 0 else r.vector.toNat + 128 * r.irq.toNat),
      (25, 1, if r.kind == .submission then 0 else r.modCount), (26, 2, r.modTime.toNat), (28, 1, r.owner.val)]

def ringQueryBody (q : Req) (s : State) : Reply × State :=
  let c := dW16 q.d 32
  checked [(!ownsContext q c s, .refusedOwnership), (dirty shRingQuery q || short q 32, .badField)]
    (fun s => replyCopy q (ringQueryBytes (mfind s.hif.rings c)) 0 s) s

/-- RING_QUERY: a context as it stands (R298). -/
def execRingQuery (q : Req) (s : State) : Host.Outcome State Fault Refusal :=
  .next (runDesc (.ringQuery q) 0x04 q (ringQueryBody q) s)

/-- Contexts of a range that change hands. -/
def movingContexts (s : State) (first n : Nat) (h : Option HostId) : List Nat :=
  ((List.range n).map (· + first)).filter (fun c => ownerOf s.hif.assign c != h)

def ringAssignBody (q : Req) (s : State) : Reply × State :=
  let hb := dByte q.d 28
  let h : Option HostId := if hb < 8 then some (Fin.ofNat 8 hb) else none
  let first := dW16 q.d 32
  let n := dW32 q.d 36
  let bad := dirty shRingAssign q || (decide (7 < hb) && hb != 0xFF) || decide (n < 1) || decide (65536 < first + n)
  checked [(!isSteward q s, .refusedOwnership), (bad, .badField)]
    (fun s =>
      let moving := movingContexts s first n h
      let live := (s.hif.rings.filter (fun p => decide (first ≤ p.1) && decide (p.1 < first + n))).map (·.1)
      if !live.isEmpty && !bitAt (dByte q.d 29) 0 then (.done .busy 0, s)
      else (.done .ok moving.length,
        modHif (live.foldl forceDelete s) (fun f => { f with assign := (first, n, h) :: f.assign }))) s

/-- RING_ASSIGN: a range of contexts given to a host, or returned. A live ring on any context named makes it BUSY, or is deleted
under FORCE (R292). -/
def execRingAssign (q : Req) (s : State) : Host.Outcome State Fault Refusal :=
  .next (runDesc (.ringAssign q) 0x05 q (ringAssignBody q) s)

def stewardHandoverBody (q : Req) (s : State) : Reply × State :=
  let t := dByte q.d 28
  let x := getHost s t
  checked [(!isSteward q s, .refusedOwnership), (Config.stewardFix.isSome, .locked),
      (dirty shHandover q || t == q.host.val || decide (7 < t), .badField),
      (!x.active || !x.accept, .refusedOwnership)]
    (fun s => (.done .ok 0, post (modHif s (fun f => { f with steward := Fin.ofNat 8 t })) 0x407 4 q.host.val t 0)) s

/-- STEWARD_HANDOVER: the steward role moves (R291). -/
def execStewardHandover (q : Req) (s : State) : Host.Outcome State Fault Refusal :=
  .next (runDesc (.stewardHandover q) 0x06 q (stewardHandoverBody q) s)

/-- State byte of a host (R298). -/
def hostStateByte (x : HostSt) (h : Nat) : Nat :=
  if Config.functionsPerPort ≤ h % 4 then 0 else if !x.active then 1 else if x.quiesced then 3 else 2

/-- Contexts assigned to a host. -/
def assignedTo (s : State) (h : HostId) : Nat :=
  ((List.range 65536).filter (fun c => ownerOf s.hif.assign c == some h)).length

/-- The 64 bytes of HOST_STATUS (R298). -/
def hostStatusBytes (s : State) : List Byte :=
  (List.finRange 8).flatMap (fun (h : HostId) => layout 8 [(0, 1, hostStateByte (getHost s h.val) h.val),
    (1, 1, (s.hif.steward == h).toNat), (4, 4, assignedTo s h)])

def hostStatusBody (q : Req) (s : State) : Reply × State :=
  checked [(dirty shHostStatus q || short q 64, .badField)] (fun s => replyCopy q (hostStatusBytes s) 0 s) s

/-- HOST_STATUS: the eight hosts (R298). -/
def execHostStatus (q : Req) (s : State) : Host.Outcome State Fault Refusal :=
  .next (runDesc (.hostStatus q) 0x07 q (hostStatusBody q) s)

end Sys2Proof.Machine
end

