-- ==== Sys2Proof/Machine/HostCtl.lean ====
section
/-! DEFINITION. Writes to the registers of a host, its end of use, and the FUNCTION and PORT resets
(spec/11_host_rings.md R264, R265, R270, R293, spec/18_electrical_package.md R435). -/

namespace Sys2Proof.Machine

/-! ### EN cleared (R270) -/

/-- EN goes to 0: polling stops, every ring of the host is deleted, and a load that it feeds ends (R270, R345). -/
def disableHost (s : State) (h : HostId) : State :=
  let s1 := deleteHostRings (modHost s h (fun x => { x with en := false })) h
  sourceLost (post s1 0x403 4 h.val 0 0) h

/-- HOST_DISABLE: SET_HOSTCTL.EN goes from 1 to 0 (R270). -/
def execHostDisable (h : HostId) (s : State) : Host.Outcome State Fault Refusal :=
  .next (if (getHost s h).en && hostReach s h then disableHost s h else s)

/-! ### Register writes (R264, R265) -/

/-- SET_ID of a host: DEVICE, STEPPING, HOST, IFVER and TILES (R265). -/
def setId (h : HostId) : Nat := Config.deviceId + 2 ^ 16 * Config.stepping + 2 ^ 20 * h.val + 2 ^ 32 + 2 ^ 40 * 96

/-- SET_STATUS of a host: READY, ACTIVE, STEWARD and QUIESCED (R265). -/
def setStatus (s : State) (h : HostId) : Nat :=
  let x := getHost s h
  s.hif.ready.toNat + 2 * x.active.toNat + 4 * (s.hif.steward == h).toNat + 8 * x.quiesced.toNat

/-- What a 64-bit read of BAR0 at an offset that is a multiple of 8 returns: each register's fields, an MSI-X entry's halves,
the pending bits, and zero at a reserved offset and in a reserved field (R8, R9, R264, R265). -/
def regRead (s : State) (h : HostId) (off : Nat) : Nat :=
  let x := getHost s h
  if off = 0x00 then setId h
  else if off = 0x08 then x.en.toNat + 2 * x.quiesce.toNat + 4 * x.accept.toNat
  else if off = 0x10 then x.sqBase.toNat
  else if off = 0x18 then x.sqSize.toNat
  else if off = 0x20 then x.cqBase.toNat
  else if off = 0x28 then x.cqSize.toNat
  else if off = 0x30 then x.dbRoot.toNat
  else if off = 0x38 then x.poll.toNat + 2 ^ 17 * x.backoffDis.toNat
  else if off = 0x40 then setStatus s h
  else if off = 0x48 then x.fault.toNat + 16 * (s.dev.faultN == .low).toNat
  else if off = 0x50 then x.msixAdmin.toNat
  else if off = 0x58 then x.msixFault.toNat
  else if 0x8000 ≤ off && off < 0x8400 then
    let e := mget MsixEntry.cold x.msix ((off - 0x8000) / 16)
    if off % 16 = 0 then e.addr.toNat else e.data.toNat + 2 ^ 32 * e.ctrl.toNat
  else if off = 0x8400 then x.pba.toNat
  else 0

/-- A read of BAR0 of 64 bits, or of 32 bits at either half of a register (R264). -/
def barRead (s : State) (h : HostId) (off : Nat) (wide : Bool) : Nat :=
  let v := regRead s h (off / 8 * 8)
  if wide then v else if off % 8 = 0 then v % 2 ^ 32 else v / 2 ^ 32

/-- SET_POLL.POLL as it is stored (R265). -/
def pollStored (v : Nat) : BitVec 17 :=
  let n := v % 2 ^ 17
  if n = 0 then 1 else if 131070 < n then 131070 else BitVec.ofNat 17 n

/-- SET_MSIX_ADMIN as it is stored: bit 6 reserved, MOD_COUNT 0 as 1 (R265). -/
def msixAdminStored (v : Nat) : BitVec 32 :=
  let n := v % 2 ^ 32
  let n1 := if bitAt n 6 then n - 2 ^ 6 else n
  BitVec.ofNat 32 (if bitsOf n1 8 8 = 0 then n1 + 2 ^ 8 else n1)

/-- A register of a host takes a 64-bit value; EN and QUIESCE apart. -/
def regStore (x : HostSt) (off v : Nat) : HostSt :=
  if off = 0x08 then { x with accept := bitAt v 2 }
  else if off = 0x10 then { x with sqBase := BitVec.ofNat 64 (v / 64 * 64) }
  else if off = 0x18 then { x with sqSize := BitVec.ofNat 5 v }
  else if off = 0x20 then { x with cqBase := BitVec.ofNat 64 (v / 64 * 64) }
  else if off = 0x28 then { x with cqSize := BitVec.ofNat 5 v }
  else if off = 0x30 then { x with dbRoot := BitVec.ofNat 64 (v / 4096 * 4096) }
  else if off = 0x38 then { x with poll := pollStored v, backoffDis := bitAt v 17 }
  else if off = 0x48 then { x with fault := x.fault &&& ~~~ BitVec.ofNat 4 v }
  else if off = 0x50 then { x with msixAdmin := msixAdminStored v }
  else if off = 0x58 then { x with msixFault := BitVec.ofNat 8 v &&& 0xBF }
  else if 0x8000 ≤ off && off < 0x8400 then
    let k := (off - 0x8000) / 16
    let e := mget MsixEntry.cold x.msix k
    let e1 : MsixEntry := if off % 16 = 0 then { e with addr := BitVec.ofNat 64 (v / 4 * 4) }
      else { e with data := BitVec.ofNat 32 v, ctrl := BitVec.ofNat 32 (bitAt v 32).toNat }
    { x with msix := mset x.msix k e1 }
  else x

/-- An MSI-X vector that is unmasked with its pending bit set signals, and the bit clears (R287). -/
def unmaskVectors (s : State) (h : HostId) : State :=
  (List.range 64).foldl (fun s v =>
    let x := getHost s h
    if x.pba.getLsbD v && !(mget MsixEntry.cold x.msix v).ctrl.getLsbD 0
    then signalVector (modHost s h (fun x => { x with pba := setBit x.pba v false })) h v else s) s

/-- A change of EN or QUIESCE that a write of SET_HOSTCTL makes, each as its own rule has it. -/
def hostControl (s : State) (h : HostId) (v : Nat) : State :=
  let x := getHost s h
  let s1 := if bitAt v 1 == x.quiesce then s
    else if bitAt v 1 then settleQuiesced (modHost s h (fun x => { x with quiesce := true })) h
    else serveRings (settleQuiesced (modHost s h (fun x => { x with quiesce := false })) h) h
  if bitAt v 0 == x.en then s1
  else if bitAt v 0 then
    let s2 := modHost s1 h (fun x => { x with en := true })
    if s2.hif.ready then enableHost s2 h else s2
  else disableHost s1 h

/-- The 64-bit value of a write: one access of 64 bits, or one half beside the other half as it stands; a half of
SET_FAULT that is not written clears nothing. -/
def writeValue (s : State) (h : HostId) (off : Nat) (wide : Bool) (v : Nat) : Nat :=
  let reg := off / 8 * 8
  let old := if reg = 0x48 then 0 else regRead s h reg
  if wide then v
  else if off % 8 = 0 then old / 2 ^ 32 * 2 ^ 32 + v % 2 ^ 32
  else old % 2 ^ 32 + v % 2 ^ 32 * 2 ^ 32

/-- REGISTER_WRITE: a host writes a register, an MSI-X entry or a reserved offset of BAR0; the admin completion ring signals where
its condition is now met (R264, R265, R286). -/
def execRegisterWrite (h : HostId) (offset : Fin 65536) (wide : Bool) (value : BitVec 64) (s : State) :
    Host.Outcome State Fault Refusal :=
  let off := offset.val
  let v := writeValue s h off wide value.toNat
  .next (if !hostReach s h || off % (if wide then 8 else 4) != 0 then s
    else
      let s1 := unmaskVectors (modHost s h (fun x => regStore x (off / 8 * 8) v)) h
      if off / 8 = 1 then hostControl s1 h v else if off / 8 = 10 then signalDue s1 (.adminCq h) else s1)

/-! ### FUNCTION and PORT resets (R293, R345) -/

/-- One host reset; code 1 FUNCTION, 2 PORT. -/
def resetHost (code : Nat) (s : State) (h : HostId) : State :=
  let s1 := sourceLost (deleteHostRings s h) h
  post (setHost s1 h HostSt.cold) 0x403 4 h.val code 0

/-- FUNCTION_RESET: a function-level reset of one host (R293, R431). -/
def execFunctionReset (h : HostId) (s : State) : Host.Outcome State Fault Refusal :=
  .next (if !hostReach s h then s else post (resetHost 1 s h) 0x001 0 4 h.val 0)

/-- A PORT reset: the four hosts of the port (R262, R293). -/
def portReset (s : State) (portB : Bool) : State :=
  let first := if portB then 4 else 0
  post ((List.range 4).foldl (fun s i => resetHost 2 s (Fin.ofNat 8 (first + i))) s) 0x001 0 3 0xFF 0

/-- PORT_RESET: a PCIe hot reset, link down or PERST_N of a port (R293, R426). -/
def execPortReset (portB : Bool) (s : State) : Host.Outcome State Fault Refusal :=
  .next (if hostReach s (if portB then 4 else 0) then portReset s portB else s)

/-- SERDES_SUPPLY_LOSS: VSD_L or VSD_H leaves its range, and links that were up go down (R435). -/
def execSerdesSupplyLoss (s : State) : Host.Outcome State Fault Refusal :=
  let s1 := modDev s (fun d => { d with vsd := false })
  .next (if !s.dev.vsd then s
    else if s.dev.inReset != .none || s.dev.pcieA != .on then s1
    else linkLost (portReset (portReset s1 false) true) 1)

/-- SERDES_SUPPLY_RETURN: both supplies are back, and the ports may train again (R435). -/
def execSerdesSupplyReturn (s : State) : Host.Outcome State Fault Refusal :=
  .next (modDev s (fun d => { d with vsd := true }))

end Sys2Proof.Machine
end

