-- ==== Sys2Proof/Machine/Journal.lean ====
section
/-! DEFINITION. Journal, checkpoints and replay: the descriptors 0x90 to 0x97 and the end of a checkpoint's drain
(spec/15_replay.md). -/

namespace Sys2Proof.Machine

/-! ### JNL_CONTROL, JNL_MARK, JNL_CHECKPOINT (R390, R398) -/

def shJnlControl : Shape := (shapeOf caseBits false false false [(29, 2)]).withBits [(28, 1)]
def shJnlMark : Shape := shapeOf caseBits false false false [(32, 8)]

/-- The settings out of their ranges. -/
def badControl (q : Req) : Bool :=
  let l := dByte q.d 29
  let g := dByte q.d 30
  dirty shJnlControl q || (l != 0 && (decide (l < 10) || decide (40 < l))) || (g != 0xFF && decide (20 < g))

def jnlControlBody (q : Req) (s : State) : Reply × State :=
  checked (r59 q .poke none true s ++ [(badControl q, .badField)])
    (fun s => (.later, modJnlCase (markChanged s (dCase q.d).val) (dCase q.d) (fun j => { j with control := j.control ++ [q] }))) s

/-- JNL_CONTROL: journal settings from the next release on (R398). -/
def execJnlControl (q : Req) (s : State) : Host.Outcome State Fault Refusal :=
  .next (runDesc (.jnlControl q) 0x90 q (jnlControlBody q) s)

/-- The named casement is journalled. -/
def journalled (q : Req) (s : State) : Bool := match getCase s (dCase q.d) with
  | some k => jnlOn k
  | none => false

/-- A JNL_CHECKPOINT of the casement waits or is drained. -/
def ckptAsked (q : Req) (s : State) : Bool := match getCase s (dCase q.d) with
  | some k => k.jnl.asked.isSome
  | none => false

def jnlCheckpointBody (q : Req) (s : State) : Reply × State :=
  checked (r59 q .poke none true s ++ [(dirty shCaseOnly q || !journalled q s, .badField), (ckptAsked q s, .busy)])
    (fun s => (.later, modJnlCase s (dCase q.d) (fun j => { j with asked := some q }))) s

/-- JNL_CHECKPOINT: a checkpoint at the next lintel (R390, R398). -/
def execJnlCheckpoint (q : Req) (s : State) : Host.Outcome State Fault Refusal :=
  .next (runDesc (.jnlCheckpoint q) 0x94 q (jnlCheckpointBody q) s)

def jnlMarkBody (q : Req) (s : State) : Reply × State :=
  checked (r59 q .poke none true s ++ [(dirty shJnlMark q || !journalled q s, .badField)])
    (fun s => (.later, modJnlCase s (dCase q.d) (fun j => { j with marks := j.marks ++ [q] }))) s

/-- JNL_MARK: a MARK record at the next release (R383, R398). -/
def execJnlMark (q : Req) (s : State) : Host.Outcome State Fault Refusal :=
  .next (runDesc (.jnlMark q) 0x95 q (jnlMarkBody q) s)

/-! ### The end of a drain (R387, R390, R391) -/

/-- The state of a unit that the drain sends. -/
def drainSnap (s : State) (k : Casement) (t : Nat) : Snap := ((getTile s t).bp.ckptBank).getD (snapOf (getTile s t) k.depth)

/-- CKPT_DATA of every unit, CKPT_END and JNL_CKPT_DONE. A drain that a full window cuts is left for the resumption to
abandon. -/
def drainEnd (s : State) (c : Nat) : State := match getCase s c with
  | none => s
  | some k => match k.jnl.drain with
    | none => s
    | some (n, num, q) =>
      if s.jnl.stopped || k.jnl.gapFrom.isSome then s
      else
        let s1 := (jnlUnits k s).foldl (fun s u => jnlRecord s c 0x0B n.toNat
          (leBytes 1 u.1 ++ leBytes 3 0 ++ leBytes 4 num ++ snapBytes (drainSnap s k u.2))) s
        let s2 := jnlRecord s1 c 0x0C n.toNat (leBytes 4 num ++ leBytes 4 0)
        if s2.jnl.stopped then s2
        else
          let s3 := modTiles (modJnlCase s2 c (fun j => { j with drain := none })) (tilesOf k.region)
            (fun _ x => { x with bp := { x.bp with ckptBank := none } })
          let s4 := post s3 0xA02 3 c 0 num
          match q with
          | some q => complete q .ok n.toNat s4
          | none => s4

/-- CHECKPOINT_DRAIN_DONE: the drain of a casement's checkpoint is over (R391). -/
def execCheckpointDrainDone (c : CaseId) (s : State) : Host.Outcome State Fault Refusal := .next (drainEnd s c.val)

/-! ### JNL_EXPORT, JNL_READ, JNL_STATUS (R386, R388, R398) -/

def shJnlExport : Shape := shapeOf 0 false false false [(28, 1)]
def shJnlRead : Shape := (shapeOf 0 true false true [(32, 8)]).withBits [(29, 1)]
def shJnlStatus : Shape := shapeOf 0 true false true []

/-- The mode is set; exporting begins at head (assumption 24). -/
def setExport (mode : Nat) (s : State) : State :=
  let start := if s.jnl.mode = 0 || mode = 0 then s.jnl.head else s.jnl.export_
  let s1 := modJnl s (fun j => { j with mode := mode, export_ := start })
  if mode = 1 && s.jnl.mode != 1 then modBsp s1 (fun b => { b with jnlNext := start }) else s1

def jnlExportBody (q : Req) (s : State) : Reply × State :=
  checked [(!isSteward q s, .refusedOwnership), (dirty shJnlExport q || decide (2 < dByte q.d 28), .badField)]
    (fun s => (.done .ok s.jnl.head.toNat, setExport (dByte q.d 28) s)) s

/-- JNL_EXPORT: the export mode of the device (R386). -/
def execJnlExport (q : Req) (s : State) : Host.Outcome State Fault Refusal :=
  .next (runDesc (.jnlExport q) 0x91 q (jnlExportBody q) s)

/-- Bytes that JNL_READ copies: cut short at head. -/
def readCount (q : Req) (s : State) : Nat := min q.d.length.toNat (s.jnl.head.toNat - dW64 q.d 32)

/-- The copy, and the advance of the export pointer in mode 2. -/
def readJournal (q : Req) (s : State) : Reply × State :=
  let off := dW64 q.d 32
  let n := readCount q s
  if off < jnlOldest s.jnl then (.done .overrun (jnlOldest s.jnl), s)
  else
    let r := replyCopy q (jnlGet s.jnl off n) n s
    if q.io.bufOk && bitAt (dByte q.d 29) 0 && s.jnl.mode == 2
    then (r.1, modJnl r.2 (fun j => { j with export_ := BitVec.ofNat 64 (max j.export_.toNat (off + n)) })) else r

def jnlReadBody (q : Req) (s : State) : Reply × State :=
  checked [(!isSteward q s, .refusedOwnership), (dirty shJnlRead q, .badField)] (readJournal q) s

/-- JNL_READ: a range of the journal (R388). -/
def execJnlRead (q : Req) (s : State) : Host.Outcome State Fault Refusal :=
  .next (runDesc (.jnlRead q) 0x92 q (jnlReadBody q) s)

/-- The 64 bytes of JNL_STATUS. -/
def jnlStatusBytes (s : State) : List Byte :=
  let j := s.jnl
  let on := s.cases.foldl (fun m p => if jnlOn p.2 then m + 2 ^ p.1 else m) 0
  layout 64 [(0, 8, j.head.toNat), (8, 8, jnlOldest j), (16, 8, j.export_.toNat), (24, 1, j.mode), (28, 4, on), (32, 4, j.gaps),
    (36, 4, j.skipped), (40, 4, j.abandoned)]

def jnlStatusBody (q : Req) (s : State) : Reply × State :=
  checked [(dirty shJnlStatus q || short q 64, .badField)] (fun s => replyCopy q (jnlStatusBytes s) 0 s) s

/-- JNL_STATUS: the state of the journal engine (R398). -/
def execJnlStatus (q : Req) (s : State) : Host.Outcome State Fault Refusal :=
  .next (runDesc (.jnlStatus q) 0x93 q (jnlStatusBody q) s)

/-! ### JNL_SHADOW (R396) -/

def shJnlShadow : Shape := shapeOf caseBits true true false [(28, 3), (32, 4)]

/-- The tile map: image tile index and spare, for the used entries. -/
def shadowMap (q : Req) : Map Nat :=
  ((List.range 96).filter (fun k => byteAt q.io.dataB k != 0xFF)).map (fun k => (k, byteAt q.io.dataB k))

/-- The source casement runs an image. -/
def shadowSource (q : Req) (s : State) : Option Casement := match getCase s (dByte q.d 29) with
  | some k => if dByte q.d 29 < 32 && !k.tileOf.isEmpty && k.st != .loading && k.st != .failed && k.st != .empty then some k else none
  | none => none

/-- A map that names no spare, one twice, a tile that does not exist or an index that the image does not have. -/
def badShadowMap (q : Req) (s : State) : Bool :=
  let m := shadowMap q
  m.isEmpty || m.any (fun p => decide (95 < p.2) || (m.filter (fun o => o.2 == p.2)).length != 1 ||
    (match shadowSource q s with | some k => (mfind k.tileOf p.1).isNone | none => true))

/-- The roles that the shadow takes. -/
def shadowRoles (q : Req) (s : State) : List Nat :=
  (List.range (rolesOfCase s (dByte q.d 29)).length).map (fun i => dByte q.d 30 + i)

def badShadow (q : Req) (s : State) : Bool :=
  dirty shJnlShadow q || badSource q false || (shadowSource q s).isNone || decide (239 < dByte q.d 30) ||
    (shadowRoles q s).any (fun r => decide (239 < r))

/-- Shadow creation begins: the spares power up cleared, and the image is asked for. -/
def beginShadow (q : Req) (s : State) : State :=
  let m := shadowMap q
  let s1 := (m.map (·.2)).foldl (fun s t => takeTile s (fun _ => List.range 18) t) s
  let p : Shadow := { req := q, case_ := dCase q.d, source := Fin.ofNat 32 (dByte q.d 29), base := dByte q.d 30, map := m }
  settleFabric s (modLoad (modHub s1 (fun h => { h with shadow := some p })) (fun l => { loaderIdle l with
    phase := .pass1, purpose := .shadow, req := some q, case_ := Fin.ofNat 32 (dByte q.d 29), fromBsp := dByte q.d 28 == 1 }))

/-- The tile map read, and what it is checked for. -/
def shadowChecks (q : Req) (s : State) : Reply × State :=
  if !q.io.bufOk then (.dma, s)
  else checked [(badShadowMap q s, .badField), ((getCase s (dCase q.d)).isSome, .conflict),
    ((shadowMap q).any (fun p => !inPool s p.2), .regionViolation),
    ((shadowRoles q s).any (fun r => rtState (roleEntry (hubBank s) r) != 0), .conflict), (placementBusy s, .busy)]
    (fun s => (.later, beginShadow q s)) s

def jnlShadowBody (q : Req) (s : State) : Reply × State :=
  checked [(!isSteward q s, .refusedOwnership), (badShadow q s, .badField)] (shadowChecks q) s

/-- JNL_SHADOW: an isolated casement from spare tiles (R396). -/
def execJnlShadow (q : Req) (s : State) : Host.Outcome State Fault Refusal :=
  .next (runDesc (.jnlShadow q) 0x96 q (jnlShadowBody q) s)

/-! ### JNL_REPLAY (R392 to R395) -/

def shJnlReplay : Shape := shapeOf caseBits true true false [(28, 1), (32, 20)]

/-- A checkpoint found in a journal. -/
structure Found where
  /-- journal casement, cycle, offset of the record after CKPT_BEGIN, and bits [63:32] of the cycles there -/
  jcase : Nat
  n : Nat
  next : Nat
  hi : Nat
  /-- the LOAD before it: first bytes of the digest, and tile count -/
  load : Option (List Byte × Nat)
  /-- its state, by image tile index -/
  snaps : Map Snap
  /-- CKPT_END: abandoned or not -/
  ended : Option Bool
  deriving DecidableEq, Repr

/-- What a search of the journal has met: the LOADs by casement, and the checkpoints of the number asked for. -/
structure Search where
  loads : Map (List Byte × Nat)
  found : List Found
  deriving DecidableEq, Repr

/-- A checkpoint of a casement that has not ended takes what a record brings. -/
def inFound (c : Nat) (f : Found → Found) (l : List Found) : List Found :=
  l.map (fun p => if p.jcase = c && p.ended.isNone then f p else p)

/-- A record taken into the search for checkpoint `num`. -/
def searchRec (s : State) (r : Replay) (num ty c len : Nat) (a : Search) : Search :=
  let b := recBody s r len
  if ty = 0x02 then { a with loads := mset a.loads c (b.take 16, byteAt b 16) }
  else if ty = 0x0A && fieldAt b 8 4 = num then
    let f : Found := { jcase := c, n := fieldAt b 0 8, next := r.offset + len, hi := fieldAt b 0 8 / 2 ^ 32,
                       load := mfind a.loads c, snaps := [], ended := none }
    { a with found := a.found ++ [f] }
  else if ty = 0x0B && fieldAt b 4 4 = num then
    { a with found := inFound c (fun p => { p with snaps := mset p.snaps (byteAt b 0) (parseSnap (b.drop 8)) }) a.found }
  else if ty = 0x0C && fieldAt b 0 4 = num then
    { a with found := inFound c (fun p => { p with ended := some (bitAt (byteAt b 4) 0) }) a.found }
  else a

/-- The journal searched from the replay's offset on. -/
def searchJournal (s : State) (num : Nat) : Nat → Replay → Search → Search
  | 0, _, a => a
  | f + 1, r, a => match nextRec s r with
    | .rec_ ty c _ len => searchJournal s num f (skipRec r len) (searchRec s r num ty c len a)
    | .ended | .lost | .bad => a

/-- The checkpoint may be replayed: ended, not abandoned, and preceded by a LOAD (R392). -/
def wholeCkpt (p : Found) : Bool := p.ended == some false && p.load.isSome

/-- The LOAD is of the image that loaded the casement. -/
def sameImage (k : Casement) (p : Found) : Bool := p.load == some (padTo 16 (k.digest.take 16), k.tileOf.length)

/-- The checkpoint taken among those of the number: one of the casement's image first. -/
def chooseCkpt (k : Casement) (a : Search) : Option Found := match a.found.find? (fun p => wholeCkpt p && sameImage k p) with
  | some p => some p
  | none => a.found.find? wholeCkpt

/-- A replay at the start of its journal. -/
def newReplay (q : Req) : Replay :=
  { req := q, host := if dByte q.d 28 = 1 then some q.io.dataA else none, offset := if dByte q.d 28 = 1 then 0 else dW64 q.d 32,
    endCycle := BitVec.ofNat 64 (dW64 q.d 40), jcase := 0, hi := 0, ins := [], outs := [], now := [], ckpt := 0, snaps := [],
    found := none }

/-- Fields of JNL_REPLAY. -/
def badReplayFields (q : Req) : Bool :=
  dirty shJnlReplay q || decide (1 < dByte q.d 28) ||
    (if dByte q.d 28 = 1 then dW64 q.d 32 == 0 || decide (65536 < dW64 q.d 32) else q.d.addrA != 0)

/-- A tile takes the checkpoint's state, between the close of cycle n - 1 and the release of cycle n (R394). -/
def loadSnap (z : Snap) (n : Nat) (x : Tile) : Tile :=
  { x with bp := { restoreSnap x.bp z with inB := z.inRef },
           cyc := { x.cyc with phase := .closed, cycle := BitVec.ofNat 64 (n + 2 ^ 64 - 1), closeSig := false, bundles := [],
                               held := [], passed := [], landed := [] },
           an := { x.an with cut := true } }

/-- The snapshot that a tile takes: that of its image tile index, or of its pair's lower index. -/
def snapFor (s : State) (k : Casement) (p : Found) (t : Nat) : Snap :=
  let idx := ((jnlUnits k s).find? (fun u => u.2 = t || partnerOf s u.2 == some t)).map (·.1)
  (idx.bind (fun i => mfind p.snaps i)).getD Snap.empty

/-- Replay begins: the casement is isolated and takes the state, and releases go on from cycle n (R393, R394). Where the
journal holds no cycle n, it ends at once; the last cycle replayed is then open (assumption 27). -/
def beginReplay (q : Req) (p : Found) (k : Casement) (s : State) : State :=
  let c := (dCase q.d).val
  let r : Replay := { newReplay q with
    offset := p.next, jcase := p.jcase, hi := p.hi,
    ins := if p.n = 0 then [] else p.snaps.map (fun z => (z.1, z.2.inRef)),
    outs := if p.n = 0 then [] else p.snaps.map (fun z => (z.1, z.2.outB)) }
  let s1 := modTiles s (tilesOf k.region) (fun t x => loadSnap (snapFor s k p t) p.n x)
  let s2 := wakeRouters (modCase s1 c (fun k => { k with
    st := if k.pwr == .run then .running else .paused, pwrFrom := .running, halt := false, isolated := true, replay := some r,
    chan := { k.chan with closeDone := p.n, releaseDone := p.n, arrived := 0, done := 0 } }))
  let s3 := settleFabric s (settleTins s2)
  match cycleAhead (replayFuel s3 r) s3 r p.n with
  | none => s3
  | some kind =>
    let d := drawNat s3 34
    replayEnd d.2 c r d.1 (plainReport kind (d.1 % 2 ^ 64) r.offset)

/-- The checks of R392 on the journal, and the replay. -/
def replayChecks (q : Req) (s : State) : Reply × State :=
  match getCase s (dCase q.d) with
  | none => (.done .badField 0, s)
  | some k =>
    if !q.io.bufOk then (.dma, s)
    else
      let r := newReplay q
      match chooseCkpt k (searchJournal s (dW32 q.d 48) (replayFuel s r) r { loads := [], found := [] }) with
      | none => (.done .badField 0, s)
      | some p =>
        checked [(!sameImage k p, .authFail), (decide (dW64 q.d 40 < p.n), .badField)] (fun s => (.later, beginReplay q p k s)) s

def jnlReplayBody (q : Req) (s : State) : Reply × State :=
  checked (r59 q .poke none true s ++ [(badReplayFields q || caseState q s != some .paused, .badField)]) (replayChecks q) s

/-- JNL_REPLAY: a casement runs from a checkpoint against a journal (R392 to R395). -/
def execJnlReplay (q : Req) (s : State) : Host.Outcome State Fault Refusal :=
  .next (runDesc (.jnlReplay q) 0x97 q (jnlReplayBody q) s)

end Sys2Proof.Machine
end

