-- ==== Sys2Proof/Machine/Network.lean ====
section
/-! DEFINITION. The network: packets and flits, bounces, epoch changes, shutters, probes, and the descriptors 0xB0 to
0xB3 (spec/10_network.md). -/

namespace Sys2Proof.Machine

/-! ### Packets -/

/-- PACKET_INJECT: a packet offered at a router's local port is checked against its sender's entry and enters the
network in the epoch in force, or is dropped (R249, R250, R255). -/
def execPacketInject (t : TileId) (p : Packet) (s : State) : Host.Outcome State Fault Refusal :=
  let s0 := modNet s t.val (fun r => { r with injectQ := r.injectQ.erase p })
  let q := stampEpoch (getTile s t.val).net p
  .next (if (getTile s t.val).dom.tk != .on then s
    else if !senderOk s0 t.val q.hdr then staleDrop s0 t.val q.hdr
    else routerSettle (enterPacket s0 t.val 5 q) t.val)

/-- A good flit from a service: with its last flit the packet enters. The service sends none while flits of an earlier packet of
its VC wait for room, since it then holds no credit (R241). -/
def takeService (s : State) (t : Nat) (f : Flit) : State :=
  let r := (getTile s t).net
  let fs := mget [] r.svcIn f.vc.val ++ [f]
  let s1 := modNet s t (fun r => { r with crcFails := mdel r.crcFails 4 })
  if !(mget [] r.entering (4 + f.vc.val)).isEmpty then s
  else if !f.last then modNet s1 t (fun r => { r with svcIn := mset r.svcIn f.vc.val fs })
  else
    let p : Packet := { hdr := (fs.headD f).hdr, data := fs.flatMap (·.data) }
    let s2 := modNet s1 t (fun r => { r with svcIn := mdel r.svcIn f.vc.val, svcQ := r.svcQ.erase p })
    routerSettle (enterPacket s2 t 4 (stampEpoch r p)) t

/-- A flit whose CRC fails is asked for again; the third failure in succession takes the link down (R244). -/
def badFlit (s : State) (t port key : Nat) : State :=
  let n := (mget (0, 0) (getTile s t).net.crcFails port).1
  if n < 2 then modNet s t (fun r => { r with replays := bump r.replays, crcFails := mset r.crcFails port (n + 1, key) })
  else linkDown s t port

/-- FLIT_RECEIVE: a flit arrives over a link, the one that the router at its other end sends next, or from a service; its CRC is
checked, and its packet is routed, copied, delivered, bounced or dropped (R236 to R256). Nothing arrives over a link that is down,
or while the other router has nothing to send. -/
def execFlitReceive (t : TileId) (src : FlitFrom) (crcGood : Bool) (s : State) : Host.Outcome State Fault Refusal :=
  let x := getTile s t.val
  .next (match src with
    | .service f =>
      if x.dom.tk != .on || !hasService t.val || x.net.down.getLsbD 4 then s
      else if crcGood then takeService s t.val f else badFlit s t.val 4 0
    | .link p =>
      if x.dom.tk != .on || (getTile s (neighbour t.val p.val)).dom.tk != .on || x.net.down.getLsbD p.val then s
      else match arriving s t.val p.val with
        | none => s
        | some c => if crcGood then crossLink s t.val p.val c else badFlit s t.val p.val c.key)

/-- The bytes that an endpoint keeps of a packet that it sent, as long as the header says, begin as the BOUNCE shows them. -/
def keptOk (h : BitVec 64) (p : Packet) (kept : List Byte) : Bool :=
  kept.length == 64 * (hdrLen h + 1) && kept.take 48 == slice p.data 16 48

/-- BOUNCE: a service endpoint sends the descriptor's packet again with the hinted tenure, once, as it kept it; a second
ROLE_MOVED, or SHUTTERED, completes the descriptor (R255, R279). Any other sender takes the bounce without more. -/
def execBounce (t : TileId) (p : Packet) (q : Option Req) (kept : List Byte) (s : State) : Host.Outcome State Fault Refusal :=
  let st := byteAt p.data 0
  let h := BitVec.ofNat 64 (fieldAt p.data 8 8)
  .next (if hdrType p.hdr != 0x26 then s
    else match q with
      | none => s
      | some q =>
        if st = statusCode .shuttered then complete q .shuttered 0 s
        else if st = statusCode .roleMoved then
          if s.hif.retried.contains q.seq then complete q .roleMoved 0 s
          else if !keptOk h p kept then s
          else
            let h2 := BitVec.ofNat 64 (h.toNat - hdrDstTenure h * 2 ^ 8 + fieldAt p.data 4 2 * 2 ^ 8)
            let s1 := modHif s (fun f => { f with retried := q.seq :: f.retried })
            modNet s1 t.val (fun r => { r with svcQ := r.svcQ ++ [{ hdr := h2, data := kept }] })
        else s)

/-! ### Epoch changes (R251) -/

/-- ROLE_UPDATE: a router writes the new table into its inactive bank and acknowledges (R245, R251 step 1). -/
def execRoleUpdate (t : TileId) (s : State) : Host.Outcome State Fault Refusal :=
  .next (match s.hub.epoch with
    | some e =>
      if e.stage == .updating && !e.written.getLsbD t.val && (getTile s t.val).dom.tk == .on then
        modEpoch (modNet s t.val (fun r => if e.newEpoch then { r with bank1 := e.bank } else { r with bank0 := e.bank }))
          (fun e => { e with written := setBit e.written t.val true })
      else s
    | none => s)

/-- ROLE_UPDATE_ACK: the hub receives an acknowledgement and, after the last, sends EPOCH_SWITCH (R251 step 2). -/
def execRoleUpdateAck (t : TileId) (s : State) : Host.Outcome State Fault Refusal :=
  .next (match s.hub.epoch with
    | some e =>
      if e.stage == .updating && e.written.getLsbD t.val && !e.acked.getLsbD t.val then
        epochSettle (modEpoch s (fun e => { e with acked := setBit e.acked t.val true }))
      else s
    | none => s)

/-- EPOCH_SWITCH: a router flips its service epoch, and its VC0 epoch where its casement does not step (R251 step 3,
R253). -/
def execEpochSwitch (t : TileId) (s : State) : Host.Outcome State Fault Refusal :=
  .next (match s.hub.epoch with
    | some e =>
      if e.stage == .switching && !e.switched.getLsbD t.val && (getTile s t.val).dom.tk == .on then
        epochSettle (modEpoch (modNet s t.val (fun r => { r with svcEpoch := e.newEpoch }))
          (fun e => { e with switched := setBit e.switched t.val true }))
      else s
    | none => s)

/-- EPOCH_SWITCH_ACK: the hub receives the acknowledgement; a HOLD for it ends with the last of its casement (R251). -/
def execEpochSwitchAck (t : TileId) (s : State) : Host.Outcome State Fault Refusal :=
  .next (match s.hub.epoch with
    | some e =>
      if e.stage == .switching && e.switched.getLsbD t.val && !e.switchAcked.getLsbD t.val then
        let s1 := modEpoch s (fun e => { e with switchAcked := setBit e.switchAcked t.val true })
        let s2 := { s1 with cases := mmap (fun _ k =>
          if k.chan.epochHold && caseAcked s1 k then { k with chan := { k.chan with epochHold := false } } else k) s1.cases }
        epochSettle s2
      else s
    | none => s)

/-- DRAIN_QUERY: a router reports what it has injected and ejected in the old epoch (R251 step 5). -/
def execDrainQuery (t : TileId) (s : State) : Host.Outcome State Fault Refusal :=
  .next (match s.hub.epoch with
    | some e =>
      let r := (getTile s t.val).net
      if e.stage == .draining && (mfind e.reports t.val).isNone && (getTile s t.val).dom.tk == .on then
        let n := if e.newEpoch then (r.injected0, r.ejected0) else (r.injected1, r.ejected1)
        modEpoch s (fun e => { e with reports := mset e.reports t.val n })
      else s
    | none => s)

/-- DRAIN_REPORT: the hub receives a report; with all of them, equal totals end the change, and unequal ones make it
ask again (R251 step 6). -/
def execDrainReport (t : TileId) (s : State) : Host.Outcome State Fault Refusal :=
  .next (match s.hub.epoch with
    | some e =>
      if e.stage == .draining && (mfind e.reports t.val).isSome && !e.asked.getLsbD t.val then
        let e1 := { e with asked := setBit e.asked t.val true }
        let s1 := modHub s (fun h => { h with epoch := some e1 })
        if allIn (poweredRouters s) e1.asked then
          (if reportsEqual e1 then epochDrained s1 e1 else modEpoch s1 (fun e => { e with reports := [], asked := 0 }))
        else s1
      else s
    | none => s)

/-! ### Shutters (R256, R257) -/

/-- Tile of a service port. -/
def svcTile (p : Fin 4) : Nat := match p with
  | 0 => 0
  | 1 => 11
  | 2 => 84
  | 3 => 95

/-- State of a shutter. -/
def getShut (s : State) : ShutterId → Shut
  | .tile t => (getTile s t.val).net.shut
  | .service p => (getTile s (svcTile p)).net.svcShut

/-- A shutter in a new state, with no stall posted. -/
def setShut (s : State) (i : ShutterId) (x : Shut) : State := match i with
  | .tile t => modNet s t.val (fun r => { r with shut := x, stalled := false })
  | .service p => modNet s (svcTile p) (fun r => { r with svcShut := x, svcStalled := false })

/-- Number of a shutter: its tile, or 96 plus the service port's index (R260). -/
def shutNum : ShutterId → Nat
  | .tile t => t.val
  | .service p => 96 + p.val

/-- SHUTTER: a close or an open arrives from the service hub (R256). -/
def execShutter (i : ShutterId) (op : ShutterOp) (s : State) : Host.Outcome State Fault Refusal :=
  .next (match op, getShut s i with
    | .close, .open_ => setShut s i .closing
    | .open_, .shut => setShut s i .opening
    | _, _ => s)

/-- A SHUTTER_ACK sets out for the hub. -/
def sendAck (s : State) (i : ShutterId) : State := modHub s (fun h => { h with acks := setBit h.acks (shutNum i) true })

/-- The fence of a shutter holds (R257). -/
def shutterFence (s : State) : ShutterId → Bool
  | .tile t => fenceHolds (getTile s t.val)
  | .service p =>
    let r := (getTile s (svcTile p)).net
    r.svcQ.isEmpty && r.svcIn.isEmpty && !r.entering.any (fun e => 4 ≤ e.1 && e.1 < 8) && !r.queues.any (fun q => q.1 / 8 == 4) &&
      !ejecting r true

/-- SHUTTER_FENCE_HOLDS: queues empty and accepted work complete, a CLOSING shutter goes to SHUT (R256, R257). -/
def execShutterFenceHolds (i : ShutterId) (s : State) : Host.Outcome State Fault Refusal :=
  .next (if getShut s i == .closing && shutterFence s i then sendAck (setShut s i .shut) i else s)

/-- TC_READY: the tile controller reports ready, and an OPENING shutter goes to OPEN (R256). -/
def execTcReady (i : ShutterId) (s : State) : Host.Outcome State Fault Refusal :=
  .next (if getShut s i == .opening then sendAck (setShut s i .open_) i else s)

/-- SHUTTER_ACK: the hub receives a shutter's acknowledgement; the command that moved the shutter goes on with the
last one that it waits for (R256, R338). -/
def execShutterAck (i : ShutterId) (s : State) : Host.Outcome State Fault Refusal :=
  .next (modHub s (fun h => { h with acks := setBit h.acks (shutNum i) false }))

/-- The tile whose router keeps a shutter. -/
def shutTile : ShutterId → Nat
  | .tile t => t.val
  | .service p => svcTile p

/-- SHUTTER_STALLED: a shutter has been CLOSING for more than 1 ms; posted once (R257). -/
def execShutterStalled (i : ShutterId) (s : State) : Host.Outcome State Fault Refusal :=
  let done := match i with
    | .tile t => (getTile s t.val).net.stalled
    | .service p => (getTile s (svcTile p)).net.svcStalled
  let mark := match i with
    | .tile t => modNet s t.val (fun r => { r with stalled := true })
    | .service p => modNet s (svcTile p) (fun r => { r with svcStalled := true })
  .next (if getShut s i == .closing && !done then postTile mark (shutTile i) 0x306 2 (shutNum i) 0 0 else s)

/-! ### Probes (R258) -/

/-- Target router of a network descriptor. -/
def netTile (q : Req) : Nat := bitsOf q.d.target.toNat 0 7

/-- PROBE: a router receives a PROBE and returns a PROBE_REPLY to the tile that sent it (R258). -/
def execProbe (t : TileId) (p : Packet) (s : State) : Host.Outcome State Fault Refusal :=
  let r := (getTile s t.val).net
  .next (if hdrType p.hdr = 0x27 && hdrDst p.hdr = t.val && (getTile s t.val).dom.tk == .on then
    modNet s t.val (fun r => { r with injectQ := r.injectQ ++ [mkPacket 0x28 r.svcEpoch 3 t.val 255 0
      (hdrSrcTenure p.hdr % 128) (p.data.take 64)] })
    else if r.localSt == .retired then s else s)

/-- Number that ties a reply to its NET_PROBE: the descriptor's number, in the first 8 data bytes. -/
def probeData (q : Req) : List Byte := leBytes 8 q.seq

/-- PROBE_REPLY: the reply reaches the router that sent the PROBE, and NET_PROBE completes with the round trip and the
hops of the way out (R258). -/
def execProbeReply (p : Packet) (cycles : BitVec 32) (s : State) : Host.Outcome State Fault Refusal :=
  .next (match s.hub.probes.find? (fun q => q.seq = fieldAt p.data 0 8) with
    | some q =>
      if hdrType p.hdr != 0x28 then s
      else complete q .ok (cycles.toNat + 2 ^ 32 * hopsTo (hubBank s) (dByte q.d 28) 18 (netTile q))
        (modHub s (fun h => { h with probes := h.probes.erase q }))
    | none => s)

/-- NET_PROBE_TIMEOUT: 1 ms has passed since the oldest outstanding PROBE (R258). -/
def execNetProbeTimeout (s : State) : Host.Outcome State Fault Refusal :=
  .next (match s.hub.probes with
    | q :: rest => complete q .busy 0 (modHub s (fun h => { h with probes := rest }))
    | [] => s)

/-! ### Descriptors -/

def netShape (a len : Bool) (runs : List (Nat × Nat)) : Shape := shapeOf 0x7F a false len runs

/-- The target is no tile. -/
def badTarget (q : Req) : Bool := decide (95 < netTile q)

def netBusy (q : Req) (s : State) : Bool := (getTile s (netTile q)).ctl.restarting

/-- The 64 bytes of NET_ROUTER_STATUS (R259). -/
def routerStatusBytes (s : State) (t : Nat) : List Byte :=
  let r := (getTile s t).net
  layout 64 [(0, 1, shutCode r.shut), (1, 1, localCode r.localSt),
    (2, 1, r.vc0Epoch.toNat + 2 * r.svcEpoch.toNat + 4 * s.hub.epoch.isSome.toNat), (3, 1, r.down.toNat),
    (4, 4, r.replays), (8, 4, r.stale), (12, 4, r.drops), (16, 4, r.bouncedShut), (20, 4, r.bouncedMoved),
    (24, 4, r.absorbed), (28, 4, r.injected0.toNat), (32, 4, r.injected1.toNat), (36, 4, r.ejected0.toNat),
    (40, 4, r.ejected1.toNat), (44, 1, r.peak)]

def shRouterStatus : Shape := (netShape true true []).withBits [(29, 1)]

def netRouterStatusBody (q : Req) (s : State) : Reply × State :=
  let t := netTile q
  checked [(bitAt (dByte q.d 29) 0 && !isSteward q s, .refusedOwnership),
      (dirty shRouterStatus q || badTarget q || short q 64, .badField), (netBusy q s, .busy)]
    (fun s =>
      let r := replyCopy q (routerStatusBytes s t) 0 s
      if q.io.bufOk && bitAt (dByte q.d 29) 0 then
        (r.1, modNet r.2 t (fun r => { r with
          replays := 0, stale := 0, drops := 0, bouncedShut := 0, bouncedMoved := 0, absorbed := 0, peak := 0 }))
      else r) s

/-- NET_ROUTER_STATUS: state and counts of a router (R259). -/
def execNetRouterStatus (q : Req) (s : State) : Host.Outcome State Fault Refusal :=
  .next (runDesc (.netRouterStatus q) 0xB0 q (netRouterStatusBody q) s)

def shRoleRead : Shape := netShape true true [(29, 1), (30, 1), (32, 2)]

def netRoleReadBody (q : Req) (s : State) : Reply × State :=
  let first := dByte q.d 30
  let n := dW16 q.d 32
  checked [(dirty shRoleRead q || badTarget q || decide (1 < dByte q.d 29) || decide (n < 1) || decide (256 < first + n) ||
      short q (8 * n), .badField), (netBusy q s, .busy)]
    (fun s =>
      let b := rtBank (getTile s (netTile q)).net (dByte q.d 29 == 1)
      replyCopy q ((List.range n).flatMap (fun i => leBytes 8 (roleEntry b (first + i)).toNat)) n s) s

/-- NET_ROLE_READ: role entries of one bank of a router (R258). -/
def execNetRoleRead (q : Req) (s : State) : Host.Outcome State Fault Refusal :=
  .next (runDesc (.netRoleRead q) 0xB1 q (netRoleReadBody q) s)

def netProbeBody (q : Req) (s : State) : Reply × State :=
  let t := netTile q
  checked [(!isSteward q s, .refusedOwnership),
      (dirty (netShape false false [(28, 1), (30, 1)]) q || badTarget q || decide (95 < dByte q.d 28) ||
        decide (dByte q.d 30 < 1) || decide (3 < dByte q.d 30), .badField), (netBusy q s, .busy)]
    (fun s =>
      let s1 := modHub s (fun h => { h with probes := h.probes ++ [q] })
      (.later, modNet s1 t (fun r => { r with injectQ := r.injectQ ++ [mkPacket 0x27 r.svcEpoch (dByte q.d 30) t 255 0
        (dByte q.d 28) (probeData q)] }))) s

/-- NET_PROBE: a PROBE to a tile, timed by its reply (R258). -/
def execNetProbe (q : Req) (s : State) : Host.Outcome State Fault Refusal :=
  .next (runDesc (.netProbe q) 0xB2 q (netProbeBody q) s)

def netLinkRetrainBody (q : Req) (comesUp : Bool) (s : State) : Reply × State :=
  let t := netTile q
  let port := dByte q.d 29
  checked [(!isSteward q s, .refusedOwnership),
      (dirty (netShape false false [(29, 1)]) q || badTarget q || decide (3 < port), .badField), (netBusy q s, .busy)]
    (fun s => if comesUp then (.done .ok 1, linkUp s t port) else (.done .ok 0, linkDown s t port)) s

/-- NET_LINK_RETRAIN: a link is trained; `comesUp` is what the training gives (R244, R258). -/
def execNetLinkRetrain (q : Req) (comesUp : Bool) (s : State) : Host.Outcome State Fault Refusal :=
  .next (runDesc (.netLinkRetrain q comesUp) 0xB3 q (netLinkRetrainBody q comesUp) s)

end Sys2Proof.Machine
end

