-- ==== Sys2Proof/Machine/Power.lean ====
section
/-! DEFINITION. Low-power states, resets of the whole device and supplies (spec/17_power_reset.md,
spec/18_electrical_package.md R434 to R436). -/

namespace Sys2Proof.Machine

/-! ### PWR_STATE (R419, R420, R427, R429) -/

def shPwrState : Shape := shapeOf caseBits false false false [(28, 1)]

/-- The state in which a PWR_STATE of a casement completes with BUSY (R427). -/
def pwrBusy (q : Req) (s : State) : Bool := placementBusy s || s.cases.any (fun p => p.2.isolated) ||
  (match getCase s (dCase q.d) with
  | some k => k.st == .empty || k.st == .stopped || k.st == .held || k.st == .failed
  | none => false)

/-- PWR_STATE reaches a casement in HOLD, or on its way there (R418, R427). -/
def pwrShut (q : Req) (s : State) : Bool := match getCase s (dCase q.d) with
  | some k => takenOver s (dCase q.d) || (k.pwr != .hold && !k.entering && caseShut k none s)
  | none => true

/-- The power state that PWR_STATE asks for. -/
def pwrTarget (q : Req) : Pwr := match dByte q.d 28 with
  | 0 => .run
  | 1 => .doze
  | _ => .hold

/-- Entry to DOZE or HOLD asked for from RUN or DOZE: the casement pauses after its next close, or is paused. -/
def beginEntry (q : Req) (c : Nat) (k : Casement) (s : State) : Reply × State :=
  let p := pwrTarget q
  let s1 := modCase s c (fun k => { k with pwrWant := k.pwrWant ++ [(p, q)] })
  if k.st == .running then (.later, modCase s1 c (fun k => { k with pwrFrom := .running, halt := true }))
  else if !k.pwrWant.isEmpty then (.later, s1)
  else if p == .doze then (.done .ok (caseCycle k s), enterDoze s c .paused)
  else (.later, modCase s1 c (fun k => { k with pwrFrom := if k.pwr == .run then .paused else k.pwrFrom }))

/-- The action of PWR_STATE. -/
def pwrStateGo (q : Req) (s : State) : Reply × State :=
  let c := (dCase q.d).val
  match getCase s c with
  | none => (.done .badField 0, s)
  | some k =>
    let p := pwrTarget q
    let s1 := modCase s c (fun k => { k with pwrWant := k.pwrWant ++ [(p, q)] })
    if p == k.pwr && k.pwrWant.isEmpty then (.done .ok (caseCycle k s), s)
    else if p == .run then (.later, wakeByCommand s1 c)
    else if k.pwr == .hold then (.later, if k.pwrWant.isEmpty then wakeByCommand s1 c else s1)
    else beginEntry q c k s

def pwrStateBody (q : Req) (s : State) : Reply × State :=
  checked [(goneCase q s, .badField), (notAllowed q .poke s, .refusedOwnership),
    ((getCase s (dCase q.d)).isNone || dirty shPwrState q || decide (2 < dByte q.d 28), .badField), (pwrBusy q s, .busy),
    (pwrShut q s, .shuttered)] (pwrStateGo q) s

/-- PWR_STATE: a casement to RUN, DOZE or HOLD (R418 to R422, R429). -/
def execPwrState (q : Req) (s : State) : Host.Outcome State Fault Refusal :=
  .next (runDesc (.pwrState q) 0xA8 q (pwrStateBody q) s)

/-! ### DOZE exit (R420) -/

/-- The casement is in RUN again, in the state that it came from. A PWR_STATE to RUN completes here where no release
follows. -/
def backToRun (s : State) (c : Nat) (old : Pwr) : State := match getCase s c with
  | none => s
  | some k =>
    let runs := k.pwrFrom == .running
    let s1 := postPwr (wakeRouters (modCase s c (fun k => { k with
      pwr := .run, wake := false, startUp := none, st := if runs then .running else .paused,
      halt := !s.dev.sleepReq.isEmpty || k.pwrWant.any (fun w => w.1 != .run) }))) c .run old
    if runs then s1
    else
      let s2 := pwrReached s1 c .run (caseCycle k s1)
      let next : List (Pwr × Req) := match getCase s2 c with | some n => n.pwrWant | none => []
      match next with
      | (.doze, _) :: _ =>
        pwrReached (enterDoze (modCase s2 c (fun k => { k with halt := false })) c .paused) c .doze (caseCycle k s2)
      | _ => s2

/-- The descriptor at the head asks for HOLD, or its entry has begun: it completes before an exit begins (R427). -/
def holdNext (k : Casement) : Bool := k.entering || (match k.pwrWant with | (.hold, _) :: _ => true | _ => false)

/-- DOZE_EXIT: a wake ungates the clocks; timers count on (R420, R425). -/
def execDozeExit (c : CaseId) (s : State) : Host.Outcome State Fault Refusal :=
  .next (match getCase s c.val with
    | none => s
    | some k =>
      if k.pwr != .doze || !k.wake || holdNext k || s.dev.sleep != .awake then s
      else
        let s1 := modTiles s (tilesOf k.region) (fun _ x => { x with ct := { x.ct with
          tmrs := mmap (fun _ m => { m with since := s.dev.now }) x.ct.tmrs } })
        backToRun s1 c.val .doze)

/-! ### HOLD (R416, R421, R422) -/

/-- A tile at the end of HOLD entry: AN off, BPA, LF and IO in retention, SHUT. Comparators that R205 names
run on; the others stop as they are. Changes of slots and timers that wait take effect, since R428 keeps runtime changes, and
captures are discarded (R180, R213, R229). -/
def holdTile (s : State) (t : Nat) (x0 : Tile) : Tile :=
  let x := applyInjChanges ((List.range 8).foldl takeNext x0)
  { x with
    edges := [],
    cyc := { x.cyc with clk := .off, clkPosted := false },
    fab := { x.fab with clocksOn := false, writesOn := false, portA := [], level := 0 },
    an := { AnState.cold with limits := x.an.limits, cut := x.an.cut },
    cv := { CvState.cold with expMask := x.cv.expMask, unsettled := x.cv.unsettled },
    ct := { x.ct with tmrs := [] },
    cal := { x.cal with points := [] },
    net := { x.net with shut := .shut, stalled := false },
    dom := { bpa := .retain, lf := .retain, an := .off, io := .retain, tk := if routesThrough s t then .on else .off } }

/-- The hold bank drained as checkpoint n of a journalled casement (R421 step 3); a drain under way ends before it. -/
def holdCkpt (s : State) (c : Nat) : State :=
  let s1 := drainEnd s c
  match getCase s1 c with
  | none => s1
  | some k =>
    if !jnlOn k || k.jnl.gapFrom.isSome || k.jnl.drain.isSome then s1
    else
      let s2 := modTiles (modJnlCase s1 c (fun j => { j with taking := true })) (tilesOf k.region)
        (fun _ x => { x with bp := { x.bp with ckptBank := some (snapOf x k.depth) } })
      drainEnd (beginCkpt s2 c k.chan.closeDone) c

/-- Steps 2 to 4 of HOLD entry: hold banks saved, a checkpoint drained, pads sill-held, analogue outputs disconnected, and
shutters CLOSING (R421). -/
def holdBegin (s : State) (c : Nat) (k : Casement) : State :=
  let ts := tilesOf k.region
  let s1 := modTiles s ts (fun _ x => { x with bp := { x.bp with holdBank := some (snapOf x k.depth) } })
  let s2 := sillHold (holdCkpt s1 c) (casePins s c)
  let s3 := modTiles s2 ts (fun _ x => { x with
    an := { x.an with connected := false },
    net := if x.net.shut == .open_ then { x.net with shut := .closing, stalled := false } else x.net })
  modCase s3 c (fun k => { k with entering := true })

/-- Every shutter of the tiles is SHUT, or its fence holds (R257). -/
def allShut (s : State) (ts : List Nat) : Bool :=
  ts.all (fun t => (getTile s t).net.shut == .shut || fenceHolds (getTile s t))

/-- Step 5 of HOLD entry: domains go into retention or OFF, and PWR_STATE completes (R421). -/
def holdFinish (s : State) (c : Nat) (k : Casement) : State :=
  let s1 := modCase s c (fun k => { k with st := .paused, pwr := .hold, entering := false })
  let s2 := modTiles s1 (tilesOf k.region) (holdTile s1)
  let s3 := postPwr (settleFaultN (epochSettle (settleFabric s (settleTins s2)))) c .hold k.pwr
  pwrReached s3 c .hold (caseCycle k s)

/-- HOLD_ENTRY: the paused casement saves its state, drains a checkpoint, holds its pads and closes its shutters; once they
are SHUT it goes into retention (R421). -/
def execHoldEntry (c : CaseId) (s : State) : Host.Outcome State Fault Refusal :=
  .next (match getCase s c.val with
    | none => s
    | some k =>
      let ts := tilesOf k.region
      if k.entering then (if allShut s ts then holdFinish s c.val k else s)
      else if k.st != .paused || k.pwr == .hold || !holdNext k then s
      else
        let s1 := holdBegin s c.val k
        if allShut s1 ts then holdFinish s1 c.val k else s1)

/-- A bank classified as its IO domain powers up (R434). -/
def classify (vio : List Nat) (s : State) (t : Nat) : State :=
  let v := ((vio[t]?).map bankClass).getD (getTile s t).pin.measured
  if (getTile s t).pin.measured == v && !(getTile s t).pin.vioLost then s
  else modPin s t (fun y => { y with measured := v, vioLost := false })

/-- A tile powers up at HOLD exit, still SHUT, its clocks locking; its bank is classified, and held or freed as the class
measured differs from the stated one or not (R130, R422 step 1). -/
def exitTile (n : Nat) (vio : List Nat) (s : State) (t : Nat) : State :=
  let s1 := modTile (powerTk s t) t (fun x => stepLock n { x with dom := { bpa := .on, lf := .on, an := .on, io := .on, tk := .on } })
  let s2 := modAn (anPowerUp (classify vio s1 t) t) t (fun a => { a with inputs := true })
  if (getTile s t).pin.stated then stateBank s2 t else s2

/-- The hold bank restored; fabric at INIT, converters and timers started afresh, comparators UNDECIDED (R422 step 3). -/
def exitState (s : State) (t : Nat) : State :=
  let s1 := settleFabric s (modTile s t (fun x =>
    let b := match x.bp.holdBank with | some z => restoreSnap x.bp z | none => x.bp
    { x with bp := { b with holdBank := none } }))
  startTimers (startConverter (startFabric s1 t) t) t

/-- Start-up steps (b), (c) and (d) of an exit, in the casement's order (R422 step 3). -/
def exitStep (ts : List Nat) (c : Nat) (s : State) (code : Nat) : State := match code with
  | 0 => s
  | 1 => settleFabric s (stepOutputs s c ts)
  | 2 => ts.foldl exitState s
  | _ => modTiles s ts (fun _ x => stepWrites x)

/-- Every tile has locked: HOLD is left, or the CASE_RESET that woke the casement is carried out (R422, R427). -/
def holdGo (s : State) (c : Nat) : State := match getCase s c with
  | none => s
  | some k =>
    let ts := liveTilesOf s k
    if k.pwr != .hold || k.startUp != some 0 || !allLocked s ts then s
    else
      let s1 := (startSteps k.startOrder.toNat).foldl (exitStep ts c) s
      match k.stop with
      | some (.reset q) => resetCase s1 c q
      | _ => settleFaultN (backToRun s1 c .hold)

/-- HOLD_EXIT: a wake powers the domains; the exit ends when every tile's clock has locked (R422, R425). -/
def execHoldExit (c : CaseId) (vio : List Nat) (s : State) : Host.Outcome State Fault Refusal :=
  .next (match getCase s c.val with
    | none => s
    | some k =>
      if k.pwr != .hold || !k.wake || s.dev.sleep != .awake then s
      else if k.startUp.isSome then holdGo s c.val
      else
        let s1 := (tilesOf k.region).foldl (exitTile k.n vio) s
        settleFabric s (settleTins (modCase s1 c.val (fun k => { k with startUp := some 0 }))))

/-- A promotion's spare has its clock: the copy may begin at the next close (R371 steps 3 and 4). -/
def spareLocked (s : State) (t : Nat) : State := match s.hub.promo with
  | some p => if p.spare.val = t && p.stage == .passes && s.load.phase == .idle
      then modHub s (fun h => { h with promo := some { p with stage := .loaded } }) else s
  | none => s

/-- GENERATOR_LOCKED: a tile's generator reaches lock, which needs SYSREF25 (R70, R341 step (a), R96, R422). -/
def execGeneratorLocked (t : TileId) (s : State) : Host.Outcome State Fault Refusal :=
  let x := getTile s t.val
  .next (if x.cyc.clk != .locking || !s.dev.sysref || x.dom.tk != .on then s
    else
      let s1 := spareLocked (modCyc (rebaseTmrs s t.val) t.val (fun y => { y with clk := .locked, clkPosted := false })) t.val
      match caseOfTile s1 t.val with
      | some p => settleFaultN (holdGo s1 p.1)
      | none => settleFaultN s1)

/-! ### SLEEP (R423 to R425) -/

def shPwrSleep : Shape := shapeOf 0 false false false [(32, 8)]

/-- Every casement is to pause. -/
def haltAll (s : State) : State :=
  { s with cases := mmap (fun _ k => if k.st == .running then { k with halt := true } else k) s.cases }

def pwrSleepBody (q : Req) (s : State) : Reply × State :=
  checked [(!isSteward q s, .refusedOwnership), (dirty shPwrSleep q, .badField),
    (placementBusy s || s.cases.any (fun p => p.2.isolated), .busy)]
    (fun s => (.later, sleepGo (haltAll (modDev s (fun d => { d with sleepReq := d.sleepReq ++ [q] }))))) s

/-- PWR_SLEEP: every casement pauses, pads are held, and the device sleeps (R423). -/
def execPwrSleep (q : Req) (s : State) : Host.Outcome State Fault Refusal :=
  .next (runDesc (.pwrSleep q) 0xA9 q (pwrSleepBody q) s)

/-- Byte of the record of a comparator that runs in SLEEP (R205). -/
def sleepByte (s : State) (t : Nat) (x : Tile) (a : Nat) : Bool :=
  (lockedPins s t).any (fun i => pinRecordByte i a) ||
    (decide (cfgAddr 0x22 0 ≤ a) && decide (a < cfgAddr 0x22 128) && cmpAlwaysOn x ((a - cfgAddr 0x22 0) / 8))

/-- A tile in SLEEP: what MRAM, the sill-hold latches and the always-on domain hold stays (R415, R428). -/
def sleepTile (s : State) (t : Nat) (x : Tile) : Tile :=
  { Tile.cold with
    cfg := x.cfg.filter (fun c => sleepByte s t x c.1),
    fab := { FabState.cold with held := false },
    pin := { PinState.cold with board := x.pin.board, measured := x.pin.measured, vioLost := x.pin.vioLost, sillHeld := x.pin.sillHeld,
                                sillV := x.pin.sillV, sillE := x.pin.sillE },
    cv := { CvState.cold with expMask := x.cv.expMask },
    ct := { CtState.cold with cmps := mmap (fun k c => if cmpAlwaysOn x k then c else { Cmp.cold with out := c.out }) x.ct.cmps },
    cal := { x.cal with points := [], pending := [], commit := none },
    net := { Router.cold with localSt := if x.net.localSt == .retired then .retired else .spare, condemned := x.net.condemned },
    ctl := { Ctl.cold with slotB := x.ctl.slotB, failSilent := x.ctl.failSilent && x.net.localSt == .retired,
                           repairA := x.ctl.repairA, repairB := x.ctl.repairB },
    dom := { bpa := .off, lf := .off, an := .off, io := .off, tk := .off } }

/-- What the service hub keeps when SVC is off: firmware in MRAM, and tenures in AON. -/
def hubOff (h : Hub) (tenures : Map (BitVec 16)) : Hub :=
  { Hub.cold with tenures := tenures, fwA := h.fwA, fwB := h.fwB, fwCounter := h.fwCounter }

/-- The port without power: link settings and bindings stay (R308, R428). -/
def bspOff (b : Bsp) (recs : Nat) : Bsp :=
  { Bsp.cold with training := false, set := b.set, recNext := recs, txScr := b.txScr,
                  streams := mmap (fun _ x => { Stream.unbound with bind := x.bind }) b.streams }

/-- SLEEP_POWER_OFF: 100 µs or more after the completion, every domain but AON turns off (R423, R428). -/
def execSleepPowerOff (s : State) : Host.Outcome State Fault Refusal :=
  .next (if s.dev.sleep != .entering || decide (s.dev.now.toNat < s.dev.sleepAt.toNat + 100000) then s
    else
      let s1 := portReset (portReset s false) true
      let s2 := modTiles s1 allTiles (sleepTile s1)
      let s3 := modHub (modBsp s2 (fun b => bspOff b (recSeq s2.rcd))) (fun h => hubOff h h.tenures)
      let s4 := modLoad (modJnl s3 (fun _ => Journal.cold)) loaderIdle
      modDev s4 (fun d => { d with sleep := .asleep, trunks := [], pcieA := .off, pcieB := .off, bspDom := .off, svc := .off }))

/-- SLEEP_ALARM: device time reaches the alarm, and the device wakes (R425). -/
def execSleepAlarm (s : State) : Host.Outcome State Fault Refusal :=
  .next (if s.dev.sleep == .awake || s.dev.wake || s.dev.alarm == 0 || decide (s.dev.now.toNat < s.dev.alarm.toNat) then s
    else postWake (modDev s (fun d => { d with wake := true })) 2)

/-- A casement after SLEEP: EMPTY, with its tiles and owner (R424). -/
def emptied (k : Casement) : Casement := Casement.created k.owner k.region

/-- SLEEP_WAKE: SVC, TK, IO and port domains power up, banks are classified, casements are EMPTY, WAKE_N is driven low
(R424, R434). -/
def execSleepWake (vio : List Nat) (s : State) : Host.Outcome State Fault Refusal :=
  .next (if s.dev.sleep != .asleep || !s.dev.wake then s
    else
      let s1 := allTiles.foldl (classify vio) (modTiles s allTiles (fun _ x => { x with dom := Doms.cold }))
      let s2 := modDev (modBsp s1 (fun b => { b with training := (linkSet b).1 != 0 })) (fun d => { d with
        sleep := .awake, wake := false, alarm := 0, wakeN := true, pcieA := .on, pcieB := .on, bspDom := .on, svc := .on })
      settleFaultN { s2 with cases := mmap (fun _ k => emptied k) s2.cases })

/-! ### COLD, PIN and DEVICE resets (R426, R428) -/

/-- What a tile keeps: MRAM, and what the board does at its pads. -/
def coldTile (x : Tile) : Tile :=
  { Tile.cold with
    pin := { PinState.cold with board := x.pin.board, measured := x.pin.measured, vioLost := x.pin.vioLost },
    cal := { CalState.cold with copyA := x.cal.copyA, copyB := x.cal.copyB, useB := x.cal.useB, factory := x.cal.factory },
    net := { Router.cold with localSt := if x.net.localSt == .retired then .retired else .spare, condemned := x.net.condemned },
    ctl := { Ctl.cold with slotB := x.ctl.slotB, failSilent := x.ctl.failSilent && x.net.localSt == .retired,
                           repairA := x.ctl.repairA, repairB := x.ctl.repairB } }

/-- The recorder: MRAM stays with its limits; entries not yet written are lost, and bindings with their rings. -/
def coldRecorder (r : Recorder) (keep : List Ev) : Recorder := { r with posted := keep, queue := [], notify := [], design := [] }

/-- Device level: OTP, MRAM, device time and the board's signals stay. -/
def coldDevice (d : Device) (kind : InReset) : Device :=
  { Device.cold with
    now := d.now, sysref := d.sysref, vsd := d.vsd, aref := d.aref, keys := d.keys, rollA := d.rollA, rollB := d.rollB,
    rollUseB := d.rollUseB, lastReset := d.lastReset, lastResetAt := d.lastResetAt, lastBrownOut := d.lastBrownOut,
    resetUntil := if kind == .device then d.now + 10000 else d.now, inReset := kind }

/-- A reset of code 0 to 2 begins: the whole device (R426, R427). -/
def deviceReset (s : State) (kind : InReset) (evs : List Ev) : State :=
  { dev := coldDevice s.dev kind,
    tiles := mmap (fun _ x => coldTile x) s.tiles,
    cases := [],
    hif := { HostIf.cold with fetched := s.hif.fetched, writes := s.hif.writes, steward := s.hif.steward },
    bsp := { Bsp.cold with training := false, recNext := recSeq s.rcd, txScr := s.bsp.txScr },
    load := Load.idle,
    hub := hubOff s.hub [],
    jnl := Journal.cold,
    rcd := coldRecorder s.rcd evs,
    fresh := s.fresh,
    pending := s.pending }

/-- A brown-out is recorded while the recorder has its supply; otherwise it waits for the power-up (R426, R431, R437). -/
def noteBrownOut (s : State) (v : Supply) : State :=
  if s.dev.inReset != .cold && v != .vaux then
    recWrite s true s.dev.now 0x002 0 (evArg (supplyCode v) 0 0) false false
  else post s 0x002 0 (supplyCode v) 0 0

/-- Brown-outs that wait for the power-up. -/
def brownOuts (s : State) : List Ev := s.rcd.posted.filter (fun e => e.code == 0x002)

/-- Harm done to what MRAM holds (R232, R332, R374, R406). A commit writes the copy that is not in use. -/
def harmMram (s : State) : MramHarm → State
  | .calUpset t b => modCal s t.val (fun c =>
      if b then { c with copyB := { c.copyB with crcGood := false } } else { c with copyA := { c.copyA with crcGood := false } })
  | .rollUpset b => modDev s (fun d =>
      if b then { d with rollB := { d.rollB with crcGood := false } } else { d with rollA := { d.rollA with crcGood := false } })
  | .rollCut => modDev s (fun d =>
      if d.rollUseB then { d with rollA := { d.rollA with mark := 0 } } else { d with rollB := { d.rollB with mark := 0 } })
  | .repairUpset t b => modCtl s t.val (fun c =>
      if b then { c with repairB := { c.repairB with crcGood := false } } else { c with repairA := { c.repairA with crcGood := false } })
  | .repairCut t => modCtl s t.val (fun c =>
      if repairGood c.repairA && !(repairGood c.repairB && repairNewerB c) then { c with repairB := { c.repairB with mark := 0 } }
      else { c with repairA := { c.repairA with mark := 0 } })
  | .recUpset b => modRcd s (fun r =>
      if b then { r with copyB := { r.copyB with crcGood := false } } else { r with copyA := { r.copyA with crcGood := false } })
  | .recCut => modRcd s (fun r =>
      if r.useB then { r with copyA := { r.copyA with mark := 0 } } else { r with copyB := { r.copyB with mark := 0 } })
  | .recordCut => modRcd s (fun r => { r with slots := mdel r.slots r.next })
  | .ringUpset u => modRcd s (fun r => { r with ring := mdel r.ring u.val })
  | .ringCut => modRcd s (fun r => { r with ring := mdel r.ring r.ringNext })

/-- COLD_RESET: a supply powers up, or stands at a voltage in mV below its falling threshold (R426, R431, R436). -/
def execColdReset (supply : Option (Supply × Nat)) (harms : List MramHarm) (s : State) : Host.Outcome State Fault Refusal :=
  let cold := fun s => let s0 := harms.foldl harmMram s; deviceReset s0 .cold (brownOuts s0)
  .next (match supply with
    | none => cold s
    | some (v, mv) =>
      if brownOutAt v ≤ mv then s
      else modDev (cold (noteBrownOut s v)) (fun d => { d with lastBrownOut := BitVec.ofNat 8 (supplyCode v) }))

/-- PIN_RESET: NRESET is low (R426). -/
def execPinReset (s : State) : Host.Outcome State Fault Refusal :=
  .next (if s.dev.inReset == .cold then s else deviceReset s .pin [])

/-- DEVICE_RESET_START: the reset that PWR_RESET asked for begins 100 µs after the completion (R426). -/
def execDeviceResetStart (s : State) : Host.Outcome State Fault Refusal :=
  .next (if s.dev.resetDue.any (fun t => t.toNat ≤ s.dev.now.toNat) && s.dev.inReset == .none then deviceReset s .device [] else s)

/-- Code of a reset in progress (R426). -/
def resetCode : InReset → Nat
  | .none | .cold => 0
  | .pin => 1
  | .device => 2

/-- The steward at the end of a reset (R288). -/
def stewardOf (sel : BitVec 2) : HostId := Config.stewardFix.getD
  (if sel = 0 then 0 else if sel = 1 then 1 else if sel = 2 then 4 else 5)

/-- VAUX or another supply has powered up: recorder and anti-rollback counters choose their copies, and brown-outs that
wait are raised (R332, R406). -/
def powerUp (s : State) : State :=
  let s1 := recPowerUp s
  rollSelect (modRcd s1 (fun r => { r with posted := s.rcd.posted.map (fun e => { e with time := s1.dev.now }) ++ r.posted }))

/-- RESET_END: a COLD, PIN or DEVICE reset ends; STEWARD_SEL is sampled and the banks are classified (R288, R426, R434). -/
def execResetEnd (stewardSel : BitVec 2) (vio : List Nat) (s : State) : Host.Outcome State Fault Refusal :=
  .next (if s.dev.inReset == .none || (s.dev.inReset == .device && decide (s.dev.now.toNat < s.dev.resetUntil.toNat)) then s
    else
      let code := resetCode s.dev.inReset
      let s1 := allTiles.foldl (classify vio) (if s.dev.inReset == .cold then powerUp s else s)
      let s2 := modHif s1 (fun f => { f with steward := stewardOf stewardSel })
      let s3 := modDev (modBsp s2 (fun b => { b with training := true })) (fun d => { d with
        inReset := .none, lastReset := BitVec.ofNat 8 code, lastResetAt := d.now })
      post s3 0x001 0 code 0xFF 0)

/-! ### PWR_RESET, PWR_STATUS (R426, R429, R430) -/

def shPwrReset : Shape := shapeOf 0 false false false [(28, 1), (30, 1)]
def shPwrStatus : Shape := shapeOf 0 true false true []

/-- A tile of the spare pool, or RETIRED without a role (R426). -/
def resettable (s : State) (t : Nat) : Bool := inPool s t || (retiredTile s t && (roleIn (hubBank s) t).isNone)

def badPwrReset (q : Req) (s : State) : Bool :=
  dirty shPwrReset q || (match dByte q.d 28 with
    | 2 => dByte q.d 30 != 0
    | 6 => !resettable s (dByte q.d 30)
    | _ => true)

def pwrResetBody (q : Req) (s : State) : Reply × State :=
  let t := dByte q.d 30
  checked [(!isSteward q s, .refusedOwnership), (badPwrReset q s, .badField), (dByte q.d 28 == 6 && testBusy s t, .busy)]
    (fun s => (.done .ok 0, if dByte q.d 28 = 6 then tileReset s t else modDev s (fun d => { d with resetDue := some (d.now + 100000) }))) s

/-- PWR_RESET: a DEVICE or a TILE reset (R426, R429). -/
def execPwrReset (q : Req) (s : State) : Host.Outcome State Fault Refusal :=
  .next (runDesc (.pwrReset q) 0xAA q (pwrResetBody q) s)

/-- Domain d is ON or RETAIN (R415). -/
def domUp (s : State) (d : Nat) : Bool :=
  let x := (getTile s (d / 5)).dom
  let v := if d = 480 then s.dev.pcieA else if d = 481 then s.dev.pcieB else if d = 482 then s.dev.bspDom else if d = 483 then s.dev.svc
    else match d % 5 with | 0 => x.bpa | 1 => x.lf | 2 => x.an | 3 => x.io | _ => x.tk
  v != .off

/-- The 128 bytes of PWR_STATUS. -/
def pwrStatusBytes (s : State) : List Byte :=
  let doms := (List.range 484).foldl (fun m d => if domUp s d then m + 2 ^ d else m) 0
  let d := s.dev
  layout 128 ([(0, 61, doms)] ++
    (List.range 32).map (fun c => (64 + c, 1, match getCase s c with | some k => pwrCode k.pwr | none => 0xFF)) ++
    [(96, 1, d.lastReset.toNat), (97, 1, d.lastBrownOut.toNat), (98, 1, d.lastWake.toNat),
     (100, 4, s.rcd.counts.powerCycles.toNat), (104, 8, d.lastResetAt.toNat), (112, 8, d.alarm.toNat)])

def pwrStatusBody (q : Req) (s : State) : Reply × State :=
  checked [(dirty shPwrStatus q || short q 128, .badField)] (fun s => replyCopy q (pwrStatusBytes s) 0 s) s

/-- PWR_STATUS: domains, power states and the last reset (R430). -/
def execPwrStatus (q : Req) (s : State) : Host.Outcome State Fault Refusal :=
  .next (runDesc (.pwrStatus q) 0xAB q (pwrStatusBody q) s)

/-! ### VIO (R434) -/

/-- VIO_LOSS: the supply of a bank falls while its IO domain is ON; the bank counts as absent (R145, R434). -/
def execVioLoss (t : TileId) (s : State) : Host.Outcome State Fault Refusal :=
  .next (if (getTile s t.val).dom.io != .on || (getTile s t.val).pin.vioLost then s
    else settleFabric s (settleTins (modPin s t.val (fun y => { y with vioLost := true }))))

end Sys2Proof.Machine
end

