-- ==== Sys2Proof/Machine/Recorder.lean ====
section
/-! DEFINITION. Events and descriptors of the event recorder (spec/16_event_recorder.md). -/

namespace Sys2Proof.Machine

/-! ### Events -/

/-- EVENT_POST: event i of those on their way reaches the recorder, in an order that R403 allows, and is written as soon as
the records before it are (R400, R408, R409, R412). -/
def execEventPost (i : Nat) (writeOk : Bool) (s : State) : Host.Outcome State Fault Refusal :=
  .next (if mayPost s.rcd.posted i && s.dev.inReset == .none then
      match s.rcd.posted[i]? with
      | some e => if queueRoom s e then recTick (recTake (modRcd s (fun r => { r with posted := r.posted.eraseIdx i })) writeOk e) else s
      | none => s
    else s)

/-- RATE_LIMIT_REFILL: the end of a PERIOD gives the code a token; the first gain after suppressions summarises them
(R408). -/
def execRateLimitRefill (code : BitVec 12) (s : State) : Host.Outcome State Fault Refusal :=
  let b := getBucket s code.toNat
  .next (if !b.running || decide (s.dev.now.toNat < b.since.toNat + b.period * 1000000) then s
    else
      let s1 := setBucket s code.toNat { b with
        tokens := b.tokens + 1, running := decide (b.tokens + 1 < b.burst),
        since := b.since + BitVec.ofNat 64 (b.period * 1000000), suppressed := 0 }
      if b.suppressed = 0 then s1
      else recOwn s1 { time := s.dev.now, code := code, src := b.src, arg := BitVec.ofNat 32 b.suppressed,
                       held := false, kind := .summary })

/-- TIME_RING_WRITE: every 2^20 ns, device time into the next unit of the time ring (R405). -/
def execTimeRingWrite (s : State) : Host.Outcome State Fault Refusal :=
  .next (if s.dev.inReset == .cold || decide (s.dev.now.toNat < s.rcd.ringDue.toNat) then s
    else modRcd s (fun r => { r with
      ring := mset r.ring r.ringNext (s.dev.now, r.counts.powerCycles), ringNext := (r.ringNext + 1) % 1024,
      ringDue := r.ringDue + 2 ^ 20 }))

/-- The low 16 bits of a casement's cycle number, or 0xFFFF when it is not RUNNING (R411). -/
def designCycle (s : State) (t : Nat) : Nat := match caseOfTile s t with
  | some p => if p.2.st == .running then (getTile s t).cyc.cycle.toNat % 65536 else 0xFFFF
  | none => 0xFFFF

/-- DESIGN_EVENT_EDGE: a rising edge of a bound source posts every code bound to it, with source class 6, at the second
100 MHz edge after it (R411). -/
def execDesignEventEdge (t : TileId) (src : BitVec 12) (s : State) : Host.Outcome State Fault Refusal :=
  .next (match dueEdge s t.val true (fun k => k == .design src.toNat) with
    | none => s
    | some n => (s.rcd.design.filter (fun b => b.tile == t && b.src == src)).foldl
        (fun s b => postTile s t.val b.code.toNat 6 t.val 0 (designCycle s t.val)) (dropEdge s t.val n))

/-! ### Descriptors (R410 to R413) -/

def shRecRead : Shape := shapeOf 0 true false true [(32, 5), (40, 4)]
def shCopy : Shape := shapeOf 0 true false true []
def shRecTime : Shape := shapeOf 0 false false false [(32, 8)]
def shRecPost : Shape := shapeOf 0 false false false [(28, 2), (32, 4)]
def shRecLimit : Shape := shapeOf 0 false false false [(28, 3), (32, 2)]
def shRecNotify : Shape := (shapeOf 0 false false false [(28, 6)]).withBits [(34, 1)]
def shRecDesign : Shape := shapeOf caseBits false false false [(28, 1), (30, 4)]

/-- A slot as found when it does not hold the number read: VALID = 0. -/
def asFound (r : Recorder) (k : Nat) : List Byte := match mfind r.slots k with
  | some e => recBytes { e with flags := setBit e.flags 7 false }
  | none => padTo 16 []

/-- What REC_READ writes for a number that is not newer than the newest: the bytes, and whether they say GONE (R410). -/
def readOne (r : Recorder) (n : Nat) : Bool × List Byte :=
  if n + recSlots < recSeq r then (true, padTo 16 (List.replicate 10 0 ++ [0x20]))
  else match mfind r.slots (n % recSlots) with
    | some e => if e.flags.getLsbD 7 then (false, recBytes e) else (false, asFound r (n % recSlots))
    | none => (false, asFound r (n % recSlots))

/-- Newest sequence number; open while nothing has been written. -/
def newestSeq (s : State) : Nat := if recSeq s.rcd = 0 then Config.freeNat s.fresh 35 % 2 ^ 40 else recSeq s.rcd - 1

def recReadBody (q : Req) (s : State) : Reply × State :=
  let first := dBits q.d 32 5
  let count := dW32 q.d 40
  let bad := dirty shRecRead q || decide (count < 1) || decide (524288 < count) || short q (16 * count)
  checked [(bad, .badField)]
    (fun s =>
      let n := min count (recSeq s.rcd - first)
      let out := (List.range n).map (fun i => readOne s.rcd (first + i))
      let gone := (out.filter (·.1)).length
      replyCopy q (out.flatMap (·.2)) (newestSeq s + 2 ^ 40 * n + 2 ^ 60 * min 15 gone)
        (if recSeq s.rcd = 0 then { s with fresh := s.fresh + 1 } else s)) s

/-- REC_READ: records by sequence number, while the recorder goes on (R410, R412). -/
def execRecRead (q : Req) (s : State) : Host.Outcome State Fault Refusal :=
  .next (runDesc (.recRead q) 0xA0 q (recReadBody q) s)

/-- The 64 bytes of REC_STATUS (R413). -/
def recStatusBytes (s : State) : List Byte :=
  let r := s.rcd
  layout 64 [(0, 5, newestSeq s), (8, 8, s.dev.now.toNat), (16, 4, r.counts.powerCycles.toNat),
    (20, 8, r.counts.overwritten.toNat), (28, 4, r.suppressed), (32, 8, r.timeSet.toNat)]

def recStatusBody (q : Req) (s : State) : Reply × State :=
  checked [(dirty shCopy q || short q 64, .badField)]
    (fun s => replyCopy q (recStatusBytes s) 0
      (if recSeq s.rcd = 0 then { s with fresh := s.fresh + 1 } else s)) s

/-- REC_STATUS: the recorder's counts and times (R413). -/
def execRecStatus (q : Req) (s : State) : Host.Outcome State Fault Refusal :=
  .next (runDesc (.recStatus q) 0xA1 q (recStatusBody q) s)

def recTimeSetBody (q : Req) (s : State) : Reply × State :=
  checked [(!isSteward q s, .refusedOwnership), (dirty shRecTime q, .badField)]
    (fun s => (.later, postEv s { mkEv s 0xB02 7 0 false with kind := .timePair q })) s

/-- REC_TIME_SET: a pair of records that carries wall time (R407). -/
def execRecTimeSet (q : Req) (s : State) : Host.Outcome State Fault Refusal :=
  .next (runDesc (.recTimeSet q) 0xA2 q (recTimeSetBody q) s)

def recPostBody (q : Req) (s : State) : Reply × State :=
  let code := dW16 q.d 28
  checked [(dirty shRecPost q || decide (code < 0xE00) || decide (0xFFF < code), .badField)]
    (fun s => (.later, postEv s { mkEv s code 7 (BitVec.ofNat 32 (dW32 q.d 32)) false with kind := .hostPost q })) s

/-- REC_POST: a posting by a host (R411, R412). -/
def execRecPost (q : Req) (s : State) : Host.Outcome State Fault Refusal :=
  .next (runDesc (.recPost q) 0xA3 q (recPostBody q) s)

def recLimitBody (q : Req) (s : State) : Reply × State :=
  let code := dW16 q.d 28
  let bad := dirty shRecLimit q || decide (0xFFF < code) || neverLimited code || dByte q.d 30 == 0 || dW16 q.d 32 == 0
  checked [(!isSteward q s, .refusedOwnership), (bad, .badField)]
    (fun s => (.later, postEv s { mkEv s code 0 0 false with kind := .limit q })) s

/-- REC_LIMIT: BURST and PERIOD of a code, after the summary of what it suppressed (R408, R412). -/
def execRecLimit (q : Req) (s : State) : Host.Outcome State Fault Refusal :=
  .next (runDesc (.recLimit q) 0xA4 q (recLimitBody q) s)

/-- The set of codes from a lowest to a highest. -/
def codeRange (lo hi : Nat) : BitVec 4096 := BitVec.ofNat 4096 (2 ^ (hi + 1) - 2 ^ lo)

def recNotifyBody (q : Req) (s : State) : Reply × State :=
  let lo := dW16 q.d 28
  let hi := dW16 q.d 30
  let c := dW16 q.d 32
  let owned := match mfind s.hif.rings c with | some r => r.owner == q.host | none => false
  let event := match mfind s.hif.rings c with | some r => r.kind == .event | none => false
  checked [(dirty shRecNotify q || decide (0xFFF < hi) || decide (hi < lo), .badField),
      (!owned, .refusedOwnership), (!event, .badField)]
    (fun s => (.done .ok 0, modRcd s (fun r =>
      let old := mget 0 r.notify c
      let new_ := if bitAt (dByte q.d 34) 0 then old ||| codeRange lo hi else old &&& ~~~codeRange lo hi
      { r with notify := if new_ = 0 then mdel r.notify c else mset r.notify c new_ }))) s

/-- REC_NOTIFY: codes bound to an event ring, or unbound (R412). -/
def execRecNotify (q : Req) (s : State) : Host.Outcome State Fault Refusal :=
  .next (runDesc (.recNotify q) 0xA5 q (recNotifyBody q) s)

/-- The bindings after REC_DESIGN_BIND (R411). -/
def designAfter (bs : List DesignBind) (c : CaseId) (t : TileId) (code src : Nat) : List DesignBind :=
  if code = 0 then bs.filter (fun b => !(b.tile == t && b.src.toNat == src))
  else bs.filter (fun b => b.code.toNat != code) ++
    [{ case_ := c, tile := t, src := BitVec.ofNat 12 src, code := BitVec.ofNat 12 code }]

def recDesignBindBody (q : Req) (s : State) : Reply × State :=
  let t := dByte q.d 28
  let code := dW16 q.d 30
  let src := dW16 q.d 32
  let bad := dirty shRecDesign q || !(code == 0 || (0xC00 ≤ code && code ≤ 0xDFF)) || decide (0xFFF < src) || badSrcCode src
  let other := code != 0 && s.rcd.design.any (fun b => b.code.toNat == code && b.case_ != dCase q.d)
  checked (r59Tile q .poke s ++ [(bad, .badField), (other, .conflict)])
    (fun s => (.done .ok 0, markChanged (modRcd s (fun r =>
      { r with design := designAfter r.design (dCase q.d) (Fin.ofNat 96 t) code src })) (dCase q.d).val)) s

/-- REC_DESIGN_BIND: a design event code bound to a source of a tile (R411, R412). -/
def execRecDesignBind (q : Req) (s : State) : Host.Outcome State Fault Refusal :=
  .next (runDesc (.recDesignBind q) 0xA6 q (recDesignBindBody q) s)

end Sys2Proof.Machine
end

