-- ==== Sys2Proof/Machine/Dispatch.lean ====
section
/-! DEFINITION. The meaning of every command: one arm for each row of spec/opcode_table.json. -/

namespace Sys2Proof.Machine

def exec (i : Instr) (s : State) : Host.Outcome State Fault Refusal :=
  match i with
  | .programmeStep t seen => Sys2Proof.Machine.execProgrammeStep t seen s
  | .gather hub c w => Sys2Proof.Machine.execGather hub c w s
  | .lintelClose t => Sys2Proof.Machine.execLintelClose t s
  | .lintelRelease t => Sys2Proof.Machine.execLintelRelease t s
  | .bundleArrival t p => Sys2Proof.Machine.execBundleArrival t p s
  | .stallTimeout t => Sys2Proof.Machine.execStallTimeout t s
  | .sysrefLoss => Sys2Proof.Machine.execSysrefLoss s
  | .sysrefReturn => Sys2Proof.Machine.execSysrefReturn s
  | .generatorUnlock t => Sys2Proof.Machine.execGeneratorUnlock t s
  | .generatorRelock t => Sys2Proof.Machine.execGeneratorRelock t s
  | .clockFailed t => Sys2Proof.Machine.execClockFailed t s
  | .configScan t q good => Sys2Proof.Machine.execConfigScan t q good s
  | .tcWatchdogExpiry t => Sys2Proof.Machine.execTcWatchdogExpiry t s
  | .tcRestartDone t bootOk => Sys2Proof.Machine.execTcRestartDone t bootOk s
  | .autoRetire t => Sys2Proof.Machine.execAutoRetire t s
  | .fabricRamPortAAccess t q upsets meetsPortB broken => Sys2Proof.Machine.execFabricRamPortAAccess t q upsets meetsPortB broken s
  | .fabricClockRestart t k => Sys2Proof.Machine.execFabricClockRestart t k s
  | .pinSwitchSettle t n => Sys2Proof.Machine.execPinSwitchSettle t n s
  | .comparatorCrossing t k w writeOk => Sys2Proof.Machine.execComparatorCrossing t k w writeOk s
  | .cmpSampleTick t k w writeOk => Sys2Proof.Machine.execCmpSampleTick t k w writeOk s
  | .timerCompare t k => Sys2Proof.Machine.execTimerCompare t k s
  | .timerWrap t k => Sys2Proof.Machine.execTimerWrap t k s
  | .timerOneShotEnd t k => Sys2Proof.Machine.execTimerOneShotEnd t k s
  | .timerSourceEdge t k => Sys2Proof.Machine.execTimerSourceEdge t k s
  | .triggerDelayExpiry t => Sys2Proof.Machine.execTriggerDelayExpiry t s
  | .conversionIssue t => Sys2Proof.Machine.execConversionIssue t s
  | .conversionComplete t slice w => Sys2Proof.Machine.execConversionComplete t slice w s
  | .injSourceEdge t j => Sys2Proof.Machine.execInjSourceEdge t j s
  | .accSnapEdge t a => Sys2Proof.Machine.execAccSnapEdge t a s
  | .designEventEdge t src => Sys2Proof.Machine.execDesignEventEdge t src s
  | .currentLimitExpiry t o => Sys2Proof.Machine.execCurrentLimitExpiry t o s
  | .referenceSettled t l => Sys2Proof.Machine.execReferenceSettled t l s
  | .arefRangeChange sec inRange => Sys2Proof.Machine.execArefRangeChange sec inRange s
  | .anSwitchClose t => Sys2Proof.Machine.execAnSwitchClose t s
  | .anOutClose t => Sys2Proof.Machine.execAnOutClose t s
  | .hostEnable h => Sys2Proof.Machine.execHostEnable h s
  | .hostDisable h => Sys2Proof.Machine.execHostDisable h s
  | .quiesce h => Sys2Proof.Machine.execQuiesce h s
  | .quiesceClear h => Sys2Proof.Machine.execQuiesceClear h s
  | .registerWrite h offset wide value => Sys2Proof.Machine.execRegisterWrite h offset wide value s
  | .deviceReady => Sys2Proof.Machine.execDeviceReady s
  | .doorbellPoll h rd => Sys2Proof.Machine.execDoorbellPoll h rd s
  | .msixModTimeExpiry h ring => Sys2Proof.Machine.execMsixModTimeExpiry h ring s
  | .reservedOpcode op q => Sys2Proof.Machine.execReservedOpcode op q s
  | .nop q => Sys2Proof.Machine.execNop q s
  | .ringCreate q => Sys2Proof.Machine.execRingCreate q s
  | .ringDelete q => Sys2Proof.Machine.execRingDelete q s
  | .ringModerate q => Sys2Proof.Machine.execRingModerate q s
  | .ringQuery q => Sys2Proof.Machine.execRingQuery q s
  | .ringAssign q => Sys2Proof.Machine.execRingAssign q s
  | .stewardHandover q => Sys2Proof.Machine.execStewardHandover q s
  | .hostStatus q => Sys2Proof.Machine.execHostStatus q s
  | .cfgLoad q => Sys2Proof.Machine.execCfgLoad q s
  | .imageData bytes ended => Sys2Proof.Machine.execImageData bytes ended s
  | .loadPauseTimeout c => Sys2Proof.Machine.execLoadPauseTimeout c s
  | .loadPass2Start => Sys2Proof.Machine.execLoadPass2Start s
  | .fetchTimeout => Sys2Proof.Machine.execFetchTimeout s
  | .startUpStep c => Sys2Proof.Machine.execStartUpStep c s
  | .startUpLockTimeout c => Sys2Proof.Machine.execStartUpLockTimeout c s
  | .cfgStatus q => Sys2Proof.Machine.execCfgStatus q s
  | .cfgKeyProgram q => Sys2Proof.Machine.execCfgKeyProgram q s
  | .cfgKeyRevoke q => Sys2Proof.Machine.execCfgKeyRevoke q s
  | .caseCreate q => Sys2Proof.Machine.execCaseCreate q s
  | .caseDissolve q => Sys2Proof.Machine.execCaseDissolve q s
  | .caseOwner q => Sys2Proof.Machine.execCaseOwner q s
  | .caseReset q => Sys2Proof.Machine.execCaseReset q s
  | .casePolicy q => Sys2Proof.Machine.execCasePolicy q s
  | .casePinAssign q => Sys2Proof.Machine.execCasePinAssign q s
  | .rolePromote q => Sys2Proof.Machine.execRolePromote q s
  | .backgroundCopyDone => Sys2Proof.Machine.execBackgroundCopyDone s
  | .roleRetire q => Sys2Proof.Machine.execRoleRetire q s
  | .tileRetest q => Sys2Proof.Machine.execTileRetest q s
  | .tileRepair q => Sys2Proof.Machine.execTileRepair q s
  | .tcFwLoad q => Sys2Proof.Machine.execTcFwLoad q s
  | .tcFwActivate q => Sys2Proof.Machine.execTcFwActivate q s
  | .caseStatus q => Sys2Proof.Machine.execCaseStatus q s
  | .tileStatus q => Sys2Proof.Machine.execTileStatus q s
  | .bpPeek q => Sys2Proof.Machine.execBpPeek q s
  | .bpPoke q => Sys2Proof.Machine.execBpPoke q s
  | .memPeek q => Sys2Proof.Machine.execMemPeek q s
  | .memPoke q => Sys2Proof.Machine.execMemPoke q s
  | .scheduleInfo q => Sys2Proof.Machine.execScheduleInfo q s
  | .storeStatus q => Sys2Proof.Machine.execStoreStatus q s
  | .cycleRate q => Sys2Proof.Machine.execCycleRate q s
  | .cyclePause q => Sys2Proof.Machine.execCyclePause q s
  | .cycleStep q => Sys2Proof.Machine.execCycleStep q s
  | .boundaryPeek q => Sys2Proof.Machine.execBoundaryPeek q s
  | .lintelStatus q => Sys2Proof.Machine.execLintelStatus q s
  | .pinWrite q => Sys2Proof.Machine.execPinWrite q s
  | .pinRead q => Sys2Proof.Machine.execPinRead q s
  | .pinSetup q => Sys2Proof.Machine.execPinSetup q s
  | .pinLine q => Sys2Proof.Machine.execPinLine q s
  | .pinLock q => Sys2Proof.Machine.execPinLock q s
  | .pinStatus q => Sys2Proof.Machine.execPinStatus q s
  | .pinWindowStore t mask word => Sys2Proof.Machine.execPinWindowStore t mask word s
  | .pinLockWrite t word => Sys2Proof.Machine.execPinLockWrite t word s
  | .anCellSet q => Sys2Proof.Machine.execAnCellSet q s
  | .anNetSet q => Sys2Proof.Machine.execAnNetSet q s
  | .anPinSet q => Sys2Proof.Machine.execAnPinSet q s
  | .anStatus q => Sys2Proof.Machine.execAnStatus q s
  | .cmpSet q => Sys2Proof.Machine.execCmpSet q s
  | .cmpEvbind q => Sys2Proof.Machine.execCmpEvbind q s
  | .cmpCheck q => Sys2Proof.Machine.execCmpCheck q s
  | .tmSet q => Sys2Proof.Machine.execTmSet q s
  | .tmArm q => Sys2Proof.Machine.execTmArm q s
  | .tmRead q => Sys2Proof.Machine.execTmRead q s
  | .ctStatus q => Sys2Proof.Machine.execCtStatus q s
  | .cvSetup q => Sys2Proof.Machine.execCvSetup q s
  | .cvSeqSet q => Sys2Proof.Machine.execCvSeqSet q s
  | .cvInjSet q => Sys2Proof.Machine.execCvInjSet q s
  | .cvStart q => Sys2Proof.Machine.execCvStart q s
  | .cvInject q => Sys2Proof.Machine.execCvInject q s
  | .cvAccSet q => Sys2Proof.Machine.execCvAccSet q s
  | .cvAccRead q => Sys2Proof.Machine.execCvAccRead q s
  | .cvTrkRead q => Sys2Proof.Machine.execCvTrkRead q s
  | .cvSnap q => Sys2Proof.Machine.execCvSnap q s
  | .cvStatus q => Sys2Proof.Machine.execCvStatus q s
  | .calCapture q => Sys2Proof.Machine.execCalCapture q s
  | .calCompute q => Sys2Proof.Machine.execCalCompute q s
  | .calCellZero q => Sys2Proof.Machine.execCalCellZero q s
  | .calSlice q => Sys2Proof.Machine.execCalSlice q s
  | .calLimits q => Sys2Proof.Machine.execCalLimits q s
  | .calRead q => Sys2Proof.Machine.execCalRead q s
  | .fabricRamRead q => Sys2Proof.Machine.execFabricRamRead q s
  | .fabricRamWrite q => Sys2Proof.Machine.execFabricRamWrite q s
  | .fabricStatus q => Sys2Proof.Machine.execFabricStatus q s
  | .fabricClock q => Sys2Proof.Machine.execFabricClock q s
  | .bspLink q => Sys2Proof.Machine.execBspLink q s
  | .bspStatus q => Sys2Proof.Machine.execBspStatus q s
  | .bspStreamBind q => Sys2Proof.Machine.execBspStreamBind q s
  | .bspExportSet q => Sys2Proof.Machine.execBspExportSet q s
  | .bspStreamReset q => Sys2Proof.Machine.execBspStreamReset q s
  | .bspOutSet q => Sys2Proof.Machine.execBspOutSet q s
  | .bspTrainingTimeout => Sys2Proof.Machine.execBspTrainingTimeout s
  | .jnlControl q => Sys2Proof.Machine.execJnlControl q s
  | .jnlExport q => Sys2Proof.Machine.execJnlExport q s
  | .jnlRead q => Sys2Proof.Machine.execJnlRead q s
  | .jnlStatus q => Sys2Proof.Machine.execJnlStatus q s
  | .jnlCheckpoint q => Sys2Proof.Machine.execJnlCheckpoint q s
  | .jnlMark q => Sys2Proof.Machine.execJnlMark q s
  | .jnlShadow q => Sys2Proof.Machine.execJnlShadow q s
  | .jnlReplay q => Sys2Proof.Machine.execJnlReplay q s
  | .checkpointDrainDone c => Sys2Proof.Machine.execCheckpointDrainDone c s
  | .recRead q => Sys2Proof.Machine.execRecRead q s
  | .recStatus q => Sys2Proof.Machine.execRecStatus q s
  | .recTimeSet q => Sys2Proof.Machine.execRecTimeSet q s
  | .recPost q => Sys2Proof.Machine.execRecPost q s
  | .recLimit q => Sys2Proof.Machine.execRecLimit q s
  | .recNotify q => Sys2Proof.Machine.execRecNotify q s
  | .recDesignBind q => Sys2Proof.Machine.execRecDesignBind q s
  | .eventPost n writeOk => Sys2Proof.Machine.execEventPost n writeOk s
  | .rateLimitRefill code => Sys2Proof.Machine.execRateLimitRefill code s
  | .timeRingWrite => Sys2Proof.Machine.execTimeRingWrite s
  | .pwrState q => Sys2Proof.Machine.execPwrState q s
  | .pwrSleep q => Sys2Proof.Machine.execPwrSleep q s
  | .pwrReset q => Sys2Proof.Machine.execPwrReset q s
  | .pwrStatus q => Sys2Proof.Machine.execPwrStatus q s
  | .netRouterStatus q => Sys2Proof.Machine.execNetRouterStatus q s
  | .netRoleRead q => Sys2Proof.Machine.execNetRoleRead q s
  | .netProbe q => Sys2Proof.Machine.execNetProbe q s
  | .netLinkRetrain q comesUp => Sys2Proof.Machine.execNetLinkRetrain q comesUp s
  | .netProbeTimeout => Sys2Proof.Machine.execNetProbeTimeout s
  | .packetInject t p => Sys2Proof.Machine.execPacketInject t p s
  | .flitReceive t src crcGood => Sys2Proof.Machine.execFlitReceive t src crcGood s
  | .bounce t p q kept => Sys2Proof.Machine.execBounce t p q kept s
  | .roleUpdate t => Sys2Proof.Machine.execRoleUpdate t s
  | .roleUpdateAck t => Sys2Proof.Machine.execRoleUpdateAck t s
  | .epochSwitch t => Sys2Proof.Machine.execEpochSwitch t s
  | .epochSwitchAck t => Sys2Proof.Machine.execEpochSwitchAck t s
  | .drainQuery t => Sys2Proof.Machine.execDrainQuery t s
  | .drainReport t => Sys2Proof.Machine.execDrainReport t s
  | .shutter j op => Sys2Proof.Machine.execShutter j op s
  | .shutterFenceHolds j => Sys2Proof.Machine.execShutterFenceHolds j s
  | .tcReady j => Sys2Proof.Machine.execTcReady j s
  | .shutterAck j => Sys2Proof.Machine.execShutterAck j s
  | .shutterStalled j => Sys2Proof.Machine.execShutterStalled j s
  | .probe t p => Sys2Proof.Machine.execProbe t p s
  | .probeReply p cycles => Sys2Proof.Machine.execProbeReply p cycles s
  | .bspSegmentReceive blocks => Sys2Proof.Machine.execBspSegmentReceive blocks s
  | .bspCredit b => Sys2Proof.Machine.execBspCredit b s
  | .bspAck b => Sys2Proof.Machine.execBspAck b s
  | .bspNak b => Sys2Proof.Machine.execBspNak b s
  | .bspAlign lane b => Sys2Proof.Machine.execBspAlign lane b s
  | .laneLockLoss lane => Sys2Proof.Machine.execLaneLockLoss lane s
  | .bspLinkUp lanes => Sys2Proof.Machine.execBspLinkUp lanes s
  | .bspSegmentSend stream => Sys2Proof.Machine.execBspSegmentSend stream s
  | .holdEntry c => Sys2Proof.Machine.execHoldEntry c s
  | .holdExit c vio => Sys2Proof.Machine.execHoldExit c vio s
  | .dozeExit c => Sys2Proof.Machine.execDozeExit c s
  | .sleepPowerOff => Sys2Proof.Machine.execSleepPowerOff s
  | .sleepAlarm => Sys2Proof.Machine.execSleepAlarm s
  | .sleepWake vio => Sys2Proof.Machine.execSleepWake vio s
  | .coldReset supply harms => Sys2Proof.Machine.execColdReset supply harms s
  | .pinReset => Sys2Proof.Machine.execPinReset s
  | .deviceResetStart => Sys2Proof.Machine.execDeviceResetStart s
  | .resetEnd stewardSel vio => Sys2Proof.Machine.execResetEnd stewardSel vio s
  | .portReset portB => Sys2Proof.Machine.execPortReset portB s
  | .functionReset h => Sys2Proof.Machine.execFunctionReset h s
  | .vioLoss t => Sys2Proof.Machine.execVioLoss t s
  | .serdesSupplyLoss => Sys2Proof.Machine.execSerdesSupplyLoss s
  | .padInputChange t n drive => Sys2Proof.Machine.execPadInputChange t n drive s
  | .fabricClockEdge t ks rising broken => Sys2Proof.Machine.execFabricClockEdge t ks rising broken s
  | .serdesSupplyReturn => Sys2Proof.Machine.execSerdesSupplyReturn s
  | .generatorLocked t => Sys2Proof.Machine.execGeneratorLocked t s
  | .marchTestDone t r => Sys2Proof.Machine.execMarchTestDone t r s
  | .cmpCheckEnd t k observed => Sys2Proof.Machine.execCmpCheckEnd t k observed s
  | .calCellZeroEnd t => Sys2Proof.Machine.execCalCellZeroEnd t s

end Sys2Proof.Machine
end

