-- ==== Sys2Proof/Machine/Idle.lean ====
section
/-! DEFINITION. What passes while no command waits (assumption 4). -/

namespace Sys2Proof.Machine

/-- The first waiting descriptor that may start, and the others (R279). -/
def takeFenced (s : State) : List Instr → Option (Instr × List Instr)
  | [] => none
  | i :: r =>
    if (match i.request with | some q => mayStart q.2 s | none => true) then some (i, r)
    else (takeFenced s r).map (fun p => (p.1, i :: p.2))

/-- One nanosecond of device time passes: port B accesses under way move a row, commits go on by a step, outputs of capture timers
fall, pattern frames go on, the bulk stream link may move a block, the recorder may write a record, and a waiting descriptor that
may now start joins the queue (R125, R212, R231, R279, R302, R313, R405, R409). -/
def idle (s : State) : State :=
  let s1 := recTick (linkTick (flushAll (timerFalls (commitTicks (portBTick (modDev s (fun d => if d.inReset == .cold then d else { d with now := d.now + 1 })))))))
  match takeFenced s1 s1.hif.fenced with
  | some (i, r) => { modHif s1 (fun f => { f with fenced := r }) with pending := [i] }
  | none => s1

end Sys2Proof.Machine
end

