-- ==== Sys2Proof/Safety.lean ====
section
/-! DEFINITION. What a safe step is, and the conditions on a descriptor and a state under which the statements say that
a descriptor is carried out. -/

namespace Sys2Proof

open Machine

/-- A step that goes on. -/
def Safe (s : State) : Prop := ∃ t, step s = .next t

/-- In s0 the descriptor has been fetched and starts: its turn in its ring has come, its common fields are good, and its
packet reaches its destination; s is the state in which it is carried out there (R20, R279, R280). -/
abbrev Begins (q : Req) (s0 s : State) : Prop := starts q s0 = true ∧ s = begun q s0

/-- The casement that the descriptor names is k, the issuer may use the descriptor, and the casement's shutter is OPEN
with the tile's controller at work, for the tile named or for all where none is (R59). -/
abbrev Serves (q : Req) (a : Access) (t : Option Nat) (k : Casement) (s : State) : Prop :=
  getCase s (dCase q.d) = some k ∧ (k.owner = q.host ∨ a = .peek ∧ isSteward q s = true) ∧
    takenOver s (dCase q.d) = false ∧ caseShut k t s = false ∧
    (match t with | some u => (getTile s u).ctl.restarting | none => false) = false

/-- The tile that byte 28 names lies in the casement. -/
abbrev NamesTile (q : Req) (k : Casement) : Prop := dByte q.d 28 < 96 ∧ k.region.getLsbD (dByte q.d 28) = true

/-- Every addressed store of a tile is in canonical form. -/
def tileStoresOk (x : Tile) : Prop :=
  Memory.wf cfgCold x.cfg = true ∧ Memory.wf cfgCold x.img = true ∧ Memory.wf zeroes x.bp.emem = true ∧
  Memory.wf zeroes x.bp.initBank.emem = true ∧ Memory.wf zeroes x.bp.initRam = true ∧ Memory.wf zeroes x.fab.ram = true ∧
  (∀ z : Snap, x.bp.holdBank = some z ∨ x.bp.ckptBank = some z → Memory.wf zeroes z.emem = true)

/-- Every addressed store of the machine is in canonical form. -/
def storesOk (s : State) : Prop :=
  (∀ p ∈ s.tiles, tileStoresOk p.2) ∧ Memory.wf zeroes s.jnl.window = true

end Sys2Proof
end

