-- ==== Sys2Proof/Certificates/Slice0/Obligations.lean ====
section
/-! DEFINITION. The statements for the provers. In a statement about a descriptor, `Begins q s0 s` says that the descriptor is
open, is not held back, and has reached the unit that serves it, and `complete q st res` writes its completion record; in one
about an event, the hypotheses say that the event's cause is in the state. Each docstring names the rules of spec/ behind the
statement, and the log entries of the choices it rests on. -/

open Sys2Proof Sys2Proof.Machine

/-! ### Steps and the way of descriptors -/

/-- A step with a command at the front of the queue is that command's meaning on the state with the queue's rest. -/
def Obligations.StepRunsFrontCommand : Prop :=
  ∀ (c : Instr) (s : State), step { s with pending := c :: s.pending } = exec c s

/-- With an empty queue a nanosecond of device time passes, unless a COLD reset holds the device, and the first waiting
descriptor that may start joins the queue: that an empty queue lets time pass is the model's choice (assumption 4). Stated where
nothing else is under way: no port B access, no commit, no timer output to fall, no stream that waits, the bulk stream link down and
the recorder's queue empty. -/
def Obligations.EmptyQueueIdles : Prop :=
  ∀ s : State, s.pending = [] → (∀ p ∈ s.tiles, p.2.fab.portB = [] ∧ p.2.cal.commit = none ∧ (∀ m ∈ p.2.ct.tmrs, m.2.fallAt = none)) →
    s.bsp.streams.any streamStalls = false → s.bsp.up = false → s.rcd.queue = [] →
    let later := modDev s (fun d => if d.inReset == .cold then d else { d with now := d.now + 1 })
    (s.hif.fenced = [] → step s = .next later) ∧
    (∀ (i : Instr) (rest : List Instr), takeFenced later s.hif.fenced = some (i, rest) →
      step s = .next { modHif later (fun f => { f with fenced := rest }) with pending := [i] }) ∧
    (takeFenced later s.hif.fenced = none → step s = .next later)

/-- Every command answers a next state in every state (assumption 1). -/
def Obligations.EveryCommandAnswersNext : Prop :=
  ∀ (c : Instr) (s : State), ∃ t, exec c s = .next t

/-- The way of a descriptor to its meaning. One that has not been fetched, that has started already, or whose opcode byte is
another's changes nothing. One whose turn in its ring has not come, or that FENCE holds back, joins those that wait (R279).
Reserved flag bits, and a host address that its opcode does not use, complete it with BAD_FIELD before its own checks
(R280). Its packet may be lost on the way, and a SHUT service port bounces it: it completes with SHUTTERED (R20, R249). A
descriptor whose opcode no chapter lists completes with NOT_SUPPORTED when its turn comes (R280, R294). -/
def Obligations.DescriptorsThatDoNotStart : Prop :=
  (∀ (i : Instr) (op : Nat) (q : Req) (s : State), i.request = some (op, q) → (∀ o, i ≠ .reservedOpcode o q) →
     (openOf q s = none → exec i s = .next s) ∧
     (∀ o : OpenDesc, openOf q s = some o → (o.started = true ∨ q.d.op.toNat ≠ op) → exec i s = .next s) ∧
     (∀ o : OpenDesc, openOf q s = some o → o.started = false → q.d.op.toNat = op → mustWait q o s = true →
       exec i s = .next (parkDesc i s)) ∧
     (∀ o : OpenDesc, openOf q s = some o → o.started = false → q.d.op.toNat = op → mustWait q o s = false →
       (badCommon q = true → exec i s = .next (complete q .badField (commonResult q) (markStarted q s))) ∧
       (∀ u : State, badCommon q = false → sendDesc q (markStarted q s) = .lost u → exec i s = .next u) ∧
       (∀ u : State, badCommon q = false → sendDesc q (markStarted q s) = .bounced u → exec i s = .next (complete q .shuttered 0 u)))) ∧
  (∀ (op : Byte) (q : Req) (s : State), mayStart q s = true → reservedOp op = true → q.d.op = op →
     exec (.reservedOpcode op q) s = .next (complete q .notSupported 0 (markStarted q s)))

/-- What a completion writes: the 16 bytes of R281 (tag, status, phase, context, result) at the next place of the bound
completion ring, with the phase that its pass of the ring has; the descriptor leaves the ring's fetched ones and its reserved place is
given back. Hypotheses: the ring is live, the completion ring is a pool ring not in ERROR, and the write succeeds. -/
def Obligations.CompletionRecordIsWritten : Prop :=
  ∀ (q : Req) (st : Machine.Status) (res : Nat) (s : State) (c d : Nat) (x y : Ring),
    q.ring = some (BitVec.ofNat 16 c) → c < 65536 → d < 65536 → c ≠ d →
    mfind s.hif.rings c = some x → x.owner = q.host → q.seq ∈ x.inflight → x.bound = some (BitVec.ofNat 16 d) →
    mfind s.hif.rings d = some y → y.error = false → y.noWrite = false → q.io.recOk = true → y.irq = false →
    let t := complete1 q st res s
    t.hif.writes = s.hif.writes ++ [HostWrite.mk y.owner (y.base + BitVec.ofNat 64 (16 * (y.count % 2 ^ y.log2)))
      (leBytes 4 q.d.tag.toNat ++ [BitVec.ofNat 8 (statusCode st), if (y.count / 2 ^ y.log2) % 2 = 0 then 1 else 0] ++
        leBytes 2 c ++ leBytes 8 res)] ∧
    (∃ y', mfind t.hif.rings d = some y' ∧ y'.count = y.count + 1 ∧ y'.reserved = y.reserved - 1) ∧
    (∃ x', mfind t.hif.rings c = some x' ∧ x'.inflight = x.inflight.erase q.seq)

/-- A completion changes only the host interface, events that wait for the recorder, and bindings to rings that it lets go: while no
RING_DELETE waits, tiles, casements, device, loader, hub, journal and stream port are unchanged (R281). -/
def Obligations.CompletionFrame : Prop :=
  ∀ (q : Req) (st : Machine.Status) (res : Nat) (s : State),
    (∀ p ∈ s.hif.rings, p.2.deleting = none) →
    let t := complete q st res s
    t.tiles = s.tiles ∧ t.cases = s.cases ∧ t.dev = s.dev ∧ t.load = s.load ∧ t.hub = s.hub ∧ t.jnl = s.jnl ∧
    t.bsp = s.bsp ∧ t.fresh = s.fresh ∧ t.pending = s.pending ∧ t.hif.assign = s.hif.assign ∧
    t.hif.steward = s.hif.steward ∧ t.hif.ready = s.hif.ready ∧ t.hif.fetched = s.hif.fetched ∧
    t.rcd.slots = s.rcd.slots ∧ t.rcd.notify = s.rcd.notify

/-! ### Hosts, registers and rings (spec/11_host_rings.md) -/

/-- EN, QUIESCE, READY and the resets of hosts (R266, R269, R270, R293, R435). A FUNCTION reset leaves the host with the
set-up registers of a cold reset (R293). -/
def Obligations.HostControlEventsTakeEffect : Prop :=
  ((∀ (h : HostId) (s : State), (getHost s h).en = false → hostReach s h = true → s.hif.ready = false →
     exec (.hostEnable h) s = .next (modHost s h (fun x => { x with en := true }))) ∧
   (∀ (h : HostId) (s : State), (getHost s h).en = false → hostReach s h = true → s.hif.ready = true →
     (getHost s h).active = false →
     4 ≤ (getHost s h).sqSize.toNat → (getHost s h).sqSize.toNat ≤ 16 →
     4 ≤ (getHost s h).cqSize.toNat → (getHost s h).cqSize.toNat ≤ 16 →
     (getHost s h).sqBase ≠ 0 → (getHost s h).cqBase ≠ 0 → (getHost s h).dbRoot ≠ 0 →
     ∃ t, exec (.hostEnable h) s = .next t ∧ (getHost t h).en = true ∧ (getHost t h).active = true ∧
       (getHost t h).adminSq = some (Ring.fresh .submission h (getHost s h).sqSize.toNat (getHost s h).sqBase 0) ∧
       (getHost t h).adminCq = some (Ring.fresh .completion h (getHost s h).cqSize.toNat (getHost s h).cqBase 1) ∧
       (getHost t h).interval = (getHost s h).poll.toNat ∧ (getHost t h).rootSeen = 0 ∧
       (getHost t h).dbBase = (getHost s h).dbRoot ∧
       t.rcd.posted = s.rcd.posted ++ [mkEv s 0x401 4 (evArg h.val 0 0) false]) ∧
   (∀ (h : HostId) (s : State), (getHost s h).en = false → hostReach s h = true → s.hif.ready = true →
     (getHost s h).active = false → (getHost s h).dbRoot = 0 → (getHost s h).fault.getLsbD 0 = false →
     (getHost s h).msixFault.getLsbD 7 = false →
     ∃ t, exec (.hostEnable h) s = .next t ∧ (getHost t h).en = true ∧ (getHost t h).active = false ∧
       (getHost t h).fault = setBit (getHost s h).fault 0 true ∧
       t.rcd.posted = s.rcd.posted ++ [mkEv s 0x402 4 (evArg h.val 0 0) false]) ∧
   (∀ (h : HostId) (s : State), (getHost s h).en = true → hostReach s h = true →
     exec (.hostDisable h) s = .next (disableHost s h)) ∧
   (∀ (h : HostId) (s : State), hostReach s h = true →
     exec (.quiesce h) s = .next (settleQuiesced (modHost s h (fun x => { x with quiesce := true })) h)) ∧
   (∀ (h : HostId) (s : State), hostReach s h = true →
     exec (.quiesceClear h) s =
       .next (serveRings (settleQuiesced (modHost s h (fun x => { x with quiesce := false })) h) h)) ∧
   (∀ s : State, s.hif.ready = false → s.dev.inReset = .none → s.dev.svc = .on → (∀ h : HostId, (getHost s h).en = false) →
     exec .deviceReady s = .next (modHif s (fun f => { f with ready := true }))) ∧
   (∀ (h : HostId) (s : State), hostReach s h = true →
     exec (.functionReset h) s = .next (post (resetHost 1 s h) 0x001 0 4 h.val 0)) ∧
   (∀ s : State, hostReach s 0 = true →
     exec (.portReset false) s =
       .next (post (resetHost 2 (resetHost 2 (resetHost 2 (resetHost 2 s 0) 1) 2) 3) 0x001 0 3 0xFF 0)) ∧
   (∀ s : State, hostReach s 4 = true →
     exec (.portReset true) s =
       .next (post (resetHost 2 (resetHost 2 (resetHost 2 (resetHost 2 s 4) 5) 6) 7) 0x001 0 3 0xFF 0)) ∧
   (∀ s : State, s.dev.vsd = true → s.dev.inReset = .none → s.dev.pcieA = .on →
     exec .serdesSupplyLoss s =
       .next (linkLost (portReset (portReset (modDev s (fun d => { d with vsd := false })) false) true) 1)) ∧
   (∀ s : State, exec .serdesSupplyReturn s = .next (modDev s (fun d => { d with vsd := true })))) ∧
  (∀ (h : HostId) (s : State), hostReach s h = true →
     ∃ t, exec (.functionReset h) s = .next t ∧ getHost t h = HostSt.cold)

/-- A write of 64 bits at an aligned offset of BAR0, SET_HOSTCTL apart, stores the register's writable bits: every field
of R265 by its own clause; reserved and read-only offsets take nothing (R264, R265). -/
def Obligations.RegisterWriteStoresFields : Prop :=
  ∀ (h : HostId) (s : State) (v : BitVec 64), hostReach s h = true → (getHost s h).pba = 0 →
    let x := getHost s h
    let w := fun (off : Fin 65536) (y : HostSt) => exec (.registerWrite h off true v) s = .next (setHost s h y)
    w 0x10 { x with sqBase := BitVec.ofNat 64 (v.toNat / 64 * 64) } ∧
    w 0x18 { x with sqSize := BitVec.ofNat 5 v.toNat } ∧
    w 0x20 { x with cqBase := BitVec.ofNat 64 (v.toNat / 64 * 64) } ∧
    w 0x28 { x with cqSize := BitVec.ofNat 5 v.toNat } ∧
    w 0x30 { x with dbRoot := BitVec.ofNat 64 (v.toNat / 4096 * 4096) } ∧
    w 0x38 { x with
      poll := if v.toNat % 2 ^ 17 = 0 then 1 else if 131070 < v.toNat % 2 ^ 17 then 131070 else BitVec.ofNat 17 v.toNat,
      backoffDis := v.getLsbD 17 } ∧
    w 0x48 { x with fault := x.fault &&& ~~~ BitVec.ofNat 4 v.toNat } ∧
    exec (.registerWrite h 0x50 true v) s =
      .next (signalDue (setHost s h { x with msixAdmin := msixAdminStored v.toNat }) (.adminCq h)) ∧
    w 0x58 { x with msixFault := BitVec.ofNat 8 v.toNat &&& 0xBF } ∧
    (∀ off : Fin 65536, off.val % 8 = 0 →
      (off.val = 0 ∨ off.val = 0x40 ∨ (0x60 ≤ off.val ∧ off.val < 0x8000) ∨ 0x8400 ≤ off.val) → w off x)

/-- A doorbell poll of an ACTIVE host. Where the root word reads as last seen, the poll is idle: it counts and sets the
interval of R275. Where the root cannot be read, DB_ERR is set, HOST_DB_READ_ERROR is posted once per episode, and the host
is polled every 1 ms (R276). Where it has changed and every read succeeds, the words of the changed groups are acted on and
the values read are recorded (R273). The interval after one more idle poll: SET_POLL up to 1,000 idle polls, then doubling
up to 1 ms, and SET_POLL throughout where it is 1 ms or more or BACKOFF_DIS is 1 (R275; units of 0.5 µs).
MSIX_MOD_TIME_EXPIRY: a live pool ring of the host with counting entries not yet signalled, MOD_TIME not 0 and IRQ_EN set
signals its vector, and the count of entries since its last signal is 0 again; one with IRQ_EN 0 signals nothing (R286). -/
def Obligations.DoorbellPollsTakeEffect : Prop :=
  (∀ (h : HostId) (rd : PollReads) (s : State), (getHost s h).active = true →
     let s1 := takeReach s h rd
     let x := getHost s1 h
     (readRoot x rd = some x.rootSeen → exec (.doorbellPoll h rd) s = .next (setHost s1 h { x with
       idle := x.idle + 1, interval := idleInterval x, dbEpisode := false })) ∧
     (readRoot x rd = none → ∃ t, exec (.doorbellPoll h rd) s = .next t ∧ (getHost t h).fault.getLsbD 1 = true ∧
       (getHost t h).interval = 2000 ∧ (getHost t h).dbEpisode = true ∧ t.hif.rings = s1.hif.rings ∧
       t.rcd.posted = s.rcd.posted ++ (if (getHost s h).dbEpisode then [] else [mkEv s 0x404 4 (evArg h.val 0 0) false])) ∧
     (∀ (root : BitVec 64) (gs : List (BitVec 64)) (l : List (Nat × List (BitVec 32))), readRoot x rd = some root →
       root ≠ x.rootSeen → readGroupWords x rd = some gs → readGroups x rd (changedGroups x gs) = some l →
       exec (.doorbellPoll h rd) s = .next (serveRings (l.foldl (fun s p => takeGroup h s p.1 p.2) (setHost s1 h { x with
         rootSeen := root, groupsSeen := gs.zipIdx.map (fun p => (p.2, p.1)), idle := 0, interval := x.poll.toNat,
         dbEpisode := false })) h))) ∧
  (∀ x : HostSt,
     (2000 ≤ x.poll.toNat ∨ x.backoffDis = true → idleInterval x = x.poll.toNat) ∧
     (x.poll.toNat < 2000 → x.backoffDis = false → x.idle < 1000 → idleInterval x = x.poll.toNat) ∧
     (x.poll.toNat < 2000 → x.backoffDis = false → 1000 ≤ x.idle → idleInterval x = min 2000 (2 * x.interval))) ∧
  (∀ (h : HostId) (c : BitVec 16) (x : Ring) (s : State), mfind s.hif.rings c.toNat = some x → x.owner = h →
     x.kind ≠ .submission → 0 < x.unsignalled → x.modTime ≠ 0 →
     (x.irq = true → exec (.msixModTimeExpiry h (some c)) s = .next (signalVector
       (modHif s (fun f => { f with rings := mset f.rings c.toNat { x with unsignalled := 0 } })) h x.vector.toNat)) ∧
     (x.irq = false → exec (.msixModTimeExpiry h (some c)) s = .next s))

/-- Ring descriptors and NOP: what each completes with and changes where its checks pass (R292 to R298). RING_CREATE on a
context that the host does not own is REFUSED_OWNERSHIP; a context that is live is BUSY (R297). -/
def Obligations.RingDescriptorsTakeEffect : Prop :=
  (∀ (q : Req) (s0 s : State), Begins q s0 s →
   (dirty shNop q = false → q.d.op = 0x00 → exec (.nop q) s0 = .next (complete q .ok s.dev.now.toNat s)) ∧
   (ownsContext q (dW16 q.d 32) s = true → badRingCreate q = false → (dByte q.d 28 = 0 → boundOk q s = true) →
     (∀ p ∈ s.hif.rings, p.2.owner = q.host → (p.2.notice && (newRing q).notice) = false ∧ p.2.word ≠ dW16 q.d 30) →
     mfind s.hif.rings (dW16 q.d 32) = none →
     q.d.op = 0x01 → exec (.ringCreate q) s0 = .next (complete q .ok 0
       (modHif s (fun f => { f with rings := mset f.rings (dW16 q.d 32) (newRing q) })))) ∧
   (∀ r : Ring, ownsContext q (dW16 q.d 32) s = true → dirty shRingDelete q = false →
     s.hif.rings.any (fun p => p.2.kind == .submission && p.2.bound == some (BitVec.ofNat 16 (dW16 q.d 32))) = false →
     mfind s.hif.rings (dW16 q.d 32) = some r →
     (r.kind ≠ .submission → q.d.op = 0x02 → exec (.ringDelete q) s0 = .next (complete q .ok 0 (clearContext s (dW16 q.d 32)))) ∧
     (r.kind = .submission → r.deleting = none →
       q.d.op = 0x02 → exec (.ringDelete q) s0 = .next (
         let s1 := modHif s (fun f => { f with rings := mset f.rings (dW16 q.d 32) { r with deleting := some q } })
         sweepDeletes s1.hif.rings.length s1))) ∧
   (∀ r : Ring, ownsContext q (dW16 q.d 32) s = true → dirty shRingModerate q = false → dByte q.d 37 ≠ 0 →
     mfind s.hif.rings (dW16 q.d 32) = some r → r.kind ≠ .submission →
     q.d.op = 0x03 → exec (.ringModerate q) s0 = .next (complete q .ok 0 (signalDue (modHif s (fun f => { f with
       rings := mset f.rings (dW16 q.d 32) { r with
         vector := BitVec.ofNat 6 (dByte q.d 36), irq := (dByte q.d 36).testBit 7, modCount := dByte q.d 37,
         modTime := BitVec.ofNat 16 (dW16 q.d 38) } })) (.pool (dW16 q.d 32))))) ∧
   (ownsContext q (dW16 q.d 32) s = true → dirty shRingQuery q = false → 32 ≤ q.d.length.toNat → q.io.bufOk = true →
     q.d.op = 0x04 → exec (.ringQuery q) s0 = .next (complete q .ok 0
       (hostWrite s q.host q.d.addrA (ringQueryBytes (mfind s.hif.rings (dW16 q.d 32)))))) ∧
   (∀ h : HostId, isSteward q s = true → dirty shRingAssign q = false → dByte q.d 28 = h.val → 1 ≤ dW32 q.d 36 →
     dW16 q.d 32 + dW32 q.d 36 ≤ 65536 → s.hif.rings = [] →
     q.d.op = 0x05 → exec (.ringAssign q) s0 = .next (complete q .ok (movingContexts s (dW16 q.d 32) (dW32 q.d 36) (some h)).length
       (modHif s (fun f => { f with assign := (dW16 q.d 32, dW32 q.d 36, some h) :: f.assign })))) ∧
   (∀ h : HostId, isSteward q s = true → dirty shHandover q = false → dByte q.d 28 = h.val → h ≠ q.host →
     (getHost s h).active = true → (getHost s h).accept = true →
     q.d.op = 0x06 → exec (.stewardHandover q) s0 = .next (complete q .ok 0
       (post (modHif s (fun f => { f with steward := h })) 0x407 4 q.host.val h.val 0))) ∧
   (dirty shHostStatus q = false → 64 ≤ q.d.length.toNat → q.io.bufOk = true →
     q.d.op = 0x07 → exec (.hostStatus q) s0 = .next (complete q .ok 0 (hostWrite s q.host q.d.addrA (hostStatusBytes s))))) ∧
  (∀ (q : Req) (s0 s : State), Begins q s0 s →
     (ownsContext q (dW16 q.d 32) s = false → q.d.op = 0x01 → exec (.ringCreate q) s0 = .next (complete q .refusedOwnership 0 s)) ∧
     (ownsContext q (dW16 q.d 32) s = true → badRingCreate q = true → q.d.op = 0x01 → exec (.ringCreate q) s0 = .next (complete q .badField 0 s)) ∧
     (∀ r : Ring, ownsContext q (dW16 q.d 32) s = true → badRingCreate q = false → dByte q.d 28 = 1 →
       mfind s.hif.rings (dW16 q.d 32) = some r → q.d.op = 0x01 → exec (.ringCreate q) s0 = .next (complete q .busy 0 s)))

/-! ### Emulated cycles (spec/02_boolean_processors.md, spec/03_emulated_cycles.md) -/

/-- A step edge of a tile that runs its programme: the step executes when no due bundle is missing (R26) and is withheld and
counted as an import stall when one is (R81). A fault that the step's reads find in a store is handled as R57 says: a
corrected row is counted and the step goes on, any other stops the tile. The steps at a barrier, up to the eighth, pass one
by one, and the eighth ends the scrub of one unit (R55, R84). -/
def Obligations.ProgrammeStepTakesEffect : Prop :=
  ∀ (t : TileId) (s : State) (c : Nat) (k : Casement), caseOfTile s t = some (c, k) → k.st = .running → k.pwr = .run →
    (getTile s t).ctl.failSilent = false → clkSteps (getTile s t).cyc.clk = true →
    ((getTile s t).cyc.phase = .stepping →
      (importAwaited (getTile s t) (getTile s t).cyc.step = none →
        exec (.programmeStep t []) s = .next (runStep s t) ∧
        (∀ f : StoreFault, stepFinds { getTile s t with bp := readsDue (getTile s t).bp (getTile s t).cyc.step }
            (getTile s t).cyc.step f = true →
          (∀ u : StoreUnit, f = .corrected u → exec (.programmeStep t [f]) s = .next (runStep (postFault t s f) t)) ∧
          ((∀ u : StoreUnit, f ≠ .corrected u) →
            exec (.programmeStep t [f]) s = .next (goSilent (postFault t s f) t 1)))) ∧
      (∀ e : Nat, importAwaited (getTile s t) (getTile s t).cyc.step = some e →
        exec (.programmeStep t []) s = .next (importStall s t))) ∧
    ((getTile s t).cyc.phase = .barrier → (getTile s t).cyc.barrier < 8 →
      exec (.programmeStep t []) s = .next (
        let passed := modCyc (modCyc s t (fun y => { y with closeEdges := if y.closeSig then min 2 (y.closeEdges + 1) else 0 })) t
          (fun y => { y with barrier := y.barrier + 1, stallSince := none, stallPosted := false })
        if (getTile s t).cyc.barrier = 7 then modBp passed t scrubUnitDone else passed))

/-- The step counter: an executed step adds 1 to it, and after step D - 1 the tile has arrived; no other tile, no casement,
no host and no device state changes, and the tile's own configuration, pins, analogue cells, converters, timers and fabric
stay as they were (R26, R84). Emulated memory at a step: every byte outside the words that the step's write accesses name
reads as before (R44, R48). The accesses are those that the step computes, from the tile with the imports landed and the
reads due delivered. -/
def Obligations.ProgrammeStepFrame : Prop :=
  (∀ (t : TileId) (s : State) (c : Nat) (k : Casement), caseOfTile s t = some (c, k) → k.st = .running → k.pwr = .run →
     (getTile s t).ctl.failSilent = false → clkSteps (getTile s t).cyc.clk = true → (getTile s t).cyc.phase = .stepping →
     importAwaited (getTile s t) (getTile s t).cyc.step = none →
     ∃ u, exec (.programmeStep t []) s = .next u ∧
       (getTile u t).cyc.step = (getTile s t).cyc.step + 1 ∧
       (getTile u t).cyc.cycle = (getTile s t).cyc.cycle ∧
       (getTile u t).cyc.phase = (if k.depth ≤ (getTile s t).cyc.step + 1 then .barrier else .stepping) ∧
       (getTile u t).bp.outB = (getTile s t).bp.outB ∧ (getTile u t).bp.inB = (getTile s t).bp.inB ∧
       (getTile u t).cfg = (getTile s t).cfg ∧ (getTile u t).fab = (getTile s t).fab ∧
       (getTile u t).pin = (getTile s t).pin ∧ (getTile u t).an = (getTile s t).an ∧
       (getTile u t).cv = (getTile s t).cv ∧ (getTile u t).ct = (getTile s t).ct ∧
       (getTile u t).cal = (getTile s t).cal ∧ (getTile u t).ctl = (getTile s t).ctl ∧
       (∀ v : Nat, v ≠ t → getTile u v = getTile s v) ∧ u.cases = s.cases ∧ u.dev = s.dev ∧ u.hif = s.hif ∧
       u.bsp = s.bsp ∧ u.load = s.load ∧ u.jnl = s.jnl ∧ u.rcd = s.rcd ∧ u.pending = s.pending) ∧
  (∀ (t : TileId) (s : State) (c : Nat) (k : Casement) (a : Nat), caseOfTile s t = some (c, k) → k.st = .running → k.pwr = .run →
     (getTile s t).ctl.failSilent = false → clkSteps (getTile s t).cyc.clk = true → (getTile s t).cyc.phase = .stepping →
     importAwaited (getTile s t) (getTile s t).cyc.step = none →
     let x0 := landDue (getTile s t) (getTile s t).cyc.step
     let x := { x0 with bp := readsDue x0.bp x0.cyc.step }
     (∀ acc ∈ stepAccesses x x0.cyc.step (stepResults x x0.cyc.step), acc.write = true →
       ¬ (8192 * acc.block + 4 * acc.word ≤ a ∧ a < 8192 * acc.block + 4 * acc.word + 4)) →
     ∃ u, exec (.programmeStep t []) s = .next u ∧
       memGet zeroes (getTile u t).bp.emem a = memGet zeroes (getTile s t).bp.emem a)

/-- Toggles at a barrier hub: ARRIVE of a tile in the mask that waits, SECTOR_DONE, and the two faults of R88 (R84). A
barrier fault asserts HOLD and posts BARRIER_FAULT; a casement that is paused, or that stands between a close and a release,
is HELD (R88). Hypotheses: the casement is paused and no epoch change waits. -/
def Obligations.BarrierEventsTakeEffect : Prop :=
  (∀ (hub : SectorId) (c : CaseId) (s : State) (k : Casement), getCase s c = some k →
     (∀ t : TileId, sectorOf t = hub.val → k.chan.mask.getLsbD t = true → (getTile s t).cyc.phase = .barrier →
       (getTile s t).cyc.closeSig = false →
       exec (.gather hub c (.arrive t)) s = .next (hubClose (setCase s c { k with
         chan := { k.chan with arrived := setBit k.chan.arrived t true } }) c hub)) ∧
     (∀ t : TileId, sectorOf t = hub.val → k.chan.mask.getLsbD t = false →
       exec (.gather hub c (.arrive t)) s = .next (barrierFault s c hub (t.val % 24))) ∧
     (∀ j : SectorId, j ≠ hub → sectorDoneNow s k hub j = true →
       exec (.gather hub c (.sectorDone j)) s = .next (hubClose (setCase s c { k with
         chan := { k.chan with done := setBit k.chan.done (doneBit hub j) true } }) c hub)) ∧
     (∀ i : BitVec 16, 24 ≤ i.toNat → i.toNat < 48 →
       exec (.gather hub c (.dualRail i)) s = .next (barrierFault s c hub i.toNat))) ∧
  (∀ (c hub wire : Nat) (s : State) (k : Casement), getCase s c = some k → k.st = .paused →
     ∃ u, barrierFault s c hub wire = settleFaultN (epochSettle u) ∧
       getCase u c = some { k with chan := { k.chan with fault := true }, st := .held } ∧
       u.tiles = s.tiles ∧ u.rcd.posted = s.rcd.posted ++ [mkEv s 0x686 3 (evArg hub c wire) false])

/-- A tile that has passed its eighth barrier step and whose CLOSE has stood for two edges closes its cycle; a closed tile
that neither HOLD nor the pace keeps releases the next once any new N that is due has been taken; one that HOLD or the pace
keeps waits (R22, R84, R86, R96). A released tile stands at step 0 of its cycle. -/
def Obligations.LintelsTakeEffect : Prop :=
  (∀ (t : TileId) (c : Nat) (k : Casement) (s : State), tileIn s t .barrier = true → 8 ≤ (getTile s t).cyc.barrier →
    (getTile s t).cyc.closeSig = true → 2 ≤ (getTile s t).cyc.closeEdges → clkSteps (getTile s t).cyc.clk = true →
    caseOfTile s t = some (c, k) → exec (.lintelClose t) s = .next (closeTile s c t)) ∧
  (∀ (t : TileId) (c : Nat) (k : Casement) (s : State), tileIn s t .closed = true →
    clkSteps (getTile s t).cyc.clk = true → caseOfTile s t = some (c, k) →
    let n := (getTile s t).cyc.cycle + 1
    (heldAt s k t (getTile s t).cyc.cycle.toNat = true → exec (.lintelRelease t) s = .next s) ∧
    (heldAt s k t (getTile s t).cyc.cycle.toNat = false →
      (∀ v : Nat, newRate k (getTile s t) n.toNat = some v →
        exec (.lintelRelease t) s = .next (modCyc s t (fun y => { y with clk := .locking, clkN := v }))) ∧
      (newRate k (getTile s t) n.toNat = none →
        (paceWait s k t n = true → exec (.lintelRelease t) s = .next s) ∧
        (paceWait s k t n = false → firstToRelease s k t n = false →
          exec (.lintelRelease t) s = .next (lastRelease (releaseTile s c t n) c n)) ∧
        (paceWait s k t n = false → firstToRelease s k t n = true → k.replay = none →
          exec (.lintelRelease t) s = .next (lastRelease (releaseTile (modCase s c (fun k => { k with
            chan := { k.chan with lastRelease := s.dev.now } })) c t n) c n))))) ∧
  (∀ (s : State) (c t : Nat) (n : BitVec 64) (k : Casement), getCase s c = some k → s.hub.epoch = none → s.hub.promo = none →
    (getTile (releaseTile s c t n) t).cyc.phase = .stepping ∧ (getTile (releaseTile s c t n) t).cyc.step = 0 ∧
    (getTile (releaseTile s c t n) t).cyc.cycle = n ∧ (getTile (releaseTile s c t n) t).cyc.closeSig = false)

/-- Everything that R35 sets to 0 before step 0 is 0; the emulated flip-flops, emulated memory and boundary vectors are
kept (R35). -/
def Obligations.CycleStateIsCleared : Prop :=
  ∀ (d : Nat) (x : Tile),
    let y := clearCycle d x
    y.bp.clusterLane = 0 ∧ y.bp.tileLane = 0 ∧ y.bp.tileNext = 0 ∧ y.bp.importLane = 0 ∧ y.bp.portAddr = 0 ∧
    y.bp.portData = 0 ∧ y.bp.portRead = 0 ∧ y.bp.reads = [] ∧ y.bp.assembly = [] ∧ y.bp.digest = 0 ∧
    y.bp.emem = x.bp.emem ∧ y.bp.inB = x.bp.inB ∧ y.bp.outB = x.bp.outB ∧ y.bp.staging = x.bp.staging ∧
    y.cfg = x.cfg ∧ y.fab = x.fab ∧ y.pin = x.pin ∧ y.cv = x.cv ∧
    (∀ b i : Nat, i < 384 → (mget 0 (ffSlots x d) b).getLsbD i = false → (mget 0 y.bp.slots b).getLsbD i = false)

/-- A bundle that its tile's port holds is taken while there is room, which frees the port for the next packet: a simplex
sender's is checked and buffered (R79, R80). A packet that names no tile as its sender is discarded as BUNDLE_UNEXPECTED
(log entry 23). R79: a bundle that its import entry expects is buffered; any other is discarded, counted and posted as
BUNDLE_UNEXPECTED. -/
def Obligations.BundlesAreCheckedAndBuffered : Prop :=
  (∀ (t : TileId) (p : Packet) (s : State), (getTile s t).net.ejectQ.contains p = true → bundleRoom (getTile s t).cyc = true →
     let s1 := routerSettle (modNet s t (fun r => { r with ejectQ := r.ejectQ.erase p })) t
     (∀ b : Bundle, parseBundle p = some b →
       bothLive (roleEntry (rtBank (getTile s1 t).net (p.hdr.getLsbD 50)) (bitsOf p.hdr.toNat 24 8)) = false →
       exec (.bundleArrival t p) s = .next (bufferBundle s1 t (bitsOf p.hdr.toNat 24 8) b)) ∧
     (parseBundle p = none → exec (.bundleArrival t p) s = .next (postTile (modCyc s1 t (fun y =>
       { y with unexpected := bump y.unexpected })) t 0x682 1 t (caseByte s t) (byteAt p.data 0)))) ∧
  (∀ (t role : Nat) (b : Bundle) (s : State),
     let x := getTile s t
     let w := importWord x b.imp
     let n := x.cyc.cycle.toNat
     let good := x.cyc.phase ≠ .idle ∧ w.testBit 49 = true ∧ recBits w 18 9 = b.octets ∧ recBits w 41 8 = role ∧
       (b.tag.toNat = n % 2 ^ 32 ∨ b.tag.toNat = (n + 1) % 2 ^ 32) ∧
       (∀ d ∈ x.cyc.bundles, ¬ (d.imp = b.imp ∧ d.tag = b.tag)) ∧
       ¬ (b.tag.toNat = n % 2 ^ 32 ∧ b.imp ∈ x.cyc.landed)
     (good → bufferBundle s t role b = modCyc s t (fun y => { y with bundles := y.bundles ++ [b] })) ∧
     (¬ good → bufferBundle s t role b =
       postTile (modCyc s t (fun y => { y with unexpected := bump y.unexpected })) t 0x682 1 t (caseByte s t) b.imp))

/-- Stalls, clock generators, configuration scan and the controller's watchdog: what each event does where its cause is in
the state (R71, R82, R122, R363, R365, R24). -/
def Obligations.TileClockEventsTakeEffect : Prop :=
  (∀ (t : TileId) (s : State), stallOver s t = true → (getTile s t).cyc.stallPosted = false →
    exec (.stallTimeout t) s = .next (postTile (modCyc s t (fun y =>
      { y with stallPosted := true, stallTimeouts := bump y.stallTimeouts })) t 0x681 1 t (caseByte s t) (currentStep s t))) ∧
  (∀ s : State, s.dev.sysref = true →
    exec .sysrefLoss s = .next (settleFaultN (allTiles.foldl enterHoldover (modDev s (fun d => { d with sysref := false }))))) ∧
  (∀ s : State, exec .sysrefReturn s =
    .next (settleFaultN (modDev (allTiles.foldl leaveHoldover s) (fun d => { d with sysref := true })))) ∧
  (∀ (t : TileId) (s : State), (getTile s t).dom.tk = .on → clkSteps (getTile s t).cyc.clk = true →
    exec (.generatorUnlock t) s = .next (settleFaultN (postTile (modCyc (rebaseTmrs s t) t (fun y =>
      { y with clk := .unlocked, unlockedAt := s.dev.now })) t 0x683 1 t (caseByte s t) (currentStep s t)))) ∧
  (∀ (t : TileId) (s : State), (getTile s t).cyc.clk = .unlocked → unlockedFor s t ≤ 1000000 →
    let locked := modCyc (rebaseTmrs s t) t (fun y => { y with clk := .locked })
    exec (.generatorRelock t) s = .next (settleFaultN (if s.dev.sysref then locked else enterHoldover locked t))) ∧
  (∀ (t : TileId) (s : State), (getTile s t).cyc.clk = .unlocked → 1000000 ≤ unlockedFor s t →
    exec (.clockFailed t) s = .next (settleFaultN (goSilent (postTile (modCyc (rebaseTmrs s t) t (fun y =>
      { y with clk := .failed })) t 0x684 1 t (caseByte s t) 0) t 2))) ∧
  (∀ (t : TileId) (q : Fin 16) (s : State), (getTile s t).dom.tk = .on → (getTile s t).dom.lf = .on →
    (getTile s t).ctl.restarting = false →
    exec (.configScan t q true) s = .next (modFab s t (fun y =>
      { y with scanPasses := if q.val = 15 then bump y.scanPasses else y.scanPasses })) ∧
    exec (.configScan t q false) s = .next (settleFaultN (goSilent (postTile (modFab s t (fun y =>
      { y with upsets := bump y.upsets })) t 0x702 1 t q 0) t 3))) ∧
  (∀ (t : TileId) (s : State), (getTile s t).dom.tk = .on → (getTile s t).ctl.watchdog = none →
    exec (.tcWatchdogExpiry t) s = .next (modCtl (modCtl s t (fun c => { c with watchdog := some s.dev.now })) t (fun c =>
      { c with restarting := true }))) ∧
  (∀ (t : TileId) (w : Time) (s : State), (getTile s t).dom.tk = .on → (getTile s t).ctl.watchdog = some w →
    (s.dev.now - w).toNat ≤ 1000000000 →
    exec (.tcWatchdogExpiry t) s = .next (settleFaultN (goSilent (modCtl s t (fun c => { c with watchdog := some s.dev.now })) t 4))) ∧
  (∀ (t : TileId) (s : State), (getTile s t).ctl.restarting = true → (getTile s t).ctl.activate = none →
    exec (.tcRestartDone t true) s = .next (tcBack s t)) ∧
  (∀ (t : TileId) (q : Req) (s : State), (getTile s t).ctl.restarting = true → (getTile s t).ctl.activate = some q →
    exec (.tcRestartDone t true) s = .next (complete q .ok (getTile s t).ctl.slotB.toNat
      (fwCount (modCtl (tcBack s t) t (fun c => { c with activate := none }))))) ∧
  (∀ (t : TileId) (c r m : Nat) (k : Casement) (s : State), caseOfTile s t = some (c, k) → roleIn (hubBank s) t = some r →
    (getTile s t).ctl.failSilent = true → retiring s t = false →
    (liveTiles (roleEntry (hubBank s) r)).filter (fun u => u != t.val && !(getTile s u).ctl.failSilent) = [m] →
    exec (.autoRetire t) s = .next (settleFaultN (epochSettle (requestEpoch
      (modCase (post s 0x205 3 t r (nextTenure (rtTenure (roleEntry (hubBank s) r)))) c (fun k => { k with lost := mset k.lost r t }))
      { why := .retire r t none, roles := [], avoid := none }))))

/-- Peeks and pokes of Boolean-processor state: a peek of a running tile waits for the close of its cycle, a poke for the
release of its cycle, both at the next available one here; a peek of a paused tile is served at once (R60 to R65, R99). A
poke of emulated memory changes the bytes of its words and no other; one of flip-flops changes no emulated memory (R63).
R62: a named cycle whose lintel has begun is OVERRUN, one more than 2^24 ahead is BAD_FIELD, and a tile holds at most 64
pokes (QUEUE_FULL); "next available" passes all three. -/
def Obligations.PeeksAndPokesTakeEffect : Prop :=
  (∀ (q : Req) (s0 s : State) (k : Casement), Begins q s0 s → NamesTile q k → (getTile s (dByte q.d 28)).ctl.failSilent = false →
   (Serves q .peek (some (dByte q.d 28)) k s → pausedTile s (dByte q.d 28) = false → dW64 q.d 40 = nextCycle →
     let queued := fun (kind : PeekKind) => modCyc s (dByte q.d 28) (fun y => { y with peeks := y.peeks ++
       [{ req := q, kind := kind, cyc := BitVec.ofNat 64 (openClose y) }] })
     (badBpFields q 512 = false → q.d.op = 0x30 → exec (.bpPeek q) s0 = .next (queued .bp)) ∧
     (badMemFields q = false → q.d.op = 0x32 → exec (.memPeek q) s0 = .next (queued .mem)) ∧
     (dirty shBoundary q = false → 64 ≤ q.d.length.toNat → q.d.op = 0x3B → exec (.boundaryPeek q) s0 = .next (queued .boundary))) ∧
   (Serves q .peek (some (dByte q.d 28)) k s → pausedTile s (dByte q.d 28) = true → dW64 q.d 40 = nextCycle →
     q.io.bufOk = true → badMemFields q = false →
     q.d.op = 0x32 → exec (.memPeek q) s0 = .next (complete q .ok (getTile s (dByte q.d 28)).cyc.cycle.toNat (hostWrite s q.host q.d.addrA
       (memGets zeroes (getTile s (dByte q.d 28)).bp.emem (8192 * dByte q.d 29 + 4 * dW16 q.d 32) (4 * dW16 q.d 34))))) ∧
   (Serves q .poke (some (dByte q.d 28)) k s → k.isolated = false → partnerOf s (dByte q.d 28) = none → q.io.bufOk = true →
     dW64 q.d 40 = nextCycle →
     let queued := fun (mem : Bool) => modCyc s (dByte q.d 28) (fun y => { y with pokes := y.pokes ++
       [{ req := q, mem := mem, cyc := BitVec.ofNat 64 (openRelease (getTile s (dByte q.d 28)).cyc), completes := true }] })
     (badBpFields q 384 = false → pokesFfs (getTile s (dByte q.d 28)) k.depth q = true →
       q.d.op = 0x31 → exec (.bpPoke q) s0 = .next (queued false)) ∧
     (badMemFields q = false → q.d.op = 0x33 → exec (.memPoke q) s0 = .next (queued true)))) ∧
  (∀ (b : BpState) (p : Poke) (a : Nat),
     let q := p.req
     (p.mem = true → ¬ (8192 * dByte q.d 29 + 4 * dW16 q.d 32 ≤ a ∧ a < 8192 * dByte q.d 29 + 4 * dW16 q.d 32 + 4 * dW16 q.d 34) →
       memGet zeroes (applyPoke b p).emem a = memGet zeroes b.emem a) ∧
     (p.mem = true → Memory.wf zeroes b.emem = true → ∀ i : Nat, i < 4 * dW16 q.d 34 → i < q.io.dataA.length →
       memGet zeroes (applyPoke b p).emem (8192 * dByte q.d 29 + 4 * dW16 q.d 32 + i) = q.io.dataA.getD i 0) ∧
     (p.mem = false → (applyPoke b p).emem = b.emem) ∧ (p.mem = true → (applyPoke b p).slots = b.slots) ∧
     (applyPoke b p).staging = b.staging ∧ (applyPoke b p).outB = b.outB ∧ (applyPoke b p).inB = b.inB) ∧
  (∀ named firstOpen current held : Nat,
     (named = nextCycle → firstOf (r62 named firstOpen current held) = none) ∧
     (named ≠ nextCycle → named < firstOpen → firstOf (r62 named firstOpen current held) = some .overrun) ∧
     (named ≠ nextCycle → firstOpen ≤ named → current + 2 ^ 24 < named →
       firstOf (r62 named firstOpen current held) = some .badField) ∧
     (named ≠ nextCycle → firstOpen ≤ named → named ≤ current + 2 ^ 24 →
       firstOf (r62 named firstOpen current held) = if 64 ≤ held then some .queueFull else none))

/-- Rate, pause and step: CYCLE_RATE and CYCLE_PAUSE wait for their release and close, CYCLE_STEP lets a paused casement go
on (R96 to R98). Figures of a tile: schedule, store and lintel status are copied to host address A; STORE_STATUS with CLEAR
also clears the counts (R66, R67, R100). -/
def Obligations.CycleDescriptorsTakeEffect : Prop :=
  (∀ (q : Req) (s0 s : State) (k : Casement), Begins q s0 s → Serves q .poke none k s →
   (badRate q = false → dW64 q.d 40 = nextCycle →
     q.d.op = 0x38 → exec (.cycleRate q) s0 = .next (modCase (markChanged s (dCase q.d)) (dCase q.d) (fun k => { k with
       rates := k.rates ++ [{ req := q, cyc := BitVec.ofNat 64 (overTiles q openRelease s) }] }))) ∧
   (dirty shPause q = false → k.pause = none → dW64 q.d 40 = nextCycle →
     q.d.op = 0x39 → exec (.cyclePause q) s0 = .next (setCase s (dCase q.d) { k with
       pause := some (BitVec.ofNat 64 (overTiles q openClose s), q) })) ∧
   (dirty shStep q = false → k.st = .paused → k.pwr = .run →
     (dW32 q.d 32 = 0 → q.d.op = 0x3A → exec (.cycleStep q) s0 = .next (settleFaultN (wakeRouters (setCase s (dCase q.d) { k with
       st := .running, chan := { k.chan with fault := false }, halt := !s.dev.sleepReq.isEmpty, resume := k.resume ++ [q] })))) ∧
     (dW32 q.d 32 ≠ 0 → q.d.op = 0x3A → exec (.cycleStep q) s0 = .next (settleFaultN (wakeRouters (setCase s (dCase q.d) { k with
       st := .running, chan := { k.chan with fault := false }, halt := !s.dev.sleepReq.isEmpty,
       stepTo := k.stepTo ++ [(BitVec.ofNat 64 (caseCycle k s + dW32 q.d 32), q)] })))))) ∧
  (∀ (q : Req) (s0 s : State) (k : Casement), Begins q s0 s → NamesTile q k → Serves q .peek (some (dByte q.d 28)) k s →
     64 ≤ q.d.length.toNat → q.io.bufOk = true →
     let t := dByte q.d 28
     let x := getTile s t
     (dirty shTileStatus q = false →
       q.d.op = 0x34 → exec (.scheduleInfo q) s0 = .next (complete q .ok 0 (hostWrite s q.host q.d.addrA (scheduleBytes x k)))) ∧
     (dirty shTileStatus q = false → q.d.op = 0x3C → exec (.lintelStatus q) s0 = .next (complete q .ok 0
       (hostWrite s q.host q.d.addrA (lintelBytes s t)))) ∧
     (dirty shTileClear q = false → (dByte q.d 29).testBit 0 = false →
       q.d.op = 0x35 → exec (.storeStatus q) s0 = .next (complete q .ok 0 (hostWrite s q.host q.d.addrA (storeBytes t x)))) ∧
     (dirty shTileClear q = false → (dByte q.d 29).testBit 0 = true →
       q.d.op = 0x35 → exec (.storeStatus q) s0 = .next (complete q .ok 0 (modTile (hostWrite s q.host q.d.addrA (storeBytes t x)) t
         (fun x => { x with bp := { x.bp with corrected := [], scrubPasses := 0 } })))))

/-! ### Logic fabric (spec/04_logic_fabric.md) -/

/-- Clock edges, port A accesses and clock restarts: what each does where its cause is in the state. At an edge every
flip-flop and every fabric RAM block whose active edge it is samples the levels before the edge; the access that a RAM block
took there is carried out from that sample (R103, R104, R115 to R118, R127). -/
def Obligations.FabricEventsTakeEffect : Prop :=
  (∀ (t : TileId) (ks : BitVec 4) (rising : Bool) (broken : List (Fin 2048)) (s : State), edgeClocks s t ks rising ≠ [] →
    exec (.fabricClockEdge t ks rising broken) s = .next (
      let es := edgeClocks s t ks rising
      let s1 := modFab s t (fun y => { y with level := es.foldl (fun l k => setBit l k rising) y.level })
      let s2 := clockCells s s1 t (fun v => es.contains (recBits v 136 3) && bitAt v 139 != rising) (broken.map (·.val))
      settleFabric s (clockRams s s2 t (fun _ w => es.contains (recBits w 3 3) && bitAt w 6 != rising)))) ∧
  (∀ (t : TileId) (q : Fin 16) (ups : List (Nat × Byte)) (meets : Bool) (broken : Option (Fin 32768)) (p : PortA) (s : State),
    let s0 := modFab s t (fun y => ramUpset y q ups)
    mfind (getTile s0 t).fab.portA q = some p →
    exec (.fabricRamPortAAccess t q ups meets broken) s = .next (settleFabric s0 (modFab
      (match broken with | none => portAAccess s0 t q p meets | some a => portABroken s0 t q p a) t
      (fun y => { y with portA := mdel y.portA q })))) ∧
  (∀ (t : TileId) (k : Fin 4) (q : Req) (s : State), mfind (getTile s t).fab.clkHold k = some q →
    exec (.fabricClockRestart t k) s = .next (nextClock (complete q .ok (25000 * dByte q.d 30 / dByte q.d 31)
      (modTile s t (fun x =>
        let x1 := cfgWrite (cfgWrite x 0x13 (4 * k) 1 (dByte q.d 30)) 0x13 (4 * k + 1) 1 (dByte q.d 31)
        { x1 with fab := { x1.fab with clkHold := mdel x1.fab.clkHold k } }))) t))

/-- Port A of a fabric RAM block reads the word at ADDR into its read data whether or not it writes; with WE = 0, or before
start-up enables writes, no byte of fabric RAM changes (R116, R341). Hypotheses: the access does not meet a port B write,
and the tile's controller is at work. Bytes of fabric RAM after one row of a port B write: the bytes that the access has for
that row read as written, and every other byte, and every other tile, reads as before (R117). A port B access moves its rows
in order, and the last one completes its descriptor with the byte count: a read has copied the bytes to host address A
(R117, R125). Hypothesis: the access is the only one of its tile. -/
def Obligations.FabricRamPorts : Prop :=
  (∀ (t q : Nat) (p : PortA) (s : State), (getTile s t).ctl.restarting = false →
     let x := getTile s t
     let w := ramWidth x q
     let a := p.addr.toNat % (32768 / w)
     let u := portAAccess s t q p false
     mget 0 (getTile u t).fab.readData q = BitVec.ofNat 32 (ramBits x.fab.ram q (a * w) w) ∧
     ((p.we = false ∨ x.fab.writesOn = false) → (getTile u t).fab.ram = x.fab.ram) ∧
     (getTile u t).bp = x.bp ∧ (getTile u t).cfg = x.cfg ∧ (getTile u t).fab.ffs = x.fab.ffs ∧ u.dev = s.dev ∧ u.cases = s.cases) ∧
  (∀ (t a : Nat) (p : PortB) (s : State), p.write = true →
     let n := min p.left (4 - p.pos % 4)
     let first := 4096 * p.block + p.pos
     let u := (portBRow s t p).1
     (¬ (first ≤ a ∧ a < first + n) → memGet zeroes (getTile u t).fab.ram a = memGet zeroes (getTile s t).fab.ram a) ∧
     (Memory.wf zeroes (getTile s t).fab.ram = true → ∀ i : Nat, i < n → i < p.data.length →
       memGet zeroes (getTile u t).fab.ram (first + i) = p.data.getD i 0) ∧
     (∀ v : Nat, v ≠ t → getTile u v = getTile s v) ∧
     (portBRow s t p).2 = { p with pos := p.pos + n, left := p.left - n, data := p.data.drop n }) ∧
  (∀ (t : Nat) (p : PortB) (s : State), (getTile s t).fab.portB = [p] →
     let m := portBRow s t p
     (4 - p.pos % 4 < p.left → portBStep s t = modFab m.1 t (fun y => { y with portB := [m.2] })) ∧
     (p.left ≤ 4 - p.pos % 4 → ∀ q : Req, p.req = some q →
       let done := modFab m.1 t (fun y => { y with portB := [] })
       (p.write = true → portBStep s t = complete q .ok (dW16 q.d 34) done) ∧
       (p.write = false → q.io.bufOk = true →
         portBStep s t = complete q .ok (dW16 q.d 34) (hostWrite done q.host q.d.addrA m.2.data))))

/-- Fabric descriptors: RAM reads and writes go through port B, one row after another with other fabric activity between,
the first row at once where no other access is under way; the status copy has its clear, and FABRIC_CLOCK holds its clock
low (R117, R125 to R127). -/
def Obligations.FabricDescriptorsTakeEffect : Prop :=
  ∀ (q : Req) (s0 s : State) (k : Casement), Begins q s0 s → NamesTile q k →
  let t := dByte q.d 28
  (Serves q .peek (some t) k s → badRamFields q = false →
    q.d.op = 0x78 → exec (.fabricRamRead q) s0 = .next (portBQueue s t
      { req := some q, write := false, block := dByte q.d 29, pos := dW16 q.d 32, left := dW16 q.d 34, data := [] })) ∧
  (Serves q .poke (some t) k s → badRamFields q = false → q.io.bufOk = true →
    q.d.op = 0x79 → exec (.fabricRamWrite q) s0 = .next (portBQueue s t
      { req := some q, write := true, block := dByte q.d 29, pos := dW16 q.d 32, left := dW16 q.d 34,
        data := padTo (dW16 q.d 34) (q.io.dataA.take (dW16 q.d 34)) })) ∧
  (Serves q .peek (some t) k s → dirty shFabStatus q = false → 64 ≤ q.d.length.toNat → q.io.bufOk = true →
    let copied := hostWrite s q.host q.d.addrA (fabricStatusBytes (getTile s t))
    ((dByte q.d 29).testBit 0 = false → q.d.op = 0x7A → exec (.fabricStatus q) s0 = .next (complete q .ok 0 copied)) ∧
    ((dByte q.d 29).testBit 0 = true → q.d.op = 0x7A → exec (.fabricStatus q) s0 = .next (complete q .ok 0 (modFab copied t
      (fun y => { y with parityCount := 0, collisions := 0, scanPasses := 0, upsets := 0 }))))) ∧
  (Serves q .poke (some t) k s → dirty shFabClock q = false → dByte q.d 29 ≤ 3 →
    badFclk (dByte q.d 30) (dByte q.d 31) = false → (fclkWord (getTile s t) (dByte q.d 29)).testBit 16 = true →
    ((getTile s t).fab.clkHold = [] → q.d.op = 0x7B → exec (.fabricClock q) s0 = .next (modFab (markChanged s (dCase q.d))
      t (fun y => { y with clkHold := mset y.clkHold (dByte q.d 29) q, level := setBit y.level (dByte q.d 29) false }))) ∧
    ((getTile s t).fab.clkHold ≠ [] → q.d.op = 0x7B → exec (.fabricClock q) s0 = .next (modFab (markChanged s (dCase q.d))
      t (fun y => { y with clkWait := y.clkWait ++ [q] }))))

/-! ### Pins (spec/05_pins.md) -/

/-- Pad, window and lock events (R135, R141, R142, R144). A second lock write that does not follow the first of the same pin
locks nothing and discards the sequence (R142). -/
def Obligations.PinEventsTakeEffect : Prop :=
  ((∀ (t : TileId) (n : Fin 12) (s : State), exec (.pinSwitchSettle t n) s =
     .next (settleFabric s (modPin s t (fun y => { y with switching := mdel y.switching n })))) ∧
   (∀ (t : TileId) (n : Fin 12) (d : PadDrive) (s : State), exec (.padInputChange t n d) s =
     .next (settleFabric s (modPin s t (fun y => { y with board := mset y.board n d })))) ∧
   (∀ (t : TileId) (m : BitVec 12) (w : BitVec 32) (s : State), ∃ u,
     exec (.pinWindowStore t m w) s = .next (settleFabric s u) ∧
     (∀ n : Nat, n < 12 →
       ((getTile u t).pin.outLatch.getLsbD n = if m.getLsbD n then w.getLsbD n else (getTile s t).pin.outLatch.getLsbD n) ∧
       ((getTile u t).pin.enLatch.getLsbD n =
         if m.getLsbD n && w.getLsbD 31 then w.getLsbD (16 + n) else (getTile s t).pin.enLatch.getLsbD n)) ∧
     (∀ v : Nat, v ≠ t → getTile u v = getTile s v) ∧ u.dev = s.dev ∧ u.cases = s.cases ∧ u.rcd = s.rcd) ∧
   (∀ (t : TileId) (w : BitVec 32) (p : BitVec 11) (s : State), w.toNat % 2 ^ 16 = 0x5A5A → bitsOf w.toNat 16 11 = p.toNat →
     p.toNat < 1728 → pinTile p.toNat = t.val →
     exec (.pinLockWrite t w) s = .next (modPin s t (fun y => { y with lockSeq := some p }))) ∧
   (∀ (t : TileId) (w : BitVec 32) (p : BitVec 11) (s : State), w.toNat % 2 ^ 16 = 0xA5A5 → bitsOf w.toNat 16 11 = p.toNat →
     p.toNat < 1728 → pinTile p.toNat = t.val → (getTile s t).pin.lockSeq = some p → pinLocked s p.toNat = false →
     exec (.pinLockWrite t w) s = .next (lockPin (modPin s t (fun y => { y with lockSeq := none })) p.toNat))) ∧
  (∀ (t : TileId) (w : BitVec 32) (s : State), w.toNat % 2 ^ 16 ≠ 0x5A5A →
     (getTile s t).pin.lockSeq ≠ some (BitVec.ofNat 11 (bitsOf w.toNat 16 11)) →
     exec (.pinLockWrite t w) s = .next (modPin s t (fun y => { y with lockSeq := none })))

/-- Pin descriptors where their checks pass (R139, R141, R142, R144, R148 to R150). PIN_WRITE names pins of the casement,
and PIN_READ and PIN_STATUS a tile of the casement or of one of its pins (log entry 36). The time that the three set-up ones
report is the pad-clock edge, open within one period (log entry 8). PIN_SETUP of a locked pin is LOCKED, and changes nothing
else, whether or not the record differs (R9, R142). -/
def Obligations.PinDescriptorsTakeEffect : Prop :=
  (∀ (q : Req) (s0 s : State) (k : Casement), Begins q s0 s → dByte q.d 28 < 96 →
   let t := dByte q.d 28
   let p := 12 * t + dByte q.d 29
   (Serves q .poke (some t) k s → mineMask q s = true → pinWriteBad q = false →
     q.d.op = 0x40 → exec (.pinWrite q) s0 = .next (complete q .ok (edgeTime s).1.toNat
       (windowStore (edgeTime s).2 t (dW16 q.d 30 % 4096) (dW32 q.d 32)))) ∧
   (Serves q .peek (some t) k s → mineTile q s = true → dirty shPinRead q = false →
     q.d.op = 0x41 → exec (.pinRead q) s0 = .next (complete q .ok (pinReadResult s t) { s with fresh := s.fresh + 1 })) ∧
   (Serves q .poke (some t) k s → dByte q.d 29 < 12 → pinOf s p (dCase q.d) = true → dirty shPinSetup q = false →
     badPinRecord (dW32 q.d 32) (dW32 q.d 36) (dW32 q.d 40) = false → slotConflict (pairNow s) (dW32 q.d 32) (dW32 q.d 36) (dW32 q.d 40) = none →
     pinLocked s p = false →
     q.d.op = 0x42 → exec (.pinSetup q) s0 = .next (complete q .ok (edgeTime s).1.toNat (markChanged
       (changePin (edgeTime s).2 p (dW32 q.d 32) (dW32 q.d 36) (dW32 q.d 40)) (dCase q.d)))) ∧
   (Serves q .poke (some t) k s → mineLine q s = true → dirty shPinLine q = false → dByte q.d 29 ≤ 15 → dByte q.d 30 ≤ 31 →
     badLineWord t (dW32 q.d 32) = false →
     q.d.op = 0x43 → exec (.pinLine q) s0 = .next (complete q .ok (edgeTime s).1.toNat (markChanged (settleFabric (edgeTime s).2
       (modTile (edgeTime s).2 t (fun x =>
         cfgWrite x 0x18 (256 + 4 * (32 * dByte q.d 29 + dByte q.d 30)) 4 (dW32 q.d 32)))) (dCase q.d)))) ∧
   (Serves q .peek (some t) k s → dByte q.d 29 < 12 → pinOf s p (dCase q.d) = true → dirty shPinLock q = false →
     lockClosed s p = false →
     (pinLocked s p = true → q.d.op = 0x44 → exec (.pinLock q) s0 = .next (complete q .ok 1 s)) ∧
     (pinLocked s p = false → q.d.op = 0x44 → exec (.pinLock q) s0 = .next (complete q .ok 0 (lockPin s p)))) ∧
   (Serves q .peek (some t) k s → mineTile q s = true → dirty shTileCopy q = false → 64 ≤ q.d.length.toNat → q.io.bufOk = true →
     q.d.op = 0x45 → exec (.pinStatus q) s0 = .next (complete q .ok 0 (hostWrite s q.host q.d.addrA (pinStatusBytes s t))))) ∧
  (∀ (q : Req) (s0 s : State) (k : Casement), Begins q s0 s → dByte q.d 28 < 96 → Serves q .poke (some (dByte q.d 28)) k s →
     dByte q.d 29 < 12 → pinOf s (12 * dByte q.d 28 + dByte q.d 29) (dCase q.d) = true → dirty shPinSetup q = false →
     badPinRecord (dW32 q.d 32) (dW32 q.d 36) (dW32 q.d 40) = false → slotConflict (pairNow s) (dW32 q.d 32) (dW32 q.d 36) (dW32 q.d 40) = none →
     pinLocked s (12 * dByte q.d 28 + dByte q.d 29) = true →
     q.d.op = 0x42 → exec (.pinSetup q) s0 = .next (complete q .locked 0 s))

/-! ### Analogue cells (spec/06_analog_cells.md) -/

/-- Current limits, references and the closing of switches (R154, R160, R162, R183). -/
def Obligations.AnalogEventsTakeEffect : Prop :=
  (∀ (t : TileId) (o : AnOutput) (s : State), switchClosed s t (outputSwitch o) = true →
    exec (.currentLimitExpiry t o) s = .next (postTile (modAn s t (fun a => { a with limits := bump a.limits })) t 0x801 1 t
      (anOutputCode o) 0)) ∧
  (∀ (t : TileId) (l : RefLevel) (s : State), (getTile s t).dom.an = .on →
    (l = .vrefExt → s.dev.aref.getLsbD (sectorOf t) = true) →
    ∃ u, exec (.referenceSettled t l) s = .next u ∧ refFlag (getTile u t) l = true ∧
      (∀ m, m ≠ l → refFlag (getTile u t) m = refFlag (getTile s t) m) ∧
      (refOfCode (recBits (getTile s t).cv.ctrl.toNat 2 2) = l → (getTile u t).cv.refNew = false) ∧
      (getTile u t).cfg = (getTile s t).cfg ∧ (getTile u t).ct = (getTile s t).ct ∧
      (∀ v : Nat, v ≠ t → getTile u v = getTile s v) ∧ u.dev = s.dev ∧ u.cases = s.cases ∧ u.hif = s.hif ∧ u.rcd = s.rcd) ∧
  (∀ (sec : SectorId) (s : State), exec (.arefRangeChange sec true) s =
    .next (modDev s (fun d => { d with aref := setBit d.aref sec true }))) ∧
  (∀ (sec : SectorId) (s : State), s.dev.aref.getLsbD sec = true → exec (.arefRangeChange sec false) s =
    .next (((s.tiles.filter (fun p => p.1 / 24 = sec.val && p.2.dom.an == .on)).map (·.1)).foldl (fun s t => dropVrefExt s t sec)
      (modDev s (fun d => { d with aref := setBit d.aref sec false })))) ∧
  (∀ (t : TileId) (c : AnChange) (r : List AnChange) (s : State), (getTile s t).an.changes = c :: r → c.closed = false →
    ∃ u, exec (.anSwitchClose t) s = .next u ∧ (getTile u t).an.changes = { c with closed := true } :: r ∧
      (∀ v : Nat, v ≠ t → getTile u v = getTile s v) ∧ u.dev = s.dev ∧ u.cases = s.cases ∧ u.hif = s.hif) ∧
  (∀ (t : TileId) (c : AnChange) (r : List AnChange) (s : State), (getTile s t).an.changes = c :: r → c.closed = true →
    exec (.anOutClose t) s = .next (complete c.req .ok c.atE.toNat (modAn s t (fun a => { a with changes := a.changes.erase c }))))

/-- Analogue descriptors: each set-up stands at once and its change waits for its switches, with the outputs of the cells
that it changes open and the switches that it adds not yet closed; the status is copied (R157 to R159, R162, R163, R165,
R166). A trunk that no casement owns is taken by the issuer. -/
def Obligations.AnalogDescriptorsTakeEffect : Prop :=
  ∀ (q : Req) (s0 s : State) (k : Casement), Begins q s0 s → dByte q.d 28 < 96 →
  let t := dByte q.d 28
  let x := getTile s t
  let began := fun (y : Tile) (u : State) =>
    let change : AnChange := { req := q, cells := (List.range 8).filter (fun k => acRecord (getTile u t) k != acRecord y k),
                               adds := addedSwitches (getTile u t) y, atE := (edgeTime u).1, closed := false }
    markChanged (setTile (edgeTime u).2 t { y with an := { y.an with changes := y.an.changes ++ [change] } }) (dCase q.d)
  (k.region.getLsbD t = true → Serves q .poke (some t) k s → dirty shAnCell q = false → dByte q.d 29 ≤ 7 →
    badCellRecord (dByte q.d 29) (dBits q.d 32 12) = false →
    driverConflict s t (writeCell x (dByte q.d 29) (dBits q.d 32 12)) = false →
    q.d.op = 0x50 → exec (.anCellSet q) s0 = .next (began (writeCell x (dByte q.d 29) (dBits q.d 32 12)) s)) ∧
  (k.region.getLsbD t = true → Serves q .poke (some t) k s → dirty shAnNet q = false → dByte q.d 29 ≤ 31 → dW32 q.d 32 < 64 →
    driverConflict s t (cfgWrite x 0x20 (96 + 4 * dByte q.d 29) 4 (dW32 q.d 32)) = false →
    ((dW32 q.d 32).testBit 2 = false → q.d.op = 0x51 → exec (.anNetSet q) s0 =
      .next (began (cfgWrite x 0x20 (96 + 4 * dByte q.d 29) 4 (dW32 q.d 32)) s)) ∧
    ((dW32 q.d 32).testBit 2 = true → trunkOther s (4 * sectorOf t + recBits (dW32 q.d 32) 3 2) (dCase q.d) = false →
      q.d.op = 0x51 → exec (.anNetSet q) s0 = .next (began (cfgWrite x 0x20 (96 + 4 * dByte q.d 29) 4 (dW32 q.d 32))
        (modDev s (fun d => { d with trunks := mset d.trunks (4 * sectorOf t + recBits (dW32 q.d 32) 3 2) (dCase q.d) }))))) ∧
  (Serves q .poke (some t) k s → dByte q.d 29 < 6 → pinOf s (1152 + 6 * t + dByte q.d 29) (dCase q.d) = true →
    (dByte q.d 32 = 63 ∨ k.region.getLsbD t = true) → dirty shAnPin q = false → badNetField (dByte q.d 32) = false →
    (pinLocked s (1152 + 6 * t + dByte q.d 29) = true → ainSelect x (dByte q.d 29) = dByte q.d 32) →
    q.d.op = 0x52 → exec (.anPinSet q) s0 = .next (began (cfgWrite x 0x18 (152 + dByte q.d 29) 1 (dByte q.d 32)) s)) ∧
  (k.region.getLsbD t = true → Serves q .peek (some t) k s → dirty shTileCopy q = false → 256 ≤ q.d.length.toNat →
    q.io.bufOk = true →
    q.d.op = 0x53 → exec (.anStatus q) s0 = .next (complete q .ok 0 (hostWrite s q.host q.d.addrA (anStatusBytes s t))))

/-! ### Comparators and timers (spec/08_comparators_timers.md) -/

/-- R201: the decision against V_UP and V_LO with hysteresis h, and the output D XOR CMP_INV of a decided comparator.
Voltages in nV. -/
def Obligations.ComparatorDecidesAtThresholds : Prop :=
  ∀ (x : Tile) (k vRef : Nat) (vIn h : Int), 0 ≤ h →
    let vTh : ℚ := (recBits (cmpWord x k 0) 4 10 : ℚ) * vRef / 1024
    (vTh + h / 2 < vIn → cmpDecide x k vIn vRef h = some true) ∧
    (vIn < vTh - h / 2 → cmpDecide x k vIn vRef h = some false) ∧
    (vTh - h / 2 ≤ vIn → vIn ≤ vTh + h / 2 → cmpDecide x k vIn vRef h = none) ∧
    (cmpMode x k ≠ 0 → x.fab.held = false → (getCmp x k).decided = true →
      cmpWanted x k = xor (getCmp x k).d (cmpInv x k))

/-- Decisions, timer events and the end of a comparator's check where their causes are in the state (R201, R204, R206,
R208, R210, R212, R213, R215). -/
def Obligations.ComparatorTimerEventsTakeEffect : Prop :=
  (∀ (t : TileId) (k : Fin 16) (w : AnalogIn) (ok : Bool) (s : State), cmpRuns (getTile s t) k = true →
    (cmpMode (getTile s t) k = 1 → exec (.comparatorCrossing t k w ok) s = .next (cmpTake s t k w ok)) ∧
    (cmpMode (getTile s t) k = 2 → cmpTickDue s t k = true → exec (.cmpSampleTick t k w ok) s =
      .next (cmpTake (modCmp s t k (fun c => { c with lastTick := some s.dev.now })) t k w ok))) ∧
  (∀ (t k : Nat) (w : AnalogIn) (ok d : Bool) (s : State), cmpRefOk (getTile s t) k = true →
    cmpDecide (getTile s t) k (cmpInput s w t k) (refVolts w (refOfCode (cmpRef (getTile s t) k))) (cmpBand w (getTile s t) k) = some d →
    cmpTake s t k w ok =
      cmpRefresh (modCmp { s with fresh := s.fresh + 1 } t k (fun c => { c with decided := true, d := d })) t k ok) ∧
  (∀ (t : TileId) (k : Fin 8) (s : State), tmTicks s t k = true → compareDue s t k = true →
    exec (.timerCompare t k) s = .next (timerTrigger (changeTmr s t k (fun m =>
      { countedTo s t (tmCmp (getTile s t) k) m (tmCmp (getTile s t) k) with
        hit := true, out := if tmMode (getTile s t) k = 1 then !m.out else if tmMode (getTile s t) k = 3 then false else m.out })) t k false)) ∧
  (∀ (t : TileId) (k : Fin 8) (s : State), tmTicks s t k = true → compareDue s t k = false →
    tmReached s t k (tmPeriod (getTile s t) k + 1) = true → (getTmr (getTile s t) k).next = none →
    let wrapped := fun (out : Bool) => changeTmr s t k (fun m =>
      { countedTo s t (tmPeriod (getTile s t) k + 1) m 0 with hit := false, out := out })
    (tmMode (getTile s t) k = 4 → exec (.timerWrap t k) s = .next (wrapped (getTmr (getTile s t) k).out)) ∧
    (tmMode (getTile s t) k = 3 → tmCmp (getTile s t) k ≠ 0 →
      exec (.timerWrap t k) s = .next (timerTrigger (wrapped true) t k true)) ∧
    (tmMode (getTile s t) k = 1 → tmCmp (getTile s t) k ≠ 0 →
      exec (.timerWrap t k) s = .next (timerTrigger (wrapped (getTmr (getTile s t) k).out) t k true)) ∧
    (tmMode (getTile s t) k = 1 → tmCmp (getTile s t) k = 0 →
      exec (.timerWrap t k) s = .next (timerTrigger (timerTrigger (wrapped (!(getTmr (getTile s t) k).out)) t k true) t k false))) ∧
  (∀ (t : TileId) (k : Fin 8) (s : State), tmTicks s t k = true → compareDue s t k = false → tmMode (getTile s t) k = 2 →
    tmReached s t k (tmPeriod (getTile s t) k) = true →
    exec (.timerOneShotEnd t k) s = .next (changeTmr s t k (fun m =>
      { m with running := false, count := BitVec.ofNat 32 (tmPeriod (getTile s t) k), out := false }))) ∧
  (∀ (t : TileId) (k : Fin 8) (n : EdgeNote) (c : BitVec 32) (s : State),
    dueEdge s t true (toTimer k) = some n → n.sink = .timer k c →
    (getTile s t).dom.lf = .on → dozed s t = false →
    (tmMode (getTile s t) k = 2 → exec (.timerSourceEdge t k) s = .next (startTmr (dropEdge s t n) t k)) ∧
    (tmMode (getTile s t) k = 4 → (getTmr (getTile s t) k).running = true →
      exec (.timerSourceEdge t k) s = .next (captureTmr (dropEdge s t n) t k c))) ∧
  (∀ (t : TileId) (k : Fin 16) (q : Req) (before want : Bool) (s : State), (getCmp (getTile s t) k).check = some (q, before) →
    (dByte q.d 30 = (if want then 3 else 2) ∨
      dByte q.d 30 = 1 ∧ want = !before ∧ (getCmp (getTile s t) k).d = before ∧ (getCmp (getTile s t) k).decided = true) →
    let s1 := modCmp s t k (fun c => { c with check := none })
    exec (.cmpCheckEnd t k want) s =
      .next (cmpRefresh (complete q .ok (2 ^ 8 * want.toNat + 2 ^ 16 * want.toNat) s1) t k true) ∧
    exec (.cmpCheckEnd t k (!want)) s =
      .next (cmpRefresh (complete q .ok (1 + 2 ^ 8 * (!want).toNat + 2 ^ 16 * want.toNat)
        (postTile (modCt s1 t (fun y => { y with checkFails := bump y.checkFails })) t 0x8A1 1 t k (dByte q.d 30))) t k true))

/-- Comparator and timer descriptors where their checks pass (R200, R206, R209, R210, R213, R214, R216, R217). -/
def Obligations.ComparatorTimerDescriptorsTakeEffect : Prop :=
  ∀ (q : Req) (s0 s : State) (c : Casement), Begins q s0 s → NamesTile q c →
  let t := dByte q.d 28
  let k := dByte q.d 29
  (Serves q .poke (some t) c s → k < 16 → cmpInputOk q (dW32 q.d 32) s = true → dirty shCmpSet q = false →
    badCmpRecord (dW32 q.d 32) (dW32 q.d 36) = false →
    q.d.op = 0x58 → exec (.cmpSet q) s0 = .next (complete q .ok (edgeTime s).1.toNat
      (markChanged (changeCmp (edgeTime s).2 t k (dW32 q.d 32) (dW32 q.d 36)) (dCase q.d)))) ∧
  (∀ r : Ring, Serves q .poke (some t) c s → k < 16 → dirty shCmpEv q = false → mfind s.hif.rings (dW16 q.d 32) = some r →
    r.owner = q.host → r.kind = .event →
    q.d.op = 0x59 → exec (.cmpEvbind q) s0 = .next (complete q .ok 0 (markChanged (modCmp s t k (fun y => { y with
      bound := if (dByte q.d 30).testBit 0 then some (BitVec.ofNat 16 (dW16 q.d 32)) else none, held := none })) (dCase q.d)))) ∧
  (Serves q .poke (some t) c s → k < 16 → dirty shCmpCheck q = false → badCheck (getTile s t) k (dByte q.d 30) = false →
    (getCmp (getTile s t) k).check = none →
    q.d.op = 0x5A → exec (.cmpCheck q) s0 = .next (modCmp s t k (fun c => { c with check := some (q, c.d) }))) ∧
  (Serves q .poke (some t) c s → k < 8 → dirty shTmSet q = false → badTmRecord k (dW32 q.d 32) = false →
    q.d.op = 0x5B → exec (.tmSet q) s0 = .next (complete q .ok (edgeTime s).1.toNat
      (markChanged (changeTm (edgeTime s).2 t k (dW32 q.d 32) (dW32 q.d 36) (dW32 q.d 40)) (dCase q.d)))) ∧
  (Serves q .poke (some t) c s → k < 8 → dirty shTmArm q = false →
    q.d.op = 0x5C → exec (.tmArm q) s0 = .next (complete q .ok (edgeTime s).1.toNat
      (if (dByte q.d 30).testBit 0 then startTmr (edgeTime s).2 t k else stopTmr (edgeTime s).2 t k))) ∧
  (Serves q .peek (some t) c s → k < 8 → dirty shTmRead q = false → 1 ≤ dByte q.d 30 → k + dByte q.d 30 ≤ 8 →
    16 * dByte q.d 30 ≤ q.d.length.toNat → q.io.bufOk = true →
    q.d.op = 0x5D → exec (.tmRead q) s0 = .next (complete q .ok (dByte q.d 30) (hostWrite s q.host q.d.addrA
      ((List.range (dByte q.d 30)).flatMap (fun i => tmBytes s t (k + i)))))) ∧
  (Serves q .peek (some t) c s → dirty shTileCopy q = false → 64 ≤ q.d.length.toNat → q.io.bufOk = true →
    q.d.op = 0x5E → exec (.ctStatus q) s0 = .next (complete q .ok 0 (hostWrite s q.host q.d.addrA (ctStatusBytes (getTile s t)))))

/-! ### Converters (spec/07_converters.md) -/

/-- Conversions, requests and snaps where their causes are in the state (R175, R178, R180, R182, R183, R187). -/
def Obligations.ConverterEventsTakeEffect : Prop :=
  (∀ (t : TileId) (s : State), (getTile s t).cv.delay = true → dozed s t = false →
    exec (.triggerDelayExpiry t) s = .next (modCv s t (fun v =>
      { v with delay := false, seq := if v.seq.isSome then v.seq else some (0, 0) }))) ∧
  (∀ (t : TileId) (f : ConvFor) (r i k : Nat) (s : State), (getTile s t).cv.on = true → dozed s t = false →
    nextConv (getTile s t) = some (f, r, i) → sliceFor (getTile s t) r i = some k →
    ∃ u, exec (.conversionIssue t) s = .next u ∧
      (getTile u t).cv.inFlight = (countIssue (getTile s t) f).inFlight ++ [{ slice := k, for_ := f, refOk := cvRefOk (getTile s t) }] ∧
      (getTile u t).cv.accs = (getTile s t).cv.accs ∧ (getTile u t).cv.trks = (getTile s t).cv.trks ∧
      (∀ v : Nat, v ≠ t → getTile u v = getTile s v) ∧ u.dev = s.dev ∧ u.cases = s.cases ∧ u.hif = s.hif ∧ u.rcd = s.rcd) ∧
  (∀ (t : TileId) (k : Fin 4) (w : AnalogIn) (e : Nat) (c : Conv) (s : State), dozed s t = false →
    (getTile s t).cv.inFlight.find? (fun c => c.slice = k.val) = some c → c.for_ = .entry e → c.refOk = true →
    cvRefOk (getTile s t) = true →
    exec (.conversionComplete t k w) s = .next (settleFabric s (cvPump (endCapture (endSequence (endSlotRun
      (takeResult (modCv { s with fresh := s.fresh + 1 } t (fun v => { v with inFlight := v.inFlight.erase c })) t (.entry e) true
        (convCode s w t (.entry e))) t) t) t) t))) ∧
  (∀ (t : TileId) (j : Fin 4) (n : EdgeNote) (s : State), (getTile s t).cv.on = true → dozed s t = false →
    dueEdge s t true (· == .slot j.val) = some n →
    (cvSlotSource (getTile s t) j).testBit 12 = true → (getTile s t).cv.injPending.getLsbD j = false → (getTile s t).cv.inj = none →
    exec (.injSourceEdge t j) s = .next (cvPump (modCv (dropEdge s t n) t (fun v =>
      { v with injPending := setBit v.injPending j true })) t)) ∧
  (∀ (t : TileId) (a : Fin 32) (n : EdgeNote) (s : State), (getTile s t).cv.on = true → dozed s t = false →
    dueEdge s t false (· == .snap a.val) = some n → (accRec (getTile s t) a).testBit 12 = true →
    exec (.accSnapEdge t a) s = .next (settleFabric s (snapAcc (dropEdge s t n) t a s.dev.now)))

/-- R222: the corrected code of a raw code, from the offset OFS16 and the gain GQ of a coefficient word. -/
def Obligations.CorrectedCodeFormula : Prop :=
  ∀ (w : BitVec 32) (r : Nat),
    let ofs16 : Int := (BitVec.setWidth 16 w).toInt
    let gq : Int := 65536 + (BitVec.setWidth 16 (w >>> 16)).toInt
    (correctedCode w.toNat r : Int) = max 0 (min 16383 (((16 * (r : Int) - ofs16) * gq + 2 ^ 19) / (2 ^ 20 : Int)))

/-- One merged result: sum, sum of squares and count of an accumulator that is not full, minimum, maximum and count of a
tracker (R185, R186). A snap copies both live sets into the snapshot sets with the time and empties them; no other
accumulator, tracker or tile changes. A second snap of the accumulator at the same time is the same snap (R187). Hypothesis:
the accumulator is not exported. -/
def Obligations.ResultsMergeAndSnap : Prop :=
  ((∀ (a : AccSet) (x : Nat), a.full = false → x < 16384 →
     let b := accMerge a x
     b.sum = a.sum + BitVec.ofNat 40 x ∧ b.sumsq = a.sumsq + BitVec.ofNat 56 (x ^ 2) ∧ b.count = a.count + 1 ∧
     b.excl = a.excl ∧ (b.full = true ↔ a.count.toNat = 16777214)) ∧
   (∀ (a : AccSet) (x : Nat), a.full = true → accMerge a x = a) ∧
   (∀ (k : TrkSet) (x : Nat), x < 16384 →
     let m := trkMerge k x
     m.min.toNat = min k.min.toNat x ∧ m.max.toNat = max k.max.toNat x ∧ m.count.toNat = min 16777215 (k.count.toNat + 1))) ∧
  (∀ (s : State) (t n : Nat) (time : Time), (getTile s t).cv.expMask.getLsbD n = false →
     let x := getTile s t
     let y := getTile (snapAcc s t n time) t
     ((getAcc x n).snapAt ≠ some time →
       getAcc y n = { live := AccSet.empty, snap := { (getAcc x n).live with time := time }, snapAt := some time } ∧
       getTrk y n = { live := TrkSet.empty, snap := { (getTrk x n).live with time := time } } ∧
       (∀ m : Nat, m ≠ n → getAcc y m = getAcc x m ∧ getTrk y m = getTrk x m) ∧
       y.cfg = x.cfg ∧ (∀ u : Nat, u ≠ t → getTile (snapAcc s t n time) u = getTile s u)) ∧
     snapAcc (snapAcc s t n time) t n time = snapAcc s t n time)

/-- Converter descriptors where their checks pass (R173 to R183, R187, R188, R190, R196 to R198). -/
def Obligations.ConverterDescriptorsTakeEffect : Prop :=
  ∀ (q : Req) (s0 s : State) (c : Casement), Begins q s0 s → NamesTile q c →
  let t := dByte q.d 28
  let k := dByte q.d 29
  let waits := fun (x : Tile) =>
    cvPump (markChanged (setTile s t { x with cv := { x.cv with shadowWait := x.cv.shadowWait ++ [q] } }) (dCase q.d)) t
  let x := getTile s t
  (Serves q .poke (some t) c s → dirty shCvSetup q = false → badCvCtrl (dW32 q.d 32) = false →
    q.d.op = 0x60 → exec (.cvSetup q) s0 = .next (waits (cfgWrite x 0x21 0 4 (dW32 q.d 32)))) ∧
  (Serves q .poke (some t) c s → dirty shCvSeq q = false → k ≤ 15 → 1 ≤ dByte q.d 30 → k + dByte q.d 30 ≤ 16 → q.io.bufOk = true →
    let y := cfgWrite x 0x21 (8 + 8 * k) (8 * dByte q.d 30) (leNat (q.io.dataA.take (8 * dByte q.d 30)))
    (∀ i : Nat, i < dByte q.d 30 → dirtyEntry (cvShadowEntry y (k + i)) = false) → badCvTable (cvShadowEntry y) = false →
    q.d.op = 0x61 → exec (.cvSeqSet q) s0 = .next (waits y)) ∧
  (Serves q .poke (some t) c s → dirty shCvInjSet q = false → k ≤ 3 → badCvSlot (dW64 q.d 32) (dW16 q.d 40) = false →
    x.cv.inj = none →
    (x.cv.injPending.getLsbD k = false → q.d.op = 0x62 → exec (.cvInjSet q) s0 = .next (complete q .ok 0 (markChanged
      (modTile s t (fun x => cfgWrite x 0x21 (136 + 16 * k) 10 (dBits q.d 32 10))) (dCase q.d)))) ∧
    (x.cv.injPending.getLsbD k = true → q.d.op = 0x62 → exec (.cvInjSet q) s0 = .next (complete q .ok 0 (markChanged
      (modCv s t (fun v => { v with injChange := mset v.injChange k q })) (dCase q.d))))) ∧
  (Serves q .poke (some t) c s → dirty shCvStart q = false → x.cv.on = true → cvMode x = 1 → capturing x = false →
    x.cv.latched = false → x.cv.delay = false → x.cv.seq = none →
    q.d.op = 0x63 → exec (.cvStart q) s0 = .next (complete q .ok 0 (modCv s t (fun v => { v with delay := true })))) ∧
  (Serves q .poke (some t) c s → dirty shCvInject q = false → k ≤ 3 → (cvSlotSource x k).testBit 12 = true →
    capturing x = false → x.cv.injPending.getLsbD k = false → x.cv.inj = none →
    q.d.op = 0x64 → exec (.cvInject q) s0 = .next (cvRequest (modCv s t (fun v => { v with injWait := mset v.injWait k q })) t k).2) ∧
  (Serves q .poke (some t) c s → dirty shCvAccSet q = false → k ≤ 31 → badAccRecord (dW64 q.d 32) = false →
    q.d.op = 0x65 → exec (.cvAccSet q) s0 = .next (complete q .ok 0 (markChanged (settleFabric s
      (modTile s t (fun x => cfgWrite x 0x21 (200 + 8 * k) 8 (dW64 q.d 32)))) (dCase q.d)))) ∧
  (Serves q .peek (some t) c s → badCvRead q 32 = false → dByte q.d 31 = 1 → q.io.bufOk = true →
    q.d.op = 0x66 → exec (.cvAccRead q) s0 = .next (complete q .ok (dByte q.d 30) (hostWrite (edgeTime s).2 q.host q.d.addrA
      ((readUnits q).flatMap (fun n => accBytes (getAcc x n).snap (getAcc x n).snap.time))))) ∧
  (Serves q .peek (some t) c s → badCvRead q 16 = false → dByte q.d 31 = 1 → q.io.bufOk = true →
    q.d.op = 0x67 → exec (.cvTrkRead q) s0 = .next (complete q .ok (dByte q.d 30) (hostWrite (edgeTime s).2 q.host q.d.addrA
      ((readUnits q).flatMap (fun n => trkBytes (getTrk x n).snap (getTrk x n).snap.time))))) ∧
  (Serves q .poke (some t) c s → dirty shCvSnap q = false →
    q.d.op = 0x68 → exec (.cvSnap q) s0 = .next (complete q .ok (edgeTime s).1.toNat (settleFabric s
      (((List.range 32).filter (fun n => (dW32 q.d 32).testBit n)).foldl (fun u n => snapAcc u t n (edgeTime s).1) (edgeTime s).2)))) ∧
  (Serves q .peek (some t) c s → dirty shTileCopy q = false → 64 ≤ q.d.length.toNat → q.io.bufOk = true →
    q.d.op = 0x69 → exec (.cvStatus q) s0 = .next (complete q .ok 0 (hostWrite s q.host q.d.addrA (cvStatusBytes x))))

/-! ### Calibration (spec/09_calibration.md) -/

/-- Calibration descriptors and the end of a cell zero: captures are requested, a computed set, the limits and a cell's trim
begin a commit, whose last step applies or completes them; the block is copied (R223 to R233). The rows of CAL_COMPUTE after
the first, in their order: non-monotonic captures, a clipped capture, an offset and a gain outside the limits, and the set
that stands (R225). A commit writes the calibration copy that is not in use, in four steps: after each of the first three
the copy in use is untouched and still the one in use, and the other is not good; after the fourth the block stands in the
copy written, which is good and in use (R231). -/
def Obligations.CalibrationTakesEffect : Prop :=
  ((∀ (q : Req) (s0 s : State) (c : Casement), Begins q s0 s → NamesTile q c →
     let t := dByte q.d 28
     let k := dByte q.d 29
     let x := getTile s t
     let asked := fun (kind : CapKind) (entry want : Nat) =>
       let cap : Capture :=
         { req := q, kind := kind, entry := BitVec.ofNat 64 entry, waiting := true, want := want, tried := 0, got := 0,
           sum := 0, min := 16383, max := 0, done := false }
       cvPump (modCv s t (fun v => { v with capture := some cap })) t
     (Serves q .poke (some t) c s → dirty shCalCapture q = false → k ≤ 19 → dByte q.d 30 ≤ 1 → 16 ≤ dW32 q.d 32 →
       dW32 q.d 32 ≤ 65536 → dW16 q.d 36 ≤ 16383 → badCvEntry (setRecord x k) = false → calBusy x = false →
       q.d.op = 0x70 → exec (.calCapture q) s0 = .next (asked (.system k (dByte q.d 30 == 1)) (setRecord x k) (dW32 q.d 32))) ∧
     (∀ lo hi : CapPoint, Serves q .poke (some t) c s → dirty shCalSet q = false → k ≤ 19 → calBusy x = false →
       calPoints x k = some (lo, hi) →
       ((calJudge (calBlock x) lo hi).1 = 0 → q.d.op = 0x71 → exec (.calCompute q) s0 = .next (modTile s t (beginCommit q (.apply k)
         (calDated { calBlock x with sets := mset (calBlock x).sets k (BitVec.ofNat 32 (calJudge (calBlock x) lo hi).2) } k s.dev.now)))) ∧
       ((calJudge (calBlock x) lo hi).1 ≠ 0 → q.d.op = 0x71 → exec (.calCompute q) s0 = .next (complete q .plausibilityFail
         ((calJudge (calBlock x) lo hi).2 + 2 ^ 32 * (calJudge (calBlock x) lo hi).1)
         (postTile s t 0x902 1 t k (calJudge (calBlock x) lo hi).1)))) ∧
     (Serves q .poke (some t) c s → dirty shCalSet q = false → k ≤ 7 →
       (acConfig (acRecord x k) = 1 ∨ acConfig (acRecord x k) = 5 ∨ acConfig (acRecord x k) = 7) → calBusy x = false →
       q.d.op = 0x72 → exec (.calCellZero q) s0 = .next (asked (.cellZero k 0 0x80 (cellTrim t x k)) 0 64)) ∧
     (Serves q .poke (some t) c s → dirty shCalTile q = false → calBusy x = false →
       q.d.op = 0x73 → exec (.calSlice q) s0 = .next (asked (.slices 0 []) 0 256)) ∧
     (Serves q .poke (some t) c s → dirty shCalLimits q = false → dW16 q.d 32 ≤ 5242 → dW16 q.d 34 ≤ 6553 → calBusy x = false →
       q.d.op = 0x74 → exec (.calLimits q) s0 = .next (modTile s t (fun x => beginCommit q .limits { calBlock x with
         ofsLimit := BitVec.ofNat 16 (dW16 q.d 32), gainLimit := BitVec.ofNat 16 (dW16 q.d 34) } x))) ∧
     (Serves q .peek (some t) c s → dirty shTileCopy q = false → 512 ≤ q.d.length.toNat → calBusy x = false → q.io.bufOk = true →
       q.d.op = 0x75 → exec (.calRead q) s0 = .next (complete q .ok (calBlock x).seqNo.toNat (hostWrite s q.host q.d.addrA
         (blockBytes t (calBlock x) (if x.cal.factory then 0 else 0xA5)))))) ∧
   (∀ (t : TileId) (cap : Capture) (k round : Nat) (trim old : BitVec 8) (s : State), (getTile s t).cv.capture = some cap →
     cap.kind = .cellZero k round trim old → cap.done = true → trim ≠ 0x80 → trim ≠ 0x7F →
     let b := calDated { calBlock (getTile s t) with cells := mset (calBlock (getTile s t)).cells k trim } (20 + k) s.dev.now
     exec (.calCellZeroEnd t) s = .next (cvPump (modTile (modCv s t (fun v => { v with capture := none })) t (fun x =>
       let y := beginCommit cap.req (.cell k) b x
       { y with cal := { y.cal with cellTrims := mset y.cal.cellTrims k trim } })) t)) ∧
   (∀ (s : State) (t : Nat) (c : CalCommit), (getTile s t).cal.commit = some c →
     let s1 := modCal s t (fun y => commitNext y c)
     (c.steps < 3 → commitTick s t = s1) ∧
     (c.steps = 3 →
       (∀ k : Nat, c.what = .apply k → commitTick s t = cvPump (modCal s1 t (fun y => { y with pending := y.pending ++ [(k, c.req)] })) t) ∧
       (∀ k : Nat, c.what = .cell k → commitTick s t = complete c.req .ok (mget 0 c.block.cells k).toNat
         (postTile s1 t 0x901 1 t (32 + k) (mget 0 c.block.counts (20 + k)))) ∧
       (c.what = .limits → commitTick s t = complete c.req .ok 0 s1)))) ∧
  (∀ (b : CalBlock) (lo hi : CapPoint),
     let mono := lo.sum * hi.n < hi.sum * lo.n ∧ lo.ideal < hi.ideal
     let clipped := lo.min = 0 ∨ hi.min = 0 ∨ lo.max = 16383 ∨ hi.max = 16383
     let gq := calGq lo hi
     let ofs := calOfs lo gq
     (¬ mono → (calJudge b lo hi).1 = 3) ∧ (mono → clipped → (calJudge b lo hi).1 = 4) ∧
     (mono → ¬ clipped → (b.ofsLimit.toNat : Int) < |ofs| → (calJudge b lo hi).1 = 1) ∧
     (mono → ¬ clipped → |ofs| ≤ b.ofsLimit.toNat → (b.gainLimit.toNat : Int) < |gq - 65536| → (calJudge b lo hi).1 = 2) ∧
     (mono → ¬ clipped → |ofs| ≤ b.ofsLimit.toNat → |gq - 65536| ≤ b.gainLimit.toNat →
       calJudge b lo hi = (0, (BitVec.ofInt 16 ofs).toNat + 2 ^ 16 * (BitVec.ofInt 16 (gq - 65536)).toNat))) ∧
  (∀ (y : CalState) (c : CalCommit), c.steps = 0 →
     let toA := y.factory || y.useB
     let inUse := fun (z : CalState) => if toA then z.copyB else z.copyA
     let written := fun (z : CalState) => if toA then z.copyA else z.copyB
     let y1 := commitNext y c
     let y2 := commitNext y1 { c with steps := 1 }
     let y3 := commitNext y2 { c with steps := 2 }
     let y4 := commitNext y3 { c with steps := 3 }
     (∀ z ∈ [y1, y2, y3], inUse z = inUse y ∧ z.useB = y.useB ∧ z.factory = y.factory ∧ copyGood (written z) = false) ∧
     y1.commit = some { c with steps := 1 } ∧ y2.commit = some { c with steps := 2 } ∧ y3.commit = some { c with steps := 3 } ∧
     inUse y4 = inUse y ∧ (written y4).block = c.block ∧ copyGood (written y4) = true ∧ y4.commit = none ∧
     y4.useB = !toA ∧ y4.factory = false)

/-! ### Loading (spec/13_configuration.md) -/

/-- Start-up: steps (a) to (d) in each casement's order, the lock timeout, a generator that locks, and the release of
cycle 0 after the last step (R36, R341, R342). -/
def Obligations.StartUpTakesEffect : Prop :=
  (∀ (c : CaseId) (s : State) (k : Casement) (n : Nat), s.load.purpose = .load → s.load.phase = .startUp →
    getCase s c = some k → k.st = .loading → k.startUp = some n → n < 3 →
    let code := ((startSteps k.startOrder.toNat)[n]?).getD 0
    (code = 0 → allLocked s (liveTilesOf s k) = true → exec (.startUpStep c) s =
      .next (modCase s c (fun k => { k with startUp := some (n + 1) }))) ∧
    (code ≠ 0 → exec (.startUpStep c) s =
      .next (modCase (stepAction s c code (liveTilesOf s k)) c (fun k => { k with startUp := some (n + 1) }))) ∧
    (code = 0 → allLocked s (liveTilesOf s k) = false → exec (.startUpStep c) s = .next s)) ∧
  (∀ (c : CaseId) (s : State) (k : Casement), s.load.purpose = .load → s.load.phase = .startUp →
    getCase s c = some k → k.st = .loading → k.startUp = some 3 → ((startSteps k.startOrder.toNat)[3]?).getD 0 = 3 →
    exec (.startUpStep c) s = .next (loadOver (caseStarted (modCase
      (modTiles s (liveTilesOf s k) (fun _ x => stepWrites x)) c (fun k => { k with startUp := some 4 })) c))) ∧
  (∀ (c : CaseId) (s : State) (k : Casement) (t : Nat), s.load.purpose = .load → s.load.phase = .startUp →
    getCase s c = some k → k.st = .loading → k.startUp = some 0 → s.hub.promo = none →
    (liveTilesOf s k).find? (fun t => (getTile s t).cyc.clk != .locked) = some t →
    exec (.startUpLockTimeout c) s = .next (loadStop s .busy 18 t 0xFFFFFFFF)) ∧
  (∀ (t : TileId) (s : State), (getTile s t).cyc.clk = .locking → s.dev.sysref = true → (getTile s t).dom.tk = .on →
    s.hub.promo = none → caseOfTile s t = none →
    exec (.generatorLocked t) s =
      .next (settleFaultN (modCyc (rebaseTmrs s t) t (fun y => { y with clk := .locked, clkPosted := false }))))

/-- CFG_LOAD, CFG_STATUS and the key descriptors where their checks pass; an acceptance, and a refusal by ownership or
a busy loader, are posted (R333, R334 rows 1 and 2, R346 to R349). -/
def Obligations.LoaderDescriptorsTakeEffect : Prop :=
  ∀ (q : Req) (s0 s : State), Begins q s0 s →
  (isSteward q s = true → dirty shCfgLoad q = false → (cfgFull q = true → dCase q.d = 0) → badSource q true = false →
    cfgLoadBusy q s = false → q.d.op = 0x10 → exec (.cfgLoad q) s0 = .next (acceptLoad q s) ∧
    (acceptLoad q s).load.phase = .pass1 ∧ (acceptLoad q s).load.req = some q ∧ (acceptLoad q s).load.hashes = [] ∧
    (acceptLoad q s).load.lastHost = BitVec.ofNat 8 q.host.val ∧
    (acceptLoad q s).rcd.posted = s.rcd.posted ++
      [mkEv s 0x101 3 (evArg q.host.val (if cfgFull q then 0x80 else (dCase q.d).val) 0) false]) ∧
  (isSteward q s = false → (cfgFull q = true ∨ isOwner q s = false) →
    q.d.op = 0x10 → exec (.cfgLoad q) s0 = .next (complete q .refusedOwnership (2 ^ 8 + 2 ^ 16 * 0xFFFF + 2 ^ 32 * 0xFFFFFFFF)
      (post s 0x103 3 (statusCode .refusedOwnership) 1 0xFFFF))) ∧
  (isSteward q s = true → dirty shCfgLoad q = false → (cfgFull q = true → dCase q.d = 0) → badSource q true = false →
    s.load.phase ≠ .idle →
    q.d.op = 0x10 → exec (.cfgLoad q) s0 = .next (complete q .busy (2 ^ 8 * 2 + 2 ^ 16 * 0xFFFF + 2 ^ 32 * 0xFFFFFFFF)
      (post s 0x103 3 (statusCode .busy) 2 0xFFFF))) ∧
  (dirty shCfgStatus q = false → 256 ≤ q.d.length.toNat → q.io.bufOk = true →
    q.d.op = 0x11 → exec (.cfgStatus q) s0 = .next (complete q .ok 0 (hostWrite s q.host q.d.addrA (cfgStatusBytes s)))) ∧
  (isSteward q s = true → dirty shCfgKey q = false → 272 ≤ q.d.length.toNat → q.io.bufOk = true →
    let r := padTo 272 (q.io.dataA.take 272)
    (badKeyRecord 1 r = false → (∀ n : Nat, n < 4 → (keySlot s n).programmed = false) → fieldAt r 64 200 = 0 →
      q.d.op = 0x12 → exec (.cfgKeyProgram q) s0 = .next (complete q .ok (byteAt r 1) (modDev s (fun d => { d with
        keys := mset d.keys (byteAt r 1) { programmed := true, revoked := false, hash := slice r 16 48 } })))) ∧
    (badKeyRecord 2 r = false → (keySlot s (byteAt r 1)).programmed = true → (keySlot s (byteAt r 1)).revoked = false →
      liveSlots s ≠ [byteAt r 1] →
      q.d.op = 0x13 → exec (.cfgKeyRevoke q) s0 = .next (
        if (liveSlots s).any (fun n => (keySlot s n).hash == sha384 (slice r 64 97)) = true ∧
            ecdsaOk (sha384 (slice r 0 168)) (slice r 64 97) (slice r 168 96) = true
        then complete q .ok (byteAt r 1) (post (modDev s (fun d => { d with
          keys := mset d.keys (byteAt r 1) { keySlot s (byteAt r 1) with revoked := true } })) 0x107 3 (byteAt r 1) 2 0)
        else complete q .authFail 0 s)))

/-- Image bytes that host memory gives to a pass of the loader: they are added to those that wait, and a unit of the image
(the header, a frame, the trailer) is worked off as soon as all of its bytes are there. When they end before the trailer,
the pass ends with TRUNCATED and reason 10 in pass 1, 17 in pass 2 (R333, R334, R338, R339). FETCH_TIMEOUT ends a pass in
the same way. Pass 2: the header or a frame whose hash is not that of pass 1 stops the load with HASH_MISMATCH and reason
16; a frame whose hash is, and whose tag opens, is applied from the bytes fetched in pass 2 (R330, R335, R339). The 100 ms
of a stop: a casement that still runs is made to stop with event 0x10A, and what waited for its stop is done, be it a
takeover, a CASE_RESET or a CASE_DISSOLVE (R338, R354, R357). Pass 2 begins once the target is stopped and every one of its
shutters is SHUT: its tiles are cleared, its roles are asked for, and the loader expects the header again (R338, R339).
Hypothesis: the image comes by the bulk stream port, or the host that gave CFG_LOAD is still enabled. -/
def Obligations.LoaderEventsTakeEffect : Prop :=
  ((∀ (bytes : List Byte) (s : State) (ph : LoadPhase), s.load.phase = ph → (ph = .pass1 ∨ ph = .pass2) →
     s.load.fromBsp = false → s.load.stage ≠ .complete →
     let s1 := modLoad s (fun l => { l with buf := l.buf ++ bytes, all := l.all ++ bytes })
     (loadStep s1 = none → exec (.imageData bytes false) s = .next s1 ∧
       exec (.imageData bytes true) s = .next (loadStop s1 .truncated (if ph = .pass1 then 10 else 17) 0xFFFF (frameNow s1.load))) ∧
     (∀ s2 : State, loadStep s1 = some s2 → s2.load.phase = ph → loadStep s2 = none →
       exec (.imageData bytes false) s = .next s2)) ∧
   (∀ (s : State) (n : Nat), s.load.fetch = some n → (getStream s 12).part = none →
     exec .fetchTimeout s = .next (loadStop s .truncated (if s.load.phase = .pass1 then 10 else 17) 0xFFFF (frameNow s.load))) ∧
   (∀ (s : State) (q : Req) (r frame : Nat), s.load.phase = .pass1 → s.load.purpose = .load → s.load.req = some q →
     (getStream s 12).part = none →
     loadStop s .truncated r 0xFFFF frame = complete q .truncated (1 + 2 ^ 8 * r + 2 ^ 16 * 0xFFFF + 2 ^ 32 * frame)
       (modLoad (post s 0x103 3 9 r (frame % 65536)) (fun l => { loaderIdle l with
         lastStatus := 9, lastReason := BitVec.ofNat 8 r, lastFrame := BitVec.ofNat 32 frame })))) ∧
  ((∀ s : State, s.load.phase = .pass2 → s.load.stage = .header → s.load.head.length ≤ s.load.buf.length →
     ((sha384 (s.load.buf.take s.load.head.length)).take 16 ≠ s.load.headHash →
       loadStep s = some (loadStop s .hashMismatch 16 0xFFFF 0xFFFFFFFF)) ∧
     ((sha384 (s.load.buf.take s.load.head.length)).take 16 = s.load.headHash →
       loadStep s = some (modLoad s (fun l => { l with buf := l.buf.drop s.load.head.length, stage := .frames })))) ∧
   (∀ (s : State) (p : List Byte), s.load.phase = .pass2 → s.load.stage = .frames → s.load.frameIx ≠ hdrFrames s.load.head →
     let hd := s.load.buf.take 24
     let plen := fieldAt hd 16 4
     let n := 24 + plen + tagSize s.load.head
     n ≤ s.load.buf.length → plen ≤ 16384 →
     (s.load.hashes[s.load.frameIx]? ≠ some ((sha384 (s.load.buf.take n)).take 16) →
       loadStep s = some (loadStop s .hashMismatch 16 0xFFFF s.load.frameIx)) ∧
     (s.load.hashes[s.load.frameIx]? = some ((sha384 (s.load.buf.take n)).take 16) →
       openFrame s.load.head s.load.frameIx hd (slice s.load.buf 24 plen) (slice s.load.buf (24 + plen) (tagSize s.load.head)) = some p →
       loadStep s = some (applyFrame (modLoad s (fun l => { l with buf := l.buf.drop n, frameIx := s.load.frameIx + 1 }))
         { frameHead hd with payload := p })))) ∧
  (∀ (c : CaseId) (s : State) (k : Casement), getCase s c = some k → k.st = .running →
     let s1 := modCase (post s 0x10A 3 c.val 0 (getTile s (leadTile k s)).cyc.step) c (fun k => { k with st := .paused, halt := false })
     (∀ q : Req, k.stop = some (.reset q) → exec (.loadPauseTimeout c) s = .next (resetCase s1 c q)) ∧
     (∀ q : Req, k.stop = some (.dissolve q) → exec (.loadPauseTimeout c) s = .next (dissolveCase s1 c q)) ∧
     (k.stop = some .load → s.load.phase = .takeover → s.load.full = false → s.load.case_ = c →
       exec (.loadPauseTimeout c) s = .next (takeTarget s1))) ∧
  (∀ (s : State) (q : Req), s.load.purpose = .load → s.load.phase = .takeover → targetClear s = true →
     let s1 := (loadTiles s).foldl (fun u t => takeTile u (loadKeeps u) t) s
     let s2 := settleFabric s (beginPass (requestEpoch s1 { why := .load, roles := loadRoles s1, avoid := none }) .pass2)
     s2.load.req = some q → (s2.load.fromBsp = true ∨ (getHost s2 q.host).en = true) →
     exec .loadPass2Start s = .next s2)

/-! ### Casements, roles and tiles (spec/14_continuity.md) -/

/-- Casement descriptors where their checks pass: creation with its pins, dissolution and reset by way of a stop after
the next close, ownership, policy, pins, and the two status copies (R353 to R357, R377, R378). -/
def Obligations.CasementDescriptorsTakeEffect : Prop :=
  ∀ (q : Req) (s0 s : State), Begins q s0 s →
  (isSteward q s = true → dirty shCaseCreate q = false → getCase s (dCase q.d) = none →
    (∀ t ∈ tilesOf (createRegion q), inPool s t = true) → createRegion q ≠ 0 → dByte q.d 28 ≤ 7 → placementBusy s = false →
    q.d.op = 0x20 → exec (.caseCreate q) s0 = .next (complete q .ok 0 (createCase q s)) ∧
    getCase (createCase q s) (dCase q.d) = some (Casement.created (Fin.ofNat 8 (dByte q.d 28)) (createRegion q)) ∧
    (createCase q s).rcd.posted = s.rcd.posted ++ [mkEv s 0x201 3 (evArg (dCase q.d).val (dByte q.d 28) 0) false]) ∧
  (∀ k : Casement, isSteward q s = true → dirty shCaseOnly q = false → getCase s (dCase q.d) = some k →
    loadTouches s (dCase q.d) = false → caseClosed s (dCase q.d) = false → k.stop = none →
    let stopping := modCase s (dCase q.d) (fun k => { k with stop := some (.dissolve q) })
    (k.st = .running → q.d.op = 0x21 → exec (.caseDissolve q) s0 = .next (modCase stopping (dCase q.d) (fun k => { k with halt := true }))) ∧
    (k.st ≠ .running → q.d.op = 0x21 → exec (.caseDissolve q) s0 = .next (dissolveCase stopping (dCase q.d) q))) ∧
  (∀ k : Casement, isSteward q s = true → dirty shCaseOwner q = false → getCase s (dCase q.d) = some k →
    loadTouches s (dCase q.d) = false → caseClosed s (dCase q.d) = false → dByte q.d 28 ≤ 7 →
    q.d.op = 0x22 → exec (.caseOwner q) s0 = .next (complete q .ok 0 (setCase s (dCase q.d)
      { k with owner := Fin.ofNat 8 (dByte q.d 28) }))) ∧
  (∀ k : Casement, notAllowed q .peek s = false → dirty shCaseOnly q = false → getCase s (dCase q.d) = some k →
    k.stop = none → k.pwr = .hold → k.st ≠ .stopped → k.st ≠ .empty →
    q.d.op = 0x23 → exec (.caseReset q) s0 = .next (modCase (wakeByCommand s (dCase q.d)) (dCase q.d) (fun k =>
      { k with stop := some (.reset q) }))) ∧
  (∀ k : Casement, notAllowed q .peek s = false → dirty shCaseOnly q = false → getCase s (dCase q.d) = some k →
    caseClosed s (dCase q.d) = false → k.stop = none → k.pwr = .run → k.entering = false →
    let stopping := modCase s (dCase q.d) (fun k => { k with stop := some (.reset q) })
    (k.st = .running → q.d.op = 0x23 → exec (.caseReset q) s0 = .next (modCase stopping (dCase q.d) (fun k => { k with halt := true }))) ∧
    ((k.st = .paused ∨ k.st = .held) → q.d.op = 0x23 → exec (.caseReset q) s0 = .next (resetCase stopping (dCase q.d) q)) ∧
    (k.st = .stopped → q.d.op = 0x23 → exec (.caseReset q) s0 = .next (complete q .busy 0 s))) ∧
  (∀ k : Casement, notAllowed q .poke s = false → dirty shCasePolicy q = false → getCase s (dCase q.d) = some k →
    caseClosed s (dCase q.d) = false →
    q.d.op = 0x24 → exec (.casePolicy q) s0 = .next (complete q .ok 0 (setCase (markChanged s (dCase q.d)) (dCase q.d)
      { k with dupPause := (dByte q.d 28).testBit 0 }))) ∧
  (isSteward q s = true → pinAssignBad q s = false → pinMoveBusy q s = false → pinLocked s (dW16 q.d 32) = false →
    ((dByte q.d 28).testBit 0 = true → caseClosed s (dCase q.d) = false →
      q.d.op = 0x25 → exec (.casePinAssign q) s0 = .next (complete q .ok 0 (settleFabric s (movePin s (dW16 q.d 32) (some (dCase q.d)))))) ∧
    ((dByte q.d 28).testBit 0 = false →
      q.d.op = 0x25 → exec (.casePinAssign q) s0 = .next (complete q .ok 0 (settleFabric s (movePin s (dW16 q.d 32) none))))) ∧
  (∀ k : Casement, notAllowed q .peek s = false → dirty shCaseStatus q = false → 64 ≤ q.d.length.toNat → q.io.bufOk = true →
    getCase s (dCase q.d) = some k → caseClosed s (dCase q.d) = false →
    q.d.op = 0x2C → exec (.caseStatus q) s0 = .next (complete q .ok 0 (hostWrite s q.host q.d.addrA (caseStatusBytes k)))) ∧
  (dirty shTileStatusAll q = false → 768 ≤ q.d.length.toNat → q.io.bufOk = true →
    q.d.op = 0x2D → exec (.tileStatus q) s0 = .next (complete q .ok 0 (hostWrite s q.host q.d.addrA (allTiles.flatMap (tileStatusBytes s)))))

/-- Promotion, retirement, retest, repair and controller firmware where their checks pass; a wrong tenure completes with
STALE_TENURE and the current tenure and tiles (R365, R368 to R376). The ends of a background copy, of a retest and of a
repair: a pass makes the tile SPARE, with its controller no longer fail-silent, and a tile of no casement; a repair maps the
failing rows one by one and commits the row map as the newer copy (R371 to R374). Hypothesis: the tile's controller is at
work. -/
def Obligations.RolesAndTilesTakeEffect : Prop :=
  (∀ (q : Req) (s0 s : State), Begins q s0 s →
   (isSteward q s = true → caseClosed s (dCase q.d) = false → dirty shRolePromote q = false → badSource q false = false →
     dByte q.d 29 ≤ 239 → dByte q.d 30 ≤ 95 →
     (rtTenure (namedEntry q s) ≠ dW16 q.d 36 → q.d.op = 0x26 → exec (.rolePromote q) s0 =
       .next (complete q .staleTenure (rtTenure (namedEntry q s) + 2 ^ 16 * rtTile0 (namedEntry q s) +
         2 ^ 24 * rtTile1 (namedEntry q s)) s)) ∧
     (rtTenure (namedEntry q s) = dW16 q.d 36 → promotable q s = true → badSpare q s = false → overRoutes q s = false →
       placementBusy s = false →
       q.d.op = 0x26 → exec (.rolePromote q) s0 = .next (beginPromotion q s) ∧
       (beginPromotion q s).load.phase = .pass1 ∧ (beginPromotion q s).load.purpose = .promote)) ∧
   (isSteward q s = true → caseClosed s (dCase q.d) = false → dirty shRoleRetire q = false → dByte q.d 29 ≤ 239 →
     dByte q.d 30 ≤ 95 →
     (rtTenure (namedEntry q s) ≠ dW16 q.d 36 → q.d.op = 0x27 → exec (.roleRetire q) s0 =
       .next (complete q .staleTenure (rtTenure (namedEntry q s) + 2 ^ 16 * rtTile0 (namedEntry q s) +
         2 ^ 24 * rtTile1 (namedEntry q s)) s)) ∧
     (rtTenure (namedEntry q s) = dW16 q.d 36 → retirable q s = true → loadTouches s (dCase q.d) = false →
       epochBusy s = false → q.d.op = 0x27 → exec (.roleRetire q) s0 = .next (beginRetire q s))) ∧
   (isSteward q s = true → dirty shTileOnly q = false → retiredTile s (dByte q.d 30) = true →
     testBusy s (dByte q.d 30) = false →
     (roleIn (hubBank s) (dByte q.d 30) = none → q.d.op = 0x28 → exec (.tileRetest q) s0 =
       .next (modCtl (tileReset s (dByte q.d 30)) (dByte q.d 30) (fun c => { c with test := some (false, q) }))) ∧
     (q.d.op = 0x29 → exec (.tileRepair q) s0 = .next (modCtl s (dByte q.d 30) (fun c => { c with test := some (true, q) })))) ∧
   (isSteward q s = true → dirty shFwLoad q = false → 64 ≤ q.d.length.toNat → q.d.length.toNat ≤ 524288 →
     q.io.bufOk = true →
     let img := padTo q.d.length.toNat (q.io.dataA.take q.d.length.toNat)
     let taken := fun (n : Nat) (u : State) => if Config.firmwareSigned img = false then complete q .authFail 0 s
       else if Config.firmwareVersion img < s.hub.fwCounter then complete q .rollbackRefused 0 s else complete q .ok n u
     (slotRun s true = false → q.d.op = 0x2A → exec (.tcFwLoad q) s0 = .next (taken 1 (modHub s (fun h => { h with fwB := img })))) ∧
     (slotRun s true = true → slotRun s false = false →
       q.d.op = 0x2A → exec (.tcFwLoad q) s0 = .next (taken 0 (modHub s (fun h => { h with fwA := img })))) ∧
     (slotRun s true = true → slotRun s false = true → q.d.op = 0x2A → exec (.tcFwLoad q) s0 = .next (complete q .busy 0 s))) ∧
   (isSteward q s = true → dirty shFwActivate q = false → dByte q.d 30 ≤ 95 → dByte q.d 31 ≤ 1 →
     (∀ t : Nat, t < 96 → (getTile s t).ctl.restarting = false) → tilePlaced s (dByte q.d 30) = false →
     q.d.op = 0x2B → exec (.tcFwActivate q) s0 = .next (modCtl s (dByte q.d 30) (fun c => { c with
       restarting := true, activate := some q, formerB := c.slotB, slotB := dByte q.d 31 == 1 })))) ∧
  ((∀ (s : State) (p : Promo) (k : Casement), s.hub.promo = some p → p.stage = .copying → getCase s p.case_ = some k →
     k.st = .running →
     exec .backgroundCopyDone s = .next (modHub s (fun h => { h with promo := some { p with stage := .copied } }))) ∧
   (∀ (t : TileId) (r : MarchResult) (q : Req) (s : State), (getTile s t).ctl.test = some (false, q) →
     (getTile s t).ctl.restarting = false →
     (r.pass = true → (getTile s t).net.condemned = false →
       ∃ u, exec (.marchTestDone t r) s = .next (complete q .ok 0 (post u 0x209 1 t 0 0)) ∧
         (getTile u t).net.localSt = .spare ∧ (getTile u t).ctl.failSilent = false ∧ (getTile u t).ctl.test = none ∧
         (getTile u t).cfg = (getTile s t).cfg ∧ (getTile u t).bp = (getTile s t).bp ∧
         (∀ v : Nat, v ≠ t → getTile u v = getTile s v) ∧ u.dev = s.dev ∧ u.hub = s.hub ∧
         u.cases = mmap (fun _ k => { k with region := setBit k.region t false }) s.cases) ∧
     ((r.pass = false ∨ (getTile s t).net.condemned = true) →
       exec (.marchTestDone t r) s = .next (complete q .ok (1 + 2 ^ 8 * r.failing.toNat)
         (post (modCtl s t (fun c => { c with test := none })) 0x209 1 t 1 r.failing.toNat)))) ∧
   (∀ (t : TileId) (r : MarchResult) (q : Req) (s : State), (getTile s t).ctl.test = some (true, q) →
     (getTile s t).ctl.restarting = false → (repairOf (getTile s t).ctl).seqNo ≠ 0xFFFFFFFF →
     let i := (r.istoreRows.map (fun p => (p.1.val, p.2.val))).foldl (mapRow t false) (repairOf (getTile s t).ctl, 0, false)
     let l := (r.slotRows.map (fun p => (p.1.val, p.2.val))).foldl (mapRow t true) i
     let bad := l.2.2
     ∃ u, exec (.marchTestDone t r) s = .next (complete q .ok (l.2.1 % 65536 + 2 ^ 16 * bad.toNat) (post u 0x20A 1 t bad.toNat l.2.1)) ∧
       (repairOf (getTile u t).ctl).istore = l.1.istore ∧ (repairOf (getTile u t).ctl).slots = l.1.slots ∧
       (getTile u t).net.condemned = ((getTile s t).net.condemned || bad) ∧
       (getTile u t).net.localSt = (getTile s t).net.localSt ∧
       (∀ v : Nat, v ≠ t → getTile u v = getTile s v) ∧ u.dev = s.dev ∧ u.cases = s.cases))

/-! ### Bulk stream port (spec/12_bulk_stream.md) -/

/-- Training, lanes and segments sent: training ends at the widest permitted width whose lanes lock, a lane that loses its
lock takes the link down, and an outbound stream with credits and data sends one segment, stream 12 a FETCH (R302, R305,
R307, R314, R317, R318). Whole export entries: at least one, at most as many as the credits allow; how many is open (log
entry 3). Blocks that arrive at an up link: the block on the lane whose turn it is is descrambled; CREDIT, ACK and NAK do
what they name, ALIGN sets the lane order, an invalid sync header or a reserved type byte is counted, and the block with
which a segment is complete has the segment taken (R301 to R305, R307, R386). A segment that is complete: one with a wrong
CRC-32 is discarded with NAK and counted; one in sequence, with credits granted, is acknowledged, uses its credits and goes
to its stream (R304 to R307, R309). -/
def Obligations.StreamPortEventsTakeEffect : Prop :=
  ((∀ (lanes : List (List LinkBlock)) (w : Nat) (s : State), s.bsp.training = true → s.dev.bspDom = .on → s.dev.vsd = true →
     s.bsp.linkReq = none →
     let locked := (lanes.zip (List.range 8)).foldl (fun v q => if hasLocked q.1 then setBit v q.2 true else v) (0 : BitVec 8)
     trainedWidth (linkSet s.bsp).2 locked = some w →
     exec (.bspLinkUp lanes) s = .next ((List.range 13).foldl topUp (post (modBsp s (fun b => { b with
       up := true, training := false, rate := (linkSet s.bsp).1, width := w, locked := locked, txNext := 0, rxSeg := .none,
       rxLane := 0, rxScr := lastBits lanes, txSlots := 0 })) 0x501 5 (linkSet s.bsp).1 w 0))) ∧
   (∀ (q : Req) (s : State), s.bsp.linkReq = some q → s.bsp.up = false →
     exec .bspTrainingTimeout s = .next (complete q .ok 0 (modBsp s (fun b => { b with linkReq := none })))) ∧
   (∀ (n : Fin 8) (s : State), s.bsp.up = true → s.bsp.locked.getLsbD n = true →
     exec (.laneLockLoss n) s = .next (post (modBsp (post (modBsp s (fun b => { b with locked := setBit b.locked n false }))
       0x503 5 n 0 0) startTraining) 0x502 5 1 0 0)) ∧
   (∀ s : State, s.bsp.up = true → s.bsp.replay.length < 64 → s.bsp.outEn.getLsbD 0 = true → 0 < s.bsp.exports.length →
     0 < mget 0 s.bsp.credits 13 →
     ∃ n : Nat, 1 ≤ n ∧ n ≤ 64 ∧ n ≤ s.bsp.exports.length ∧ exec (.bspSegmentSend 13) s = .next (sendSegment
       (modBsp { s with fresh := s.fresh + 1 } (fun b => { b with exports := b.exports.drop n })) 13 0
       ((s.bsp.exports.take n).flatMap (·.bytes)))) ∧
   (∀ s : State, s.bsp.up = true → s.load.fromBsp = true → s.load.fetch = none → s.load.phase = .pass1 →
     s.load.stage = .header → s.load.head = [] →
     ∃ n : Nat, 1 ≤ n ∧ n < 65536 ∧ exec (.bspSegmentSend 12) s = .next (modBsp (modLoad { s with fresh := s.fresh + 1 }
       (fun l => { l with fetch := some (256 * n) })) (fun b => { b with txQueue := b.txQueue ++
         [{ sync := 2, bits := BitVec.ofNat 64 (7 + 2 ^ 8 * (s.load.all.length % 2 ^ 40) + 2 ^ 48 * n) }] })))) ∧
  (∀ (b : LinkBlock) (s : State), s.bsp.up = true → s.dev.bspDom = .on →
     let x := descramble (mget 0 s.bsp.rxScr s.bsp.rxLane) b.bits
     let seen := fun (u : State) => modBsp u (fun p => { p with
       rxScr := mset p.rxScr p.rxLane (laneBits b.bits), rxLane := (p.rxLane + 1) % p.width })
     (∀ (k : Fin 16) (c : BitVec 16), b.sync = 2 → 13 ≤ k.val → x = ctlBlock 0x03 (k.val + 256 * c.toNat) →
       exec (.bspCredit b) s = .next (modBsp (seen s) (fun p => { p with
         credits := mset p.credits k (mget 0 p.credits k + c.toNat) }))) ∧
     (∀ (n : BitVec 12) (p : SentSeg) (l : List SentSeg), b.sync = 2 → x = ctlBlock 0x04 n.toNat →
       s.bsp.replay = p :: l → p.seqNo = n → s.jnl.mode ≠ 1 →
       exec (.bspAck b) s = .next (modBsp (seen s) (fun z => { z with replay := l, txNext := z.txNext - 1, txFails := none }))) ∧
     (∀ (n : BitVec 12) (p : SentSeg) (l : List SentSeg), b.sync = 2 → x = ctlBlock 0x05 n.toNat →
       s.bsp.replay = p :: l → p.seqNo = n →
       (s.bsp.txFails = none → exec (.bspNak b) s = .next (modBsp (seen s) (fun z => { z with txNext := 0, txFails := some (n, 1) }))) ∧
       (∀ i : Nat, 2 ≤ i → s.bsp.txFails = some (n, i) → exec (.bspNak b) s = .next (post (modBsp (seen s) startTraining) 0x502 5 0 0 0))) ∧
     (∀ lane : Fin 8, lane.val < s.bsp.width → s.bsp.width ≤ 8 → s.bsp.rate ≤ 3 → b.sync = 2 →
       descramble (mget 0 s.bsp.rxScr lane) b.bits = ctlBlock 0x06 (lane.val + 256 * s.bsp.width + 65536 * s.bsp.rate) →
       exec (.bspAlign lane b) s = .next (modBsp s (fun p => { p with
         rxScr := mset p.rxScr lane (laneBits b.bits), rxLane := (lane.val + 1) % p.width }))) ∧
     ((b.sync = 0 ∨ b.sync = 3 ∨ b.sync = 2 ∧ (x.toNat % 256 = 0 ∨ 8 ≤ x.toNat % 256)) →
       exec (.bspSegmentReceive [b]) s = .next (modBsp (seen s) (fun p => { p with blockErrors := bump p.blockErrors }))) ∧
     (∀ (hdr : BitVec 64) (bytes : List Byte), b.sync = 1 → s.bsp.rxSeg = .body hdr bytes →
       bitsOf hdr.toNat 16 16 + 4 ≤ (bytes ++ leBytes 8 x.toNat).length →
       exec (.bspSegmentReceive [b]) s = .next (takeSegment (modBsp (seen s) (fun p => { p with rxSeg := .none })) hdr
         ((bytes ++ leBytes 8 x.toNat).take (bitsOf hdr.toNat 16 16))
         (BitVec.ofNat 32 (fieldAt (bytes ++ leBytes 8 x.toNat) (bitsOf hdr.toNat 16 16) 4)))) ∧
     (∀ blocks : List LinkBlock, exec (.bspSegmentReceive blocks) s = .next (blocks.foldl takeBlock s))) ∧
  ((∀ (hdr : BitVec 64) (data : List Byte) (crc : BitVec 32) (s : State),
     crc ≠ crc32 (leBytes 8 hdr.toNat ++ data) → s.bsp.rxFails < 2 →
     takeSegment s hdr data crc = modBsp s (fun b => { b with
       naks := bump b.naks, rxFails := b.rxFails + 1,
       txQueue := b.txQueue ++ [{ sync := 2, bits := BitVec.ofNat 64 (5 + 256 * b.rxSeq.toNat) }] })) ∧
   (∀ (k : Nat) (first last : Bool) (data : List Byte) (s : State), k < 12 →
     1 ≤ data.length → data.length ≤ 2048 → creditsOf data.length ≤ (getStream s k).granted →
     let hdr := BitVec.ofNat 64 (k + 2 ^ 8 * first.toNat + 2 ^ 9 * last.toNat + 2 ^ 16 * data.length +
       2 ^ 32 * s.bsp.rxSeq.toNat)
     takeSegment s hdr data (crc32 (leBytes 8 hdr.toNat ++ data)) =
       (let s1 := modBsp s (fun b => { b with
          rxSeq := b.rxSeq + 1, rxFails := 0,
          txQueue := b.txQueue ++ [{ sync := 2, bits := BitVec.ofNat 64 (4 + 256 * b.rxSeq.toNat) }] })
        topUp (patternSegment (modStream s1 k (fun x => { x with granted := x.granted - creditsOf data.length })) k first last data) k)))

/-- A pattern frame whose coded bytes are one literal run of its L bytes, keyed or over a reference of that length,
decodes to the reference exclusive-OR the run and goes to the block that ALT selects (R309 to R311). -/
def Obligations.PatternFramesDecode : Prop :=
  ∀ (x : Stream) (b : Bind) (lit ref : List Byte) (key alt : Bool) (number : Nat),
    x.bind = some b → 1 ≤ lit.length → lit.length ≤ 64 → number < 2 ^ 32 →
    (key = false → x.ref = some ref ∧ ref.length = lit.length) →
    (if b.fabric then 4096 * (if alt then b.alternate else b.primary) + b.offset + lit.length ≤ 65536
      else 4 * b.offset + lit.length ≤ 8192 ∧ lit.length % 4 = 0) →
    let head := leBytes 2 (lit.length - 1) ++ [BitVec.ofNat 8 (key.toNat + 2 * alt.toNat), 0] ++ leBytes 4 number ++ leBytes 8 0
    decodeFrame x (head ++ [BitVec.ofNat 8 (0x7F + lit.length)] ++ lit) = .ok (b, if alt then b.alternate else b.primary,
      if key then lit else List.zipWith (· ^^^ ·) lit ref)

/-- Descriptors of the bulk stream port where their checks pass (R302, R308, R318, R319). -/
def Obligations.StreamPortDescriptorsTakeEffect : Prop :=
  ∀ (q : Req) (s0 s : State), Begins q s0 s →
  (isSteward q s = true → dirty shBspLink q = false → dByte q.d 28 ≤ 3 → dByte q.d 29 ∈ [1, 2, 4, 8] → s.bsp.linkReq = none →
    (dByte q.d 28 ≠ 0 → q.d.op = 0x80 → exec (.bspLink q) s0 = .next (modBsp s (fun b => { startTraining b with
      set := some (dByte q.d 28, dByte q.d 29), linkReq := some q }))) ∧
    (dByte q.d 28 = 0 → q.d.op = 0x80 → exec (.bspLink q) s0 = .next (complete q .ok 0 (modBsp s (fun b => { startTraining b with
      set := some (0, dByte q.d 29), training := false, retrains := b.retrains }))))) ∧
  (dirty shBspStatus q = false → 64 ≤ q.d.length.toNat → q.io.bufOk = true →
    q.d.op = 0x81 → exec (.bspStatus q) s0 = .next (complete q .ok 0 (hostWrite s q.host q.d.addrA (bspStatusBytes s)))) ∧
  (∀ k : Casement, NamesTile q k → dirty shStreamBind q = false → dByte q.d 29 ≤ 11 → badBind q = false →
    bound2Other q (dByte q.d 29) s = false →
    (Serves q .poke (some (dByte q.d 28)) k s → (dByte q.d 30).testBit 0 = true →
      q.d.op = 0x82 → exec (.bspStreamBind q) s0 = .next (complete q .ok 0 (markChanged (flushStreams (modStream s (dByte q.d 29)
        (fun x => { x with bind := some (newBind q (Fin.ofNat 96 (dByte q.d 28))) })) [dByte q.d 29]) (dCase q.d)))) ∧
    (Serves q .peek (some (dByte q.d 28)) k s → (dByte q.d 30).testBit 0 = false →
      q.d.op = 0x82 → exec (.bspStreamBind q) s0 = .next (complete q .ok 0 (markChanged (unbindStream s (dByte q.d 29)) (dCase q.d))))) ∧
  (∀ k : Casement, NamesTile q k → Serves q .poke (some (dByte q.d 28)) k s → dirty shExportSet q = false →
    q.d.op = 0x83 → exec (.bspExportSet q) s0 = .next (complete q .ok 0 (markChanged (modCv s (dByte q.d 28) (fun v => { v with
      expMask := BitVec.ofNat 32 (dW32 q.d 32) })) (dCase q.d)))) ∧
  (∀ k : Casement, Serves q .poke none k s → dirty shStreamReset q = false → dByte q.d 29 ≤ 11 →
    bound2Other q (dByte q.d 29) s = false →
    q.d.op = 0x84 → exec (.bspStreamReset q) s0 = .next (complete q .ok 0 (modStream s (dByte q.d 29) (fun x => { x with
      part := none, ref := none })))) ∧
  (isSteward q s = true → dirty shOutSet q = false →
    q.d.op = 0x85 → exec (.bspOutSet q) s0 = .next (complete q .ok 0 (modBsp s (fun b => { b with outEn := BitVec.ofNat 3 (dByte q.d 28) }))))

/-- R301: the descrambler undoes the scrambler x^58 + x^39 + 1, whatever the lane carried before. -/
def Obligations.DescramblerUndoesScrambler : Prop :=
  ∀ (r : BitVec 58) (x : BitVec 64), descramble r (scramble r x) = x

/-! ### Journal and replay (spec/15_replay.md) -/

/-- Journal descriptors where their checks pass, and the end of a drain that writes nothing more than its CKPT_END
(R383, R386 to R391, R398). -/
def Obligations.JournalCommandsTakeEffect : Prop :=
  (∀ (q : Req) (s0 s : State), Begins q s0 s →
    (∀ k : Casement, Serves q .poke none k s →
      (badControl q = false → q.d.op = 0x90 → exec (.jnlControl q) s0 = .next (modJnlCase (markChanged s (dCase q.d)) (dCase q.d)
        (fun j => { j with control := j.control ++ [q] }))) ∧
      (dirty shJnlMark q = false → jnlOn k = true → q.d.op = 0x95 → exec (.jnlMark q) s0 = .next (modJnlCase s (dCase q.d)
        (fun j => { j with marks := j.marks ++ [q] }))) ∧
      (dirty shCaseOnly q = false → jnlOn k = true → k.jnl.asked = none → q.d.op = 0x94 → exec (.jnlCheckpoint q) s0 =
        .next (modJnlCase s (dCase q.d) (fun j => { j with asked := some q }))) ∧
      (dirty shCaseOnly q = false → jnlOn k = false → q.d.op = 0x94 → exec (.jnlCheckpoint q) s0 = .next (complete q .badField 0 s))) ∧
    (isSteward q s = true → dirty shJnlExport q = false → dByte q.d 28 ≤ 2 →
      q.d.op = 0x91 → exec (.jnlExport q) s0 = .next (complete q .ok s.jnl.head.toNat (setExport (dByte q.d 28) s)) ∧
      (setExport (dByte q.d 28) s).jnl.mode = dByte q.d 28 ∧ (setExport (dByte q.d 28) s).jnl.head = s.jnl.head ∧
      (setExport (dByte q.d 28) s).jnl.window = s.jnl.window) ∧
    (isSteward q s = true → dirty shJnlRead q = false → q.io.bufOk = true →
      (dW64 q.d 32 < jnlOldest s.jnl → q.d.op = 0x92 → exec (.jnlRead q) s0 = .next (complete q .overrun (jnlOldest s.jnl) s)) ∧
      (jnlOldest s.jnl ≤ dW64 q.d 32 →
        let copied := hostWrite s q.host q.d.addrA (jnlGet s.jnl (dW64 q.d 32) (readCount q s))
        ((dByte q.d 29).testBit 0 = false ∨ s.jnl.mode ≠ 2 →
          q.d.op = 0x92 → exec (.jnlRead q) s0 = .next (complete q .ok (readCount q s) copied)) ∧
        ((dByte q.d 29).testBit 0 = true → s.jnl.mode = 2 →
          q.d.op = 0x92 → exec (.jnlRead q) s0 = .next (complete q .ok (readCount q s) (modJnl copied (fun j => { j with
            export_ := BitVec.ofNat 64 (max j.export_.toNat (dW64 q.d 32 + readCount q s)) })))))) ∧
    (dirty shJnlStatus q = false → 64 ≤ q.d.length.toNat → q.io.bufOk = true →
      q.d.op = 0x93 → exec (.jnlStatus q) s0 = .next (complete q .ok 0 (hostWrite s q.host q.d.addrA (jnlStatusBytes s))))) ∧
  (∀ (c : CaseId) (s : State) (k : Casement) (n : BitVec 64) (num : Nat), getCase s c = some k →
    k.jnl.drain = some (n, num, none) → s.jnl.stopped = false → k.jnl.gapFrom = none → jnlUnits k s = [] →
    (jnlRecord s c 0x0C n.toNat (leBytes 4 num ++ leBytes 4 0)).jnl.stopped = false →
    exec (.checkpointDrainDone c) s = .next (post (modTiles (modJnlCase
      (jnlRecord s c 0x0C n.toNat (leBytes 4 num ++ leBytes 4 0)) c (fun j => { j with drain := none })) (tilesOf k.region)
      (fun _ x => { x with bp := { x.bp with ckptBank := none } })) 0xA02 3 c 0 num))

/-- A record: its header names type, casement, length in 8-byte units and low cycle bits, its data follow padded to a whole
unit; appended where it fits, it stands at head in the window, and head moves past it (R382, R386, R387). -/
def Obligations.JournalRecordsAreAppended : Prop :=
  (∀ (ty c n : Nat) (body : List Byte),
    (jnlBytes ty c n body).length = 8 * (1 + (body.length + 7) / 8) ∧
    (body.length < 524000 → ty < 256 → c < 256 →
      fieldAt (jnlBytes ty c n body) 0 1 = ty ∧ fieldAt (jnlBytes ty c n body) 1 1 = c ∧
      8 * fieldAt (jnlBytes ty c n body) 2 2 = (jnlBytes ty c n body).length ∧
      fieldAt (jnlBytes ty c n body) 4 4 = n % 2 ^ 32)) ∧
  (∀ (s : State) (l : List Byte), s.jnl.stopped = false → jnlFits s.jnl l.length = true → l.length ≤ windowSize →
    s.jnl.head.toNat + l.length < 2 ^ 64 →
    (jnlAppend s l).jnl.head = s.jnl.head + BitVec.ofNat 64 l.length ∧
    (Memory.wf zeroes s.jnl.window = true → jnlGet (jnlAppend s l).jnl s.jnl.head.toNat l.length = l) ∧
    (∀ a : Nat, a < s.jnl.head.toNat → s.jnl.head.toNat + l.length ≤ a + windowSize →
      jnlGet (jnlAppend s l).jnl a 1 = jnlGet s.jnl a 1) ∧
    (jnlAppend s l).jnl.export_ = s.jnl.export_ ∧ (jnlAppend s l).cases = s.cases ∧ (jnlAppend s l).tiles = s.tiles)

/-- JNL_REPLAY and JNL_SHADOW where their checks pass: the casement is isolated before its first replayed release, with
the journal's offset after the checkpoint found; a shadow takes its spares and reads the image (R392 to R394, R396). -/
def Obligations.ReplayAndShadowTakeEffect : Prop :=
  ∀ (q : Req) (s0 s : State), Begins q s0 s →
  (∀ (k : Casement) (p : Found), Serves q .poke none k s → badReplayFields q = false → k.st = .paused → q.io.bufOk = true →
    chooseCkpt k (searchJournal s (dW32 q.d 48) (replayFuel s (newReplay q)) (newReplay q) { loads := [], found := [] }) = some p →
    (sameImage k p = false → q.d.op = 0x97 → exec (.jnlReplay q) s0 = .next (complete q .authFail 0 s)) ∧
    (sameImage k p = true → dW64 q.d 40 < p.n → q.d.op = 0x97 → exec (.jnlReplay q) s0 = .next (complete q .badField 0 s)) ∧
    (sameImage k p = true → p.n ≤ dW64 q.d 40 → q.d.op = 0x97 → exec (.jnlReplay q) s0 = .next (beginReplay q p k s))) ∧
  (isSteward q s = true → badShadow q s = false → q.io.bufOk = true → badShadowMap q s = false →
    getCase s (dCase q.d) = none → (∀ m ∈ shadowMap q, inPool s m.2 = true) →
    (∀ r ∈ shadowRoles q s, rtState (roleEntry (hubBank s) r) = 0) → placementBusy s = false →
    q.d.op = 0x96 → exec (.jnlShadow q) s0 = .next (beginShadow q s) ∧ (beginShadow q s).load.phase = .pass1 ∧
      (beginShadow q s).load.purpose = .shadow)

/-! ### Event recorder (spec/16_event_recorder.md) -/

/-- Events of the recorder: a posting for which the queue has room reaches it with a token and is queued, or without one is
suppressed; a free recorder writes the record in front and is busy for 500 ns; a PERIOD ends; the time ring; edges of
design events; and what a record holds (R400, R401, R403, R405, R408, R409, R411). -/
def Obligations.RecorderEventsTakeEffect : Prop :=
  (∀ (i : Nat) (w : Bool) (s : State) (e : Ev), mayPost s.rcd.posted i = true → s.dev.inReset = .none →
    s.rcd.posted[i]? = some e → e.kind = .plain → queueRoom s e = true →
    let s0 := modRcd s (fun r => { r with posted := r.posted.eraseIdx i })
    let queued := fun (u : State) => recTick (modRcd u (fun r => { r with queue := r.queue ++ [{ ev := e, writeOk := w }] }))
    (neverLimited e.code.toNat = true → exec (.eventPost i w) s = .next (queued s0)) ∧
    (neverLimited e.code.toNat = false → 0 < (getBucket s e.code.toNat).tokens →
      ∃ u, takeToken s0 e.code.toNat = some u ∧ exec (.eventPost i w) s = .next (queued u) ∧
        (getBucket u e.code.toNat).tokens = (getBucket s e.code.toNat).tokens - 1) ∧
    (neverLimited e.code.toNat = false → (getBucket s e.code.toNat).tokens = 0 →
      exec (.eventPost i w) s = .next (recTick (suppress s0 e.code.toNat e.src)))) ∧
  (∀ (s : State) (e : Ev) (w : Bool) (l : List RecWait), s.rcd.queue = { ev := e, writeOk := w } :: l → e.kind = .plain →
    s.dev.inReset = .none →
    (s.dev.now.toNat < s.rcd.free.toNat → recTick s = s) ∧
    (s.rcd.free.toNat ≤ s.dev.now.toNat → recTick s = recWrite (modRcd s (fun r => { r with
      queue := l, free := s.dev.now + 500 })) w e.time e.code e.src e.arg false e.held)) ∧
  (∀ (s : State) (w : Bool) (tm : Time) (code : BitVec 12) (src : BitVec 4) (arg : BitVec 32) (sm h : Bool),
    (∀ p ∈ s.rcd.notify, p.2.getLsbD code.toNat = false) → s.rcd.next + 1 < 524288 → s.rcd.counts.wrap = 0 →
    let e : Rec := { time := tm, code := code, src := src, arg := arg,
                     flags := BitVec.ofNat 8 (sm.toNat + 2 * h.toNat + 128) }
    recWrite s w tm code src arg sm h = modRcd s (fun r => { r with
      slots := mset r.slots r.next e, next := r.next + 1 })) ∧
  (∀ (code : BitVec 12) (s : State), (getBucket s code.toNat).running = true → (getBucket s code.toNat).suppressed = 0 →
    (getBucket s code.toNat).since.toNat + (getBucket s code.toNat).period * 1000000 ≤ s.dev.now.toNat →
    exec (.rateLimitRefill code) s = .next (setBucket s code.toNat { getBucket s code.toNat with
      tokens := (getBucket s code.toNat).tokens + 1,
      running := decide ((getBucket s code.toNat).tokens + 1 < (getBucket s code.toNat).burst),
      since := (getBucket s code.toNat).since + BitVec.ofNat 64 ((getBucket s code.toNat).period * 1000000), suppressed := 0 })) ∧
  (∀ s : State, s.dev.inReset ≠ .cold → s.rcd.ringDue.toNat ≤ s.dev.now.toNat →
    exec .timeRingWrite s = .next (modRcd s (fun r => { r with
      ring := mset r.ring r.ringNext (s.dev.now, r.counts.powerCycles), ringNext := (r.ringNext + 1) % 1024,
      ringDue := r.ringDue + 2 ^ 20 }))) ∧
  (∀ (t : TileId) (src : BitVec 12) (n : EdgeNote) (b : DesignBind) (s : State),
    dueEdge s t true (· == .design src.toNat) = some n → s.rcd.design = [b] → b.tile = t → b.src = src →
    exec (.designEventEdge t src) s = .next (postTile (dropEdge s t n) t b.code.toNat 6 t 0 (designCycle (dropEdge s t n) t)))

/-- Recorder descriptors where their checks pass (R407, R408, R410 to R413). What REC_READ and REC_STATUS tell of the
newest record is open while nothing has been written (assumption 3). -/
def Obligations.RecorderDescriptorsTakeEffect : Prop :=
  ∀ (q : Req) (s0 s : State), Begins q s0 s →
  (dirty shRecRead q = false → 1 ≤ dW32 q.d 40 → dW32 q.d 40 ≤ 524288 → 16 * dW32 q.d 40 ≤ q.d.length.toNat →
    q.io.bufOk = true → recSeq s.rcd ≠ 0 →
    let n := min (dW32 q.d 40) (recSeq s.rcd - dBits q.d 32 5)
    let out := (List.range n).map (fun i => readOne s.rcd (dBits q.d 32 5 + i))
    q.d.op = 0xA0 → exec (.recRead q) s0 = .next (complete q .ok
      (recSeq s.rcd - 1 + 2 ^ 40 * n + 2 ^ 60 * min 15 (out.filter (·.1)).length)
      (hostWrite s q.host q.d.addrA (out.flatMap (·.2))))) ∧
  (dirty shCopy q = false → 64 ≤ q.d.length.toNat → q.io.bufOk = true → recSeq s.rcd ≠ 0 →
    q.d.op = 0xA1 → exec (.recStatus q) s0 = .next (complete q .ok 0 (hostWrite s q.host q.d.addrA (recStatusBytes s)))) ∧
  (isSteward q s = true → dirty shRecTime q = false →
    q.d.op = 0xA2 → exec (.recTimeSet q) s0 = .next (postEv s { mkEv s 0xB02 7 0 false with kind := .timePair q })) ∧
  (dirty shRecPost q = false → 0xE00 ≤ dW16 q.d 28 → dW16 q.d 28 ≤ 0xFFF →
    q.d.op = 0xA3 → exec (.recPost q) s0 = .next (postEv s { mkEv s (dW16 q.d 28) 7 (BitVec.ofNat 32 (dW32 q.d 32)) false with
      kind := .hostPost q })) ∧
  (isSteward q s = true → dirty shRecLimit q = false → dW16 q.d 28 ≤ 0xFFF → neverLimited (dW16 q.d 28) = false →
    dByte q.d 30 ≠ 0 → dW16 q.d 32 ≠ 0 →
    q.d.op = 0xA4 → exec (.recLimit q) s0 = .next (postEv s { mkEv s (dW16 q.d 28) 0 0 false with kind := .limit q })) ∧
  (∀ r : Ring, dirty shRecNotify q = false → dW16 q.d 28 ≤ dW16 q.d 30 → dW16 q.d 30 ≤ 0xFFF →
    mfind s.hif.rings (dW16 q.d 32) = some r → r.owner = q.host → r.kind = .event → (dByte q.d 34).testBit 0 = true →
    q.d.op = 0xA5 → ∃ t, exec (.recNotify q) s0 = .next (complete q .ok 0 t) ∧
      (∀ c : Nat, c < 4096 → (mget 0 t.rcd.notify (dW16 q.d 32)).getLsbD c =
        ((mget 0 s.rcd.notify (dW16 q.d 32)).getLsbD c || decide (dW16 q.d 28 ≤ c ∧ c ≤ dW16 q.d 30))) ∧
      t.hif = s.hif ∧ t.rcd.slots = s.rcd.slots ∧ t.dev = s.dev) ∧
  (∀ k : Casement, NamesTile q k → Serves q .poke (some (dByte q.d 28)) k s → dirty shRecDesign q = false →
    0xC00 ≤ dW16 q.d 30 → dW16 q.d 30 ≤ 0xDFF → dW16 q.d 32 ≤ 0xFFF → badSrcCode (dW16 q.d 32) = false →
    (∀ b ∈ s.rcd.design, b.code.toNat ≠ dW16 q.d 30) →
    q.d.op = 0xA6 → exec (.recDesignBind q) s0 = .next (complete q .ok 0 (markChanged (modRcd s (fun r => { r with design := r.design ++
      [{ case_ := dCase q.d, tile := Fin.ofNat 96 (dByte q.d 28), src := BitVec.ofNat 12 (dW16 q.d 32),
         code := BitVec.ofNat 12 (dW16 q.d 30) }] })) (dCase q.d))))

/-! ### Network (spec/10_network.md) -/

/-- Packets, flits, bounces and probes: the sender's check, the epoch that the router stamps, CRC failures up to the third,
and what a BOUNCE, a PROBE and a reply do (R244, R249, R250, R254, R255, R258). A flit on a link is the one that the link's
sender offers: the flit whose CRC failed before, else the flit that its arbiter grants (R241; ties are the model's choice,
log entry 26). -/
def Obligations.PacketEventsTakeEffect : Prop :=
  (∀ (t : TileId) (p : Packet) (s : State), (getTile s t).dom.tk = .on →
    let s0 := modNet s t (fun r => { r with injectQ := r.injectQ.erase p })
    let q := stampEpoch (getTile s t).net p
    (senderOk s0 t q.hdr = true → exec (.packetInject t p) s = .next (routerSettle (enterPacket s0 t 5 q) t)) ∧
    (senderOk s0 t q.hdr = false → (getTile s t).net.staleAt = none →
      exec (.packetInject t p) s = .next (postTile (modNet s0 t (fun r => { r with
        stale := bump r.stale, staleAt := some s.dev.now })) t 0x302 2 t (hdrSrc q.hdr) (hdrSrcTenure q.hdr)))) ∧
  (∀ (t : TileId) (port : Fin 4) (s : State), (getTile s t).dom.tk = .on →
    (getTile s (neighbour t port)).dom.tk = .on → (getTile s t).net.down.getLsbD port = false →
    (∀ good, arriving s t port = none → exec (.flitReceive t (.link port) good) s = .next s) ∧
    (∀ c, arriving s t port = some c →
      exec (.flitReceive t (.link port) true) s = .next (crossLink s t port c) ∧
      ((mget (0, 0) (getTile s t).net.crcFails port).1 < 2 →
        exec (.flitReceive t (.link port) false) s = .next (modNet s t (fun r => { r with
          replays := bump r.replays
          crcFails := mset r.crcFails port ((mget (0, 0) (getTile s t).net.crcFails port).1 + 1, c.key) }))) ∧
      (2 ≤ (mget (0, 0) (getTile s t).net.crcFails port).1 →
        exec (.flitReceive t (.link port) false) s = .next (linkDown s t port)))) ∧
  (∀ (t : TileId) (f : Flit) (s : State), (getTile s t).dom.tk = .on → hasService t = true →
    (getTile s t).net.down.getLsbD 4 = false →
    exec (.flitReceive t (.service f) true) s = .next (takeService s t f) ∧
    exec (.flitReceive t (.service f) false) s = .next (badFlit s t 4 0)) ∧
  (∀ (t : TileId) (p : Packet) (q : Req) (kept : List Byte) (s : State),
    hdrType p.hdr = 0x26 → byteAt p.data 0 = statusCode .shuttered →
    exec (.bounce t p (some q) kept) s = .next (complete q .shuttered 0 s)) ∧
  (∀ (t : TileId) (p : Packet) (q : Req) (kept : List Byte) (s : State),
    hdrType p.hdr = 0x26 → byteAt p.data 0 = statusCode .roleMoved →
    (s.hif.retried.contains q.seq = true → exec (.bounce t p (some q) kept) s = .next (complete q .roleMoved 0 s)) ∧
    (s.hif.retried.contains q.seq = false → keptOk (BitVec.ofNat 64 (fieldAt p.data 8 8)) p kept = true →
      ∃ u x, exec (.bounce t p (some q) kept) s = .next u ∧
      u.hif.retried = q.seq :: s.hif.retried ∧ (getTile u t).net.svcQ = (getTile s t).net.svcQ ++ [x] ∧
      x.data = kept ∧ (∀ v : Nat, v ≠ t → getTile u v = getTile s v) ∧ u.cases = s.cases)) ∧
  (∀ (t : TileId) (p : Packet) (s : State), hdrType p.hdr = 0x27 → hdrDst p.hdr = t.val → (getTile s t).dom.tk = .on →
    exec (.probe t p) s = .next (modNet s t (fun r => { r with injectQ := r.injectQ ++
      [mkPacket 0x28 r.svcEpoch 3 t 255 0 (hdrSrcTenure p.hdr % 128) (p.data.take 64)] }))) ∧
  (∀ (p : Packet) (n : BitVec 32) (q : Req) (rest : List Req) (s : State), hdrType p.hdr = 0x28 → s.hub.probes = q :: rest →
    q.seq = fieldAt p.data 0 8 →
    exec (.probeReply p n) s = .next (complete q .ok (n.toNat + 2 ^ 32 * hopsTo (hubBank s) (dByte q.d 28) 18 (netTile q))
      (modHub s (fun h => { h with probes := rest })))) ∧
  (∀ (q : Req) (rest : List Req) (s : State), s.hub.probes = q :: rest →
    exec .netProbeTimeout s = .next (complete q .busy 0 (modHub s (fun h => { h with probes := rest }))))

/-- A port decides by its shutter: a tile that is not listed drops; an OPEN shutter and VC3 deliver; otherwise VC0 is
dropped, and VC1 and VC2 bounce (R249, R256). Without avoided links a route has the length of the shorter ways around its two
rings, X first and then Y, and no route leaves over an avoided link (R236). -/
def Obligations.PortsAndRoutes : Prop :=
  (∀ (sh : Shut) (vc : Nat), portDecision sh false vc = .drop ∧ portDecision .open_ true vc = .deliver ∧
    portDecision sh true 3 = .deliver ∧ (sh ≠ .open_ → portDecision sh true 0 = .drop ∧
      portDecision sh true 1 = .bounce ∧ portDecision sh true 2 = .bounce)) ∧
  (∀ t d : Fin 96,
    let dx := (d.val % 12 + 12 - t.val % 12) % 12
    let dy := (d.val / 12 + 8 - t.val / 12) % 8
    hopsTo { roles := [], avoid := 0 } d 18 t = min dx (12 - dx) + min dy (8 - dy)) ∧
  (∀ (av : Nat → Bool) (t d : Fin 96) (p : Nat), t ≠ d → routePort av t d = some p →
    p < 4 ∧ (p < 2 ↔ t.val % 12 ≠ d.val % 12) ∧ av (linkOf t p) = false)

/-- Steps of an epoch change at a router and at the hub (R251 to R253). Shutters: OPEN to CLOSING to SHUT when the fence
holds, SHUT to OPENING to OPEN when the controller is ready, each acknowledged; a close that takes more than 1 ms is posted
once (R256, R257). -/
def Obligations.EpochAndShutterEventsTakeEffect : Prop :=
  (∀ (t : TileId) (s : State) (e : Epoch), s.hub.epoch = some e →
   (e.stage = .updating → e.written.getLsbD t = false → (getTile s t).dom.tk = .on →
     exec (.roleUpdate t) s = .next (modEpoch (modNet s t (fun r =>
       if e.newEpoch then { r with bank1 := e.bank } else { r with bank0 := e.bank }))
       (fun e => { e with written := setBit e.written t true }))) ∧
   (e.stage = .updating → e.written.getLsbD t = true → e.acked.getLsbD t = false →
     exec (.roleUpdateAck t) s = .next (epochSettle (modEpoch s (fun e => { e with acked := setBit e.acked t true })))) ∧
   (e.stage = .switching → e.switched.getLsbD t = false → (getTile s t).dom.tk = .on →
     exec (.epochSwitch t) s = .next (epochSettle (modEpoch (modNet s t (fun r => { r with svcEpoch := e.newEpoch }))
       (fun e => { e with switched := setBit e.switched t true })))) ∧
   (e.stage = .switching → e.switched.getLsbD t = true → e.switchAcked.getLsbD t = false → s.cases = [] →
     exec (.epochSwitchAck t) s = .next (epochSettle (modEpoch s (fun e => { e with
       switchAcked := setBit e.switchAcked t true })))) ∧
   (e.stage = .draining → mfind e.reports t = none → (getTile s t).dom.tk = .on →
     let r := (getTile s t).net
     exec (.drainQuery t) s = .next (modEpoch s (fun e => { e with
       reports := mset e.reports t (if e.newEpoch then (r.injected0, r.ejected0) else (r.injected1, r.ejected1)) }))) ∧
   (e.stage = .draining → (mfind e.reports t).isSome = true → e.asked.getLsbD t = false →
     let e1 := { e with asked := setBit e.asked t true }
     let s1 := modHub s (fun h => { h with epoch := some e1 })
     (allIn (poweredRouters s) e1.asked = false → exec (.drainReport t) s = .next s1) ∧
     (allIn (poweredRouters s) e1.asked = true → reportsEqual e1 = true →
       exec (.drainReport t) s = .next (epochDrained s1 e1)) ∧
     (allIn (poweredRouters s) e1.asked = true → reportsEqual e1 = false →
       exec (.drainReport t) s = .next (modEpoch s1 (fun e => { e with reports := [], asked := 0 }))))) ∧
  (∀ (i : ShutterId) (s : State),
   (getShut s i = .open_ → exec (.shutter i .close) s = .next (setShut s i .closing)) ∧
   (getShut s i = .shut → exec (.shutter i .open_) s = .next (setShut s i .opening)) ∧
   (getShut s i = .closing → shutterFence s i = true →
     exec (.shutterFenceHolds i) s = .next (sendAck (setShut s i .shut) i)) ∧
   (getShut s i = .closing → shutterFence s i = false → exec (.shutterFenceHolds i) s = .next s) ∧
   (getShut s i = .opening → exec (.tcReady i) s = .next (sendAck (setShut s i .open_) i)) ∧
   exec (.shutterAck i) s = .next (modHub s (fun h => { h with acks := setBit h.acks (shutNum i) false })) ∧
   (∀ x : Shut, getShut (setShut s i x) i = x ∧ (setShut s i x).cases = s.cases ∧ (setShut s i x).dev = s.dev) ∧
   (∀ t : TileId, i = .tile t → (getTile s t).net.shut = .closing → (getTile s t).net.stalled = false →
     exec (.shutterStalled i) s = .next (postTile (modNet s t (fun r => { r with stalled := true })) t 0x306 2 t 0 0)) ∧
   (∀ p, i = .service p → (getTile s (svcTile p)).net.svcShut = .closing → (getTile s (svcTile p)).net.svcStalled = false →
     exec (.shutterStalled i) s = .next (postTile (modNet s (svcTile p) (fun r => { r with svcStalled := true }))
       (shutTile i) 0x306 2 (shutNum i) 0 0)))

/-- Network descriptors where their checks pass (R258 to R260). -/
def Obligations.NetworkDescriptorsTakeEffect : Prop :=
  ∀ (q : Req) (s0 s : State), Begins q s0 s → netTile q ≤ 95 → netBusy q s = false →
  (dirty shRouterStatus q = false → 64 ≤ q.d.length.toNat → q.io.bufOk = true →
    let copied := hostWrite s q.host q.d.addrA (routerStatusBytes s (netTile q))
    ((dByte q.d 29).testBit 0 = false → q.d.op = 0xB0 → exec (.netRouterStatus q) s0 = .next (complete q .ok 0 copied)) ∧
    ((dByte q.d 29).testBit 0 = true → isSteward q s = true → q.d.op = 0xB0 → exec (.netRouterStatus q) s0 =
      .next (complete q .ok 0 (modNet copied (netTile q) (fun r => { r with
        replays := 0, stale := 0, drops := 0, bouncedShut := 0, bouncedMoved := 0, absorbed := 0, peak := 0 })))) ∧
    ((dByte q.d 29).testBit 0 = true → isSteward q s = false →
      q.d.op = 0xB0 → exec (.netRouterStatus q) s0 = .next (complete q .refusedOwnership 0 s))) ∧
  (dirty shRoleRead q = false → dByte q.d 29 ≤ 1 → 1 ≤ dW16 q.d 32 → dByte q.d 30 + dW16 q.d 32 ≤ 256 →
    8 * dW16 q.d 32 ≤ q.d.length.toNat → q.io.bufOk = true →
    q.d.op = 0xB1 → exec (.netRoleRead q) s0 = .next (complete q .ok (dW16 q.d 32) (hostWrite s q.host q.d.addrA
      ((List.range (dW16 q.d 32)).flatMap (fun i =>
        leBytes 8 (roleEntry (rtBank (getTile s (netTile q)).net (dByte q.d 29 == 1)) (dByte q.d 30 + i)).toNat))))) ∧
  (isSteward q s = true → dirty (netShape false false [(28, 1), (30, 1)]) q = false → dByte q.d 28 ≤ 95 →
    1 ≤ dByte q.d 30 → dByte q.d 30 ≤ 3 →
    q.d.op = 0xB2 → exec (.netProbe q) s0 = .next (modNet (modHub s (fun h => { h with probes := h.probes ++ [q] })) (netTile q) (fun r => { r with
      injectQ := r.injectQ ++ [mkPacket 0x27 r.svcEpoch (dByte q.d 30) (netTile q) 255 0 (dByte q.d 28) (probeData q)] }))) ∧
  (isSteward q s = true → dirty (netShape false false [(29, 1)]) q = false → dByte q.d 29 ≤ 3 → q.d.op = 0xB3 →
    exec (.netLinkRetrain q true) s0 = .next (complete q .ok 1 (linkUp s (netTile q) (dByte q.d 29))) ∧
    exec (.netLinkRetrain q false) s0 = .next (complete q .ok 0 (linkDown s (netTile q) (dByte q.d 29))))

/-! ### Power and resets (spec/17_power_reset.md, spec/18_electrical_package.md) -/

/-- Power descriptors where their checks pass (R418 to R423, R425 to R427, R429, R430). -/
def Obligations.PowerDescriptorsTakeEffect : Prop :=
  ∀ (q : Req) (s0 s : State), Begins q s0 s →
  (∀ k : Casement, getCase s (dCase q.d) = some k → notAllowed q .poke s = false → dirty shPwrState q = false →
    dByte q.d 28 ≤ 2 → pwrBusy q s = false → pwrShut q s = false → q.d.op = 0xA8 →
    let asked := modCase s (dCase q.d).val (fun k => { k with pwrWant := k.pwrWant ++ [(pwrTarget q, q)] })
    (pwrTarget q = k.pwr → k.pwrWant = [] → exec (.pwrState q) s0 = .next (complete q .ok (caseCycle k s) s)) ∧
    (pwrTarget q ≠ .run → (pwrTarget q ≠ k.pwr ∨ k.pwrWant ≠ []) → k.pwr ≠ .hold → k.st = .running →
      exec (.pwrState q) s0 = .next (modCase asked (dCase q.d).val (fun k => { k with pwrFrom := .running, halt := true }))) ∧
    (pwrTarget q = .doze → k.pwr = .run → k.pwrWant = [] → k.st ≠ .running →
      exec (.pwrState q) s0 = .next (complete q .ok (caseCycle k s) (enterDoze s (dCase q.d).val .paused))) ∧
    (pwrTarget q = .hold → k.pwr = .run → k.pwrWant = [] → k.st ≠ .running →
      exec (.pwrState q) s0 = .next (modCase asked (dCase q.d).val (fun k => { k with pwrFrom := .paused }))) ∧
    (pwrTarget q = .run → k.pwr ≠ .run → k.wake = false →
      exec (.pwrState q) s0 = .next (modCase (postWake asked 0) (dCase q.d).val (fun k => { k with wake := true })))) ∧
  (isSteward q s = true → dirty shPwrSleep q = false → placementBusy s = false →
    (∀ p ∈ s.cases, p.2.isolated = false) → q.d.op = 0xA9 →
    let asked := haltAll (modDev s (fun d => { d with sleepReq := d.sleepReq ++ [q] }))
    ((∃ p ∈ s.cases, p.2.st = .running) → exec (.pwrSleep q) s0 = .next asked) ∧
    ((∀ p ∈ s.cases, p.2.st ≠ .running) → exec (.pwrSleep q) s0 = .next (sleepGo asked))) ∧
  (isSteward q s = true → dirty shPwrReset q = false → q.d.op = 0xAA →
    (dByte q.d 28 = 2 → dByte q.d 30 = 0 →
      exec (.pwrReset q) s0 = .next (complete q .ok 0 (modDev s (fun d => { d with resetDue := some (d.now + 100000) })))) ∧
    (dByte q.d 28 = 6 → resettable s (dByte q.d 30) = true → testBusy s (dByte q.d 30) = false →
      exec (.pwrReset q) s0 = .next (complete q .ok 0 (tileReset s (dByte q.d 30))))) ∧
  (dirty shPwrStatus q = false → 128 ≤ q.d.length.toNat → q.io.bufOk = true → q.d.op = 0xAB →
    exec (.pwrStatus q) s0 = .next (complete q .ok 0 (hostWrite s q.host q.d.addrA (pwrStatusBytes s))))

/-- DOZE and HOLD: an exit from DOZE brings a running casement back to RUN; HOLD entry begins in a pause (`holdBegin`),
waits until every shutter is SHUT or its fence holds, and then puts the domains into retention or OFF (`holdFinish`); an
exit powers the tiles, still SHUT, and ends when their clocks have locked (`holdGo`) (R420 to R422, R425). SLEEP, the alarm
and the wake, and a bank that loses VIO (R423 to R425, R428, R434). -/
def Obligations.LowPowerEventsTakeEffect : Prop :=
  (∀ (c : CaseId) (s : State) (k : Casement), getCase s c = some k →
   (k.pwr = .doze → k.wake = true → holdNext k = false → s.dev.sleep = .awake → k.pwrFrom = .running →
     exec (.dozeExit c) s = .next (postPwr (wakeRouters (modCase (modTiles s (tilesOf k.region) (fun _ x => { x with
       ct := { x.ct with tmrs := mmap (fun _ m => { m with since := s.dev.now }) x.ct.tmrs } })) c (fun k => { k with
         pwr := .run, wake := false, startUp := none, st := .running,
         halt := !s.dev.sleepReq.isEmpty || k.pwrWant.any (fun w => w.1 != .run) }))) c .run .doze)) ∧
   (k.entering = false → holdNext k = true → k.st = .paused → k.pwr ≠ .hold →
     (allShut (holdBegin s c k) (tilesOf k.region) = false → exec (.holdEntry c) s = .next (holdBegin s c k)) ∧
     (allShut (holdBegin s c k) (tilesOf k.region) = true →
       exec (.holdEntry c) s = .next (holdFinish (holdBegin s c k) c k))) ∧
   (k.entering = true →
     (allShut s (tilesOf k.region) = false → exec (.holdEntry c) s = .next s) ∧
     (allShut s (tilesOf k.region) = true → exec (.holdEntry c) s = .next (holdFinish s c k))) ∧
   (k.pwr = .hold → k.wake = true → s.dev.sleep = .awake → ∀ vio : List Nat,
     (k.startUp = none → exec (.holdExit c vio) s = .next (settleFabric s (settleTins (modCase
       ((tilesOf k.region).foldl (exitTile k.n vio) s) c (fun k => { k with startUp := some 0 }))))) ∧
     (k.startUp = some 0 → exec (.holdExit c vio) s = .next (holdGo s c))) ∧
   (∀ (t : Nat) (x : Tile), let y := holdTile s t x
     y.net.shut = .shut ∧ y.dom.bpa = .retain ∧ y.dom.lf = .retain ∧ y.dom.io = .retain ∧ y.dom.an = .off ∧
     (routesThrough s t = false → y.dom.tk = .off) ∧ y.fab.clocksOn = false ∧ y.ct.tmrs = [] ∧ y.cal.points = [])) ∧
  ((∀ s : State, s.dev.sleep = .entering → s.dev.sleepAt.toNat + 100000 ≤ s.dev.now.toNat →
     ∃ t, exec .sleepPowerOff s = .next t ∧ t.dev.sleep = .asleep ∧
     t.dev.svc = .off ∧ t.dev.pcieA = .off ∧ t.dev.pcieB = .off ∧ t.dev.bspDom = .off ∧ t.jnl = Journal.cold ∧
     (∀ u : Nat, u < 96 → (getTile t u).dom = { bpa := .off, lf := .off, an := .off, io := .off, tk := .off })) ∧
   (∀ s : State, s.dev.sleep ≠ .awake → s.dev.wake = false → s.dev.alarm ≠ 0 → s.dev.alarm.toNat ≤ s.dev.now.toNat →
     exec .sleepAlarm s = .next (post (modDev s (fun d => { d with wake := true, lastWake := 2 })) 0x005 0 2 0xFF 0xFFFF)) ∧
   (∀ (vio : List Nat) (s : State), s.dev.sleep = .asleep → s.dev.wake = true → ∃ t, exec (.sleepWake vio) s = .next t ∧
     t.dev.sleep = .awake ∧ t.dev.wake = false ∧ t.dev.alarm = 0 ∧ t.dev.wakeN = true ∧ t.dev.svc = .on ∧
     t.dev.pcieA = .on ∧ t.dev.pcieB = .on ∧ t.dev.bspDom = .on ∧ t.bsp.training = ((linkSet s.bsp).1 != 0) ∧
     (∀ (c : Nat) (k : Casement), getCase s c = some k → getCase t c = some (Casement.created k.owner k.region))) ∧
   (∀ (t : TileId) (s : State), (getTile s t).dom.io = .on → (getTile s t).pin.vioLost = false →
     exec (.vioLoss t) s = .next (settleFabric s (settleTins (modPin s t (fun y => { y with vioLost := true }))))))

/-- COLD, PIN and DEVICE resets: what begins one, what the device holds during it, what OTP, MRAM and device time keep, and
how it ends (R288, R426, R428, R431, R436). A power-up finds MRAM as the upsets and cut commits it names have left it. -/
def Obligations.DeviceResetsTakeEffect : Prop :=
  (∀ (s : State) (harms : List MramHarm),
    let holds := fun (m t : State) (kind : InReset) =>
      t.dev.inReset = kind ∧ t.cases = [] ∧ t.hif.hosts = [] ∧ t.hif.rings = [] ∧ t.hif.assign = [] ∧ t.hif.ready = false ∧
      t.jnl = Journal.cold ∧ t.dev.locks = 0 ∧ t.dev.pinCase = [] ∧ t.dev.changed = 0 ∧ t.dev.now = m.dev.now ∧
      t.dev.keys = m.dev.keys ∧ t.dev.rollA = m.dev.rollA ∧ t.dev.rollB = m.dev.rollB ∧ t.rcd.slots = m.rcd.slots ∧
      t.rcd.counts = m.rcd.counts ∧ t.rcd.notify = [] ∧ t.rcd.design = [] ∧
      (∀ u : Nat, (getTile t u).cfg = [] ∧ (getTile t u).bp = Tile.cold.bp ∧ (getTile t u).fab = Tile.cold.fab ∧
        (getTile t u).cal.copyA = (getTile m u).cal.copyA ∧ (getTile t u).ctl.repairA = (getTile m u).ctl.repairA)
    (∃ t, exec (.coldReset none harms) s = .next t ∧ holds (harms.foldl harmMram s) t .cold) ∧
    (s.dev.inReset ≠ .cold → ∃ t, exec .pinReset s = .next t ∧ holds s t .pin) ∧
    (∀ due : Time, s.dev.resetDue = some due → due.toNat ≤ s.dev.now.toNat → s.dev.inReset = .none →
      ∃ t, exec .deviceResetStart s = .next t ∧ holds s t .device)) ∧
  (∀ (v : Supply) (mv : Nat) (harms : List MramHarm) (s : State),
    (brownOutAt v ≤ mv → exec (.coldReset (some (v, mv)) harms) s = .next s) ∧
    (mv < brownOutAt v → ∃ t, exec (.coldReset (some (v, mv)) harms) s = .next t ∧ t.dev.inReset = .cold ∧
      t.dev.lastBrownOut = BitVec.ofNat 8 (supplyCode v) ∧ t.cases = [] ∧ t.dev.locks = 0 ∧
      (v = .vaux ∨ s.dev.inReset = .cold → mkEv s 0x002 0 (evArg (supplyCode v) 0 0) false ∈ t.rcd.posted) ∧
      (v ≠ .vaux → s.dev.inReset ≠ .cold → t.rcd.slots = (harms.foldl harmMram
        (recWrite s true s.dev.now 0x002 0 (evArg (supplyCode v) 0 0) false false)).rcd.slots))) ∧
  (∀ (sel : BitVec 2) (vio : List Nat) (s : State),
    (s.dev.inReset = .pin ∨ s.dev.inReset = .device ∧ s.dev.resetUntil.toNat ≤ s.dev.now.toNat) →
    ∃ t, exec (.resetEnd sel vio) s = .next t ∧ t.dev.inReset = .none ∧
      t.dev.lastReset = (if s.dev.inReset = .pin then 1 else 2) ∧ t.dev.lastResetAt = s.dev.now ∧
      t.hif.steward = Config.stewardFix.getD (if sel = 0 then 0 else if sel = 1 then 1 else if sel = 2 then 4 else 5) ∧
      t.bsp.training = true ∧
      t.rcd.posted = s.rcd.posted ++ [mkEv s 0x001 0 (evArg (if s.dev.inReset = .pin then 1 else 2) 0xFF 0) false]) ∧
  (∀ (sel : BitVec 2) (vio : List Nat) (s : State), s.dev.inReset = .cold →
    ∃ t, exec (.resetEnd sel vio) s = .next t ∧ t.dev.inReset = .none ∧ t.dev.lastReset = 0)

/-! ### The whole machine -/

/-- The addressed stores of State.reset are in canonical form. -/
def Obligations.ResetStoresAreCanonical : Prop := storesOk State.reset

/-- Every step keeps the addressed stores (configuration spaces, emulated memories, initial banks, fabric RAM, hold and
checkpoint banks and the journal window) in canonical form. -/
def Obligations.StoresStayCanonical : Prop :=
  ∀ s t : State, storesOk s → step s = .next t → storesOk t

/-- No command changes the queue. Taking the front command, and a waiting descriptor that joins an empty queue, are the step's. -/
def Obligations.CommandsLeaveTheQueue : Prop :=
  ∀ (c : Instr) (s t : State), exec c s = .next t → t.pending = s.pending

/-- A locked pin stays locked until a COLD, PIN or DEVICE reset begins (R143). -/
def Obligations.LocksLastUntilReset : Prop :=
  ∀ (c : Instr) (s t : State) (n : Nat), exec c s = .next t → s.dev.locks.getLsbD n = true →
    t.dev.locks.getLsbD n = true ∨ (∃ v h, c = .coldReset v h) ∨ c = .pinReset ∨ c = .deviceResetStart

/-- A key slot of OTP that is programmed keeps its hash, and stays programmed; one that is revoked stays revoked (R329, R348). -/
def Obligations.KeySlotsOnlyGrow : Prop :=
  ∀ (s t : State) (n : Nat), step s = .next t → (keySlot s n).programmed = true →
    (keySlot t n).programmed = true ∧ (keySlot t n).hash = (keySlot s n).hash ∧
    ((keySlot s n).revoked = true → (keySlot t n).revoked = true)
end

