-- ==== Sys2Proof/Laws/Maps.lean ====
section
/-! SUPPORT. Laws of keyed maps and of addressed stores: a read after a write, and that every write keeps the
canonical form. -/

namespace Sys2Proof.Machine

/-! ### Keyed maps -/

@[simp] theorem mfind_mset_self {α : Type} (m : Map α) (k : Nat) (v : α) : mfind (mset m k v) k = some v := by
  induction m with
  | nil => simp [mset, mfind]
  | cons p r ih =>
    obtain ⟨j, w⟩ := p
    simp only [mset]
    split
    · simp [mfind]
    · split
      · simp [mfind]
      · rename_i h1 h2
        simp [mfind, h2, ih]

theorem mfind_mset_ne {α : Type} (m : Map α) (k j : Nat) (v : α) (h : j ≠ k) : mfind (mset m k v) j = mfind m j := by
  induction m with
  | nil => simp [mset, mfind, h]
  | cons p r ih =>
    obtain ⟨i, w⟩ := p
    simp only [mset]
    split
    · simp [mfind, h]
    · split
      · rename_i h1 h2
        subst h2
        simp [mfind, h]
      · simp only [mfind, ih]

theorem mget_eq {α : Type} (d : α) (m : Map α) (k : Nat) : mget d m k = (mfind m k).getD d := by
  induction m with
  | nil => rfl
  | cons p r ih =>
    obtain ⟨j, w⟩ := p
    simp only [mget, mfind]
    split
    · rfl
    · exact ih

@[simp] theorem mget_mset_self {α : Type} (d : α) (m : Map α) (k : Nat) (v : α) : mget d (mset m k v) k = v := by
  simp [mget_eq, mfind_mset_self]

theorem mget_mset_ne {α : Type} (d : α) (m : Map α) (k j : Nat) (v : α) (h : j ≠ k) :
    mget d (mset m k v) j = mget d m j := by
  simp [mget_eq, mfind_mset_ne m k j v h]

/-! ### Addressed stores -/

/-- A byte below every address of a canonical store reads as an unlisted byte. -/
theorem memGet_below (d : Nat → Byte) (m : List Host.Cell) (lo a : Nat) (h : memWfFrom d lo m = true) (ha : a < lo) :
    memGet d m a = d a := by
  induction m generalizing lo with
  | nil => rfl
  | cons c r ih =>
    obtain ⟨k, w⟩ := c
    simp only [memWfFrom, Bool.and_eq_true, decide_eq_true_eq] at h
    simp only [memGet]
    rw [if_neg (by omega)]
    exact ih (k + 1) h.2 (by omega)

/-- A read of a byte just written gives what was written. -/
theorem memGet_memPut_self (d : Nat → Byte) (m : List Host.Cell) (lo a : Nat) (v : Byte)
    (h : memWfFrom d lo m = true) : memGet d (memPut d m a v) a = v := by
  induction m generalizing lo with
  | nil =>
    simp only [memPut]
    split
    · rename_i hv; simp [memGet, hv]
    · simp [memGet]
  | cons c r ih =>
    obtain ⟨k, w⟩ := c
    have h0 := h
    simp only [memWfFrom, Bool.and_eq_true, decide_eq_true_eq] at h
    simp only [memPut]
    split
    · rename_i hlt
      split
      · rename_i hv
        simp only [memGet]
        rw [if_neg (by omega), hv]
        exact memGet_below d r (k + 1) a h.2 (by omega)
      · simp [memGet]
    · split
      · rename_i h1 h2
        subst h2
        split
        · rename_i hv
          rw [hv]
          exact memGet_below d r (a + 1) a h.2 (by omega)
        · simp [memGet]
      · rename_i h1 h2
        simp only [memGet, if_neg h2]
        exact ih (k + 1) h.2

/-- A write leaves every other byte as it was. -/
theorem memGet_memPut_ne (d : Nat → Byte) (m : List Host.Cell) (a b : Nat) (v : Byte) (hb : b ≠ a) :
    memGet d (memPut d m a v) b = memGet d m b := by
  induction m with
  | nil =>
    simp only [memPut]
    split <;> simp [memGet, hb]
  | cons c r ih =>
    obtain ⟨k, w⟩ := c
    simp only [memPut]
    split
    · split
      · rfl
      · simp [memGet, hb]
    · split
      · rename_i h1 h2
        subst h2
        split <;> simp [memGet, hb]
      · simp only [memGet, ih]

theorem memWfFrom_mono (d : Nat → Byte) (m : List Host.Cell) (lo lo' : Nat) (h : memWfFrom d lo' m = true)
    (hl : lo ≤ lo') : memWfFrom d lo m = true := by
  cases m with
  | nil => rfl
  | cons c r =>
    obtain ⟨k, w⟩ := c
    simp only [memWfFrom, Bool.and_eq_true, decide_eq_true_eq] at h ⊢
    exact ⟨⟨by omega, h.1.2⟩, h.2⟩

/-- A write keeps the canonical form above any bound below its address. -/
theorem memPut_wfFrom (d : Nat → Byte) (m : List Host.Cell) (lo a : Nat) (v : Byte) (h : memWfFrom d lo m = true)
    (hl : lo ≤ a) : memWfFrom d lo (memPut d m a v) = true := by
  induction m generalizing lo with
  | nil =>
    simp only [memPut]
    split
    · rfl
    · rename_i hv; simp [memWfFrom, hl, hv]
  | cons c r ih =>
    obtain ⟨k, w⟩ := c
    have h0 := h
    simp only [memWfFrom, Bool.and_eq_true, decide_eq_true_eq] at h
    obtain ⟨⟨hk, hw⟩, hr⟩ := h
    simp only [memPut]
    split
    · split
      · exact h0
      · rename_i hlt hv
        simp only [memWfFrom, Bool.and_eq_true, decide_eq_true_eq]
        exact ⟨⟨hl, by simpa using hv⟩, ⟨by omega, hw⟩, hr⟩
    · split
      · rename_i h1 h2
        subst h2
        split
        · exact memWfFrom_mono d r lo (a + 1) hr (by omega)
        · rename_i hv
          simp only [memWfFrom, Bool.and_eq_true, decide_eq_true_eq]
          exact ⟨⟨hl, by simpa using hv⟩, hr⟩
      · simp only [memWfFrom, Bool.and_eq_true, decide_eq_true_eq]
        exact ⟨⟨hk, hw⟩, ih (k + 1) hr (by omega)⟩

/-- Writing one byte keeps a store canonical. -/
theorem memPut_wf (d : Nat → Byte) (m : List Host.Cell) (a : Nat) (v : Byte) (h : Memory.wf d m = true) :
    Memory.wf d (memPut d m a v) = true := memPut_wfFrom d m 0 a v h (Nat.zero_le a)

/-- Writing a run of bytes keeps a store canonical. -/
theorem memPuts_wf (d : Nat → Byte) (m : List Host.Cell) (a : Nat) (l : List Byte) (h : Memory.wf d m = true) :
    Memory.wf d (memPuts d m a l) = true := by
  induction l generalizing m a with
  | nil => exact h
  | cons b r ih => exact ih (memPut d m a b) (a + 1) (memPut_wf d m a b h)

/-- Dropping cells keeps a store canonical. -/
theorem memClear_wfFrom (d : Nat → Byte) (m : List Host.Cell) (lo : Nat) (keep : Nat → Bool)
    (h : memWfFrom d lo m = true) : memWfFrom d lo (memClear m keep) = true := by
  induction m generalizing lo with
  | nil => rfl
  | cons c r ih =>
    obtain ⟨k, w⟩ := c
    simp only [memWfFrom, Bool.and_eq_true, decide_eq_true_eq] at h
    obtain ⟨⟨hk, hw⟩, hr⟩ := h
    simp only [memClear, List.filter_cons]
    split
    · simp only [memWfFrom, Bool.and_eq_true, decide_eq_true_eq]
      exact ⟨⟨hk, hw⟩, ih (k + 1) hr⟩
    · exact memWfFrom_mono d _ lo (k + 1) (ih (k + 1) hr) (by omega)

/-- Dropping cells keeps a store canonical. -/
theorem memClear_wf (d : Nat → Byte) (m : List Host.Cell) (keep : Nat → Bool) (h : Memory.wf d m = true) :
    Memory.wf d (memClear m keep) = true := memClear_wfFrom d m 0 keep h

end Sys2Proof.Machine
end

