-- ==== Sys2Proof/Laws/PerInstr.lean ====
section
/-! SUPPORT. A law of every command, made for each constructor: a descriptor is well formed where its opcode byte is its
command's, whatever its other fields hold, since the device checks them; RESERVED_OPCODE apart, whose opcode no chapter lists. -/

namespace Sys2Proof.Laws

/-- A command that carries a descriptor of its own opcode is well formed, or is RESERVED_OPCODE with that descriptor (R280,
R294). -/
def F.Statement (i : Instr) : Prop :=
  ∀ (op : Nat) (q : Req), i.request = some (op, q) → q.d.op.toNat = op → i.wellFormed = true ∨ ∃ o, i = .reservedOpcode o q

theorem wellFormed_of_request {i : Instr} {op : Nat} {q : Req} (hb : i.bounded = true) (hr : i.request = some (op, q))
    (ho : q.d.op.toNat = op) : i.wellFormed = true := by
  simp [Instr.wellFormed, hb, hr, ho]

theorem F.programmeStep (t : TileId) (seen : List StoreFault) : F.Statement (.programmeStep t seen) := fun _ _ h _ => nomatch h
theorem F.gather (hub : SectorId) (c : CaseId) (w : GatherWire) : F.Statement (.gather hub c w) := fun _ _ h _ => nomatch h
theorem F.lintelClose (t : TileId) : F.Statement (.lintelClose t) := fun _ _ h _ => nomatch h
theorem F.lintelRelease (t : TileId) : F.Statement (.lintelRelease t) := fun _ _ h _ => nomatch h
theorem F.bundleArrival (t : TileId) (p : Packet) : F.Statement (.bundleArrival t p) := fun _ _ h _ => nomatch h
theorem F.stallTimeout (t : TileId) : F.Statement (.stallTimeout t) := fun _ _ h _ => nomatch h
theorem F.sysrefLoss : F.Statement (.sysrefLoss) := fun _ _ h _ => nomatch h
theorem F.sysrefReturn : F.Statement (.sysrefReturn) := fun _ _ h _ => nomatch h
theorem F.generatorUnlock (t : TileId) : F.Statement (.generatorUnlock t) := fun _ _ h _ => nomatch h
theorem F.generatorRelock (t : TileId) : F.Statement (.generatorRelock t) := fun _ _ h _ => nomatch h
theorem F.clockFailed (t : TileId) : F.Statement (.clockFailed t) := fun _ _ h _ => nomatch h
theorem F.configScan (t : TileId) (q : Fin 16) (good : Bool) : F.Statement (.configScan t q good) := fun _ _ h _ => nomatch h
theorem F.tcWatchdogExpiry (t : TileId) : F.Statement (.tcWatchdogExpiry t) := fun _ _ h _ => nomatch h
theorem F.tcRestartDone (t : TileId) (bootOk : Bool) : F.Statement (.tcRestartDone t bootOk) := fun _ _ h _ => nomatch h
theorem F.autoRetire (t : TileId) : F.Statement (.autoRetire t) := fun _ _ h _ => nomatch h
theorem F.fabricRamPortAAccess (t : TileId) (q : Fin 16) (upsets : List (Nat × Byte)) (meetsPortB : Bool) (broken : Option (Fin 32768)) : F.Statement (.fabricRamPortAAccess t q upsets meetsPortB broken) := fun _ _ h _ => nomatch h
theorem F.fabricClockRestart (t : TileId) (k : Fin 4) : F.Statement (.fabricClockRestart t k) := fun _ _ h _ => nomatch h
theorem F.pinSwitchSettle (t : TileId) (n : Fin 12) : F.Statement (.pinSwitchSettle t n) := fun _ _ h _ => nomatch h
theorem F.comparatorCrossing (t : TileId) (k : Fin 16) (w : AnalogIn) (writeOk : Bool) : F.Statement (.comparatorCrossing t k w writeOk) := fun _ _ h _ => nomatch h
theorem F.cmpSampleTick (t : TileId) (k : Fin 16) (w : AnalogIn) (writeOk : Bool) : F.Statement (.cmpSampleTick t k w writeOk) := fun _ _ h _ => nomatch h
theorem F.timerCompare (t : TileId) (k : Fin 8) : F.Statement (.timerCompare t k) := fun _ _ h _ => nomatch h
theorem F.timerWrap (t : TileId) (k : Fin 8) : F.Statement (.timerWrap t k) := fun _ _ h _ => nomatch h
theorem F.timerOneShotEnd (t : TileId) (k : Fin 8) : F.Statement (.timerOneShotEnd t k) := fun _ _ h _ => nomatch h
theorem F.timerSourceEdge (t : TileId) (k : Fin 8) : F.Statement (.timerSourceEdge t k) := fun _ _ h _ => nomatch h
theorem F.triggerDelayExpiry (t : TileId) : F.Statement (.triggerDelayExpiry t) := fun _ _ h _ => nomatch h
theorem F.conversionIssue (t : TileId) : F.Statement (.conversionIssue t) := fun _ _ h _ => nomatch h
theorem F.conversionComplete (t : TileId) (slice : Fin 4) (w : AnalogIn) : F.Statement (.conversionComplete t slice w) := fun _ _ h _ => nomatch h
theorem F.injSourceEdge (t : TileId) (j : Fin 4) : F.Statement (.injSourceEdge t j) := fun _ _ h _ => nomatch h
theorem F.accSnapEdge (t : TileId) (a : Fin 32) : F.Statement (.accSnapEdge t a) := fun _ _ h _ => nomatch h
theorem F.designEventEdge (t : TileId) (src : BitVec 12) : F.Statement (.designEventEdge t src) := fun _ _ h _ => nomatch h
theorem F.currentLimitExpiry (t : TileId) (o : AnOutput) : F.Statement (.currentLimitExpiry t o) := fun _ _ h _ => nomatch h
theorem F.referenceSettled (t : TileId) (l : RefLevel) : F.Statement (.referenceSettled t l) := fun _ _ h _ => nomatch h
theorem F.arefRangeChange (sec : SectorId) (inRange : Bool) : F.Statement (.arefRangeChange sec inRange) := fun _ _ h _ => nomatch h
theorem F.anSwitchClose (t : TileId) : F.Statement (.anSwitchClose t) := fun _ _ h _ => nomatch h
theorem F.anOutClose (t : TileId) : F.Statement (.anOutClose t) := fun _ _ h _ => nomatch h
theorem F.hostEnable (h : HostId) : F.Statement (.hostEnable h) := fun _ _ h _ => nomatch h
theorem F.hostDisable (h : HostId) : F.Statement (.hostDisable h) := fun _ _ h _ => nomatch h
theorem F.quiesce (h : HostId) : F.Statement (.quiesce h) := fun _ _ h _ => nomatch h
theorem F.quiesceClear (h : HostId) : F.Statement (.quiesceClear h) := fun _ _ h _ => nomatch h
theorem F.registerWrite (h : HostId) (offset : Fin 65536) (wide : Bool) (value : BitVec 64) : F.Statement (.registerWrite h offset wide value) := fun _ _ h _ => nomatch h
theorem F.deviceReady : F.Statement (.deviceReady) := fun _ _ h _ => nomatch h
theorem F.doorbellPoll (h : HostId) (rd : PollReads) : F.Statement (.doorbellPoll h rd) := fun _ _ h _ => nomatch h
theorem F.msixModTimeExpiry (h : HostId) (ring : Option (BitVec 16)) : F.Statement (.msixModTimeExpiry h ring) := fun _ _ h _ => nomatch h
theorem F.reservedOpcode (op : Byte) (q : Req) : F.Statement (.reservedOpcode op q) := fun _ _ h _ => .inr ⟨_, by simp only [Instr.request, Option.some.injEq, Prod.mk.injEq] at h; rw [h.2]⟩
theorem F.nop (q : Req) : F.Statement (.nop q) := fun _ _ h ho => .inl (wellFormed_of_request rfl h ho)
theorem F.ringCreate (q : Req) : F.Statement (.ringCreate q) := fun _ _ h ho => .inl (wellFormed_of_request rfl h ho)
theorem F.ringDelete (q : Req) : F.Statement (.ringDelete q) := fun _ _ h ho => .inl (wellFormed_of_request rfl h ho)
theorem F.ringModerate (q : Req) : F.Statement (.ringModerate q) := fun _ _ h ho => .inl (wellFormed_of_request rfl h ho)
theorem F.ringQuery (q : Req) : F.Statement (.ringQuery q) := fun _ _ h ho => .inl (wellFormed_of_request rfl h ho)
theorem F.ringAssign (q : Req) : F.Statement (.ringAssign q) := fun _ _ h ho => .inl (wellFormed_of_request rfl h ho)
theorem F.stewardHandover (q : Req) : F.Statement (.stewardHandover q) := fun _ _ h ho => .inl (wellFormed_of_request rfl h ho)
theorem F.hostStatus (q : Req) : F.Statement (.hostStatus q) := fun _ _ h ho => .inl (wellFormed_of_request rfl h ho)
theorem F.cfgLoad (q : Req) : F.Statement (.cfgLoad q) := fun _ _ h ho => .inl (wellFormed_of_request rfl h ho)
theorem F.imageData (bytes : List Byte) (ended : Bool) : F.Statement (.imageData bytes ended) := fun _ _ h _ => nomatch h
theorem F.loadPauseTimeout (c : CaseId) : F.Statement (.loadPauseTimeout c) := fun _ _ h _ => nomatch h
theorem F.loadPass2Start : F.Statement (.loadPass2Start) := fun _ _ h _ => nomatch h
theorem F.fetchTimeout : F.Statement (.fetchTimeout) := fun _ _ h _ => nomatch h
theorem F.startUpStep (c : CaseId) : F.Statement (.startUpStep c) := fun _ _ h _ => nomatch h
theorem F.startUpLockTimeout (c : CaseId) : F.Statement (.startUpLockTimeout c) := fun _ _ h _ => nomatch h
theorem F.cfgStatus (q : Req) : F.Statement (.cfgStatus q) := fun _ _ h ho => .inl (wellFormed_of_request rfl h ho)
theorem F.cfgKeyProgram (q : Req) : F.Statement (.cfgKeyProgram q) := fun _ _ h ho => .inl (wellFormed_of_request rfl h ho)
theorem F.cfgKeyRevoke (q : Req) : F.Statement (.cfgKeyRevoke q) := fun _ _ h ho => .inl (wellFormed_of_request rfl h ho)
theorem F.caseCreate (q : Req) : F.Statement (.caseCreate q) := fun _ _ h ho => .inl (wellFormed_of_request rfl h ho)
theorem F.caseDissolve (q : Req) : F.Statement (.caseDissolve q) := fun _ _ h ho => .inl (wellFormed_of_request rfl h ho)
theorem F.caseOwner (q : Req) : F.Statement (.caseOwner q) := fun _ _ h ho => .inl (wellFormed_of_request rfl h ho)
theorem F.caseReset (q : Req) : F.Statement (.caseReset q) := fun _ _ h ho => .inl (wellFormed_of_request rfl h ho)
theorem F.casePolicy (q : Req) : F.Statement (.casePolicy q) := fun _ _ h ho => .inl (wellFormed_of_request rfl h ho)
theorem F.casePinAssign (q : Req) : F.Statement (.casePinAssign q) := fun _ _ h ho => .inl (wellFormed_of_request rfl h ho)
theorem F.rolePromote (q : Req) : F.Statement (.rolePromote q) := fun _ _ h ho => .inl (wellFormed_of_request rfl h ho)
theorem F.backgroundCopyDone : F.Statement (.backgroundCopyDone) := fun _ _ h _ => nomatch h
theorem F.roleRetire (q : Req) : F.Statement (.roleRetire q) := fun _ _ h ho => .inl (wellFormed_of_request rfl h ho)
theorem F.tileRetest (q : Req) : F.Statement (.tileRetest q) := fun _ _ h ho => .inl (wellFormed_of_request rfl h ho)
theorem F.tileRepair (q : Req) : F.Statement (.tileRepair q) := fun _ _ h ho => .inl (wellFormed_of_request rfl h ho)
theorem F.tcFwLoad (q : Req) : F.Statement (.tcFwLoad q) := fun _ _ h ho => .inl (wellFormed_of_request rfl h ho)
theorem F.tcFwActivate (q : Req) : F.Statement (.tcFwActivate q) := fun _ _ h ho => .inl (wellFormed_of_request rfl h ho)
theorem F.caseStatus (q : Req) : F.Statement (.caseStatus q) := fun _ _ h ho => .inl (wellFormed_of_request rfl h ho)
theorem F.tileStatus (q : Req) : F.Statement (.tileStatus q) := fun _ _ h ho => .inl (wellFormed_of_request rfl h ho)
theorem F.bpPeek (q : Req) : F.Statement (.bpPeek q) := fun _ _ h ho => .inl (wellFormed_of_request rfl h ho)
theorem F.bpPoke (q : Req) : F.Statement (.bpPoke q) := fun _ _ h ho => .inl (wellFormed_of_request rfl h ho)
theorem F.memPeek (q : Req) : F.Statement (.memPeek q) := fun _ _ h ho => .inl (wellFormed_of_request rfl h ho)
theorem F.memPoke (q : Req) : F.Statement (.memPoke q) := fun _ _ h ho => .inl (wellFormed_of_request rfl h ho)
theorem F.scheduleInfo (q : Req) : F.Statement (.scheduleInfo q) := fun _ _ h ho => .inl (wellFormed_of_request rfl h ho)
theorem F.storeStatus (q : Req) : F.Statement (.storeStatus q) := fun _ _ h ho => .inl (wellFormed_of_request rfl h ho)
theorem F.cycleRate (q : Req) : F.Statement (.cycleRate q) := fun _ _ h ho => .inl (wellFormed_of_request rfl h ho)
theorem F.cyclePause (q : Req) : F.Statement (.cyclePause q) := fun _ _ h ho => .inl (wellFormed_of_request rfl h ho)
theorem F.cycleStep (q : Req) : F.Statement (.cycleStep q) := fun _ _ h ho => .inl (wellFormed_of_request rfl h ho)
theorem F.boundaryPeek (q : Req) : F.Statement (.boundaryPeek q) := fun _ _ h ho => .inl (wellFormed_of_request rfl h ho)
theorem F.lintelStatus (q : Req) : F.Statement (.lintelStatus q) := fun _ _ h ho => .inl (wellFormed_of_request rfl h ho)
theorem F.pinWrite (q : Req) : F.Statement (.pinWrite q) := fun _ _ h ho => .inl (wellFormed_of_request rfl h ho)
theorem F.pinRead (q : Req) : F.Statement (.pinRead q) := fun _ _ h ho => .inl (wellFormed_of_request rfl h ho)
theorem F.pinSetup (q : Req) : F.Statement (.pinSetup q) := fun _ _ h ho => .inl (wellFormed_of_request rfl h ho)
theorem F.pinLine (q : Req) : F.Statement (.pinLine q) := fun _ _ h ho => .inl (wellFormed_of_request rfl h ho)
theorem F.pinLock (q : Req) : F.Statement (.pinLock q) := fun _ _ h ho => .inl (wellFormed_of_request rfl h ho)
theorem F.pinStatus (q : Req) : F.Statement (.pinStatus q) := fun _ _ h ho => .inl (wellFormed_of_request rfl h ho)
theorem F.pinWindowStore (t : TileId) (mask : BitVec 12) (word : BitVec 32) : F.Statement (.pinWindowStore t mask word) := fun _ _ h _ => nomatch h
theorem F.pinLockWrite (t : TileId) (word : BitVec 32) : F.Statement (.pinLockWrite t word) := fun _ _ h _ => nomatch h
theorem F.anCellSet (q : Req) : F.Statement (.anCellSet q) := fun _ _ h ho => .inl (wellFormed_of_request rfl h ho)
theorem F.anNetSet (q : Req) : F.Statement (.anNetSet q) := fun _ _ h ho => .inl (wellFormed_of_request rfl h ho)
theorem F.anPinSet (q : Req) : F.Statement (.anPinSet q) := fun _ _ h ho => .inl (wellFormed_of_request rfl h ho)
theorem F.anStatus (q : Req) : F.Statement (.anStatus q) := fun _ _ h ho => .inl (wellFormed_of_request rfl h ho)
theorem F.cmpSet (q : Req) : F.Statement (.cmpSet q) := fun _ _ h ho => .inl (wellFormed_of_request rfl h ho)
theorem F.cmpEvbind (q : Req) : F.Statement (.cmpEvbind q) := fun _ _ h ho => .inl (wellFormed_of_request rfl h ho)
theorem F.cmpCheck (q : Req) : F.Statement (.cmpCheck q) := fun _ _ h ho => .inl (wellFormed_of_request rfl h ho)
theorem F.tmSet (q : Req) : F.Statement (.tmSet q) := fun _ _ h ho => .inl (wellFormed_of_request rfl h ho)
theorem F.tmArm (q : Req) : F.Statement (.tmArm q) := fun _ _ h ho => .inl (wellFormed_of_request rfl h ho)
theorem F.tmRead (q : Req) : F.Statement (.tmRead q) := fun _ _ h ho => .inl (wellFormed_of_request rfl h ho)
theorem F.ctStatus (q : Req) : F.Statement (.ctStatus q) := fun _ _ h ho => .inl (wellFormed_of_request rfl h ho)
theorem F.cvSetup (q : Req) : F.Statement (.cvSetup q) := fun _ _ h ho => .inl (wellFormed_of_request rfl h ho)
theorem F.cvSeqSet (q : Req) : F.Statement (.cvSeqSet q) := fun _ _ h ho => .inl (wellFormed_of_request rfl h ho)
theorem F.cvInjSet (q : Req) : F.Statement (.cvInjSet q) := fun _ _ h ho => .inl (wellFormed_of_request rfl h ho)
theorem F.cvStart (q : Req) : F.Statement (.cvStart q) := fun _ _ h ho => .inl (wellFormed_of_request rfl h ho)
theorem F.cvInject (q : Req) : F.Statement (.cvInject q) := fun _ _ h ho => .inl (wellFormed_of_request rfl h ho)
theorem F.cvAccSet (q : Req) : F.Statement (.cvAccSet q) := fun _ _ h ho => .inl (wellFormed_of_request rfl h ho)
theorem F.cvAccRead (q : Req) : F.Statement (.cvAccRead q) := fun _ _ h ho => .inl (wellFormed_of_request rfl h ho)
theorem F.cvTrkRead (q : Req) : F.Statement (.cvTrkRead q) := fun _ _ h ho => .inl (wellFormed_of_request rfl h ho)
theorem F.cvSnap (q : Req) : F.Statement (.cvSnap q) := fun _ _ h ho => .inl (wellFormed_of_request rfl h ho)
theorem F.cvStatus (q : Req) : F.Statement (.cvStatus q) := fun _ _ h ho => .inl (wellFormed_of_request rfl h ho)
theorem F.calCapture (q : Req) : F.Statement (.calCapture q) := fun _ _ h ho => .inl (wellFormed_of_request rfl h ho)
theorem F.calCompute (q : Req) : F.Statement (.calCompute q) := fun _ _ h ho => .inl (wellFormed_of_request rfl h ho)
theorem F.calCellZero (q : Req) : F.Statement (.calCellZero q) := fun _ _ h ho => .inl (wellFormed_of_request rfl h ho)
theorem F.calSlice (q : Req) : F.Statement (.calSlice q) := fun _ _ h ho => .inl (wellFormed_of_request rfl h ho)
theorem F.calLimits (q : Req) : F.Statement (.calLimits q) := fun _ _ h ho => .inl (wellFormed_of_request rfl h ho)
theorem F.calRead (q : Req) : F.Statement (.calRead q) := fun _ _ h ho => .inl (wellFormed_of_request rfl h ho)
theorem F.fabricRamRead (q : Req) : F.Statement (.fabricRamRead q) := fun _ _ h ho => .inl (wellFormed_of_request rfl h ho)
theorem F.fabricRamWrite (q : Req) : F.Statement (.fabricRamWrite q) := fun _ _ h ho => .inl (wellFormed_of_request rfl h ho)
theorem F.fabricStatus (q : Req) : F.Statement (.fabricStatus q) := fun _ _ h ho => .inl (wellFormed_of_request rfl h ho)
theorem F.fabricClock (q : Req) : F.Statement (.fabricClock q) := fun _ _ h ho => .inl (wellFormed_of_request rfl h ho)
theorem F.bspLink (q : Req) : F.Statement (.bspLink q) := fun _ _ h ho => .inl (wellFormed_of_request rfl h ho)
theorem F.bspStatus (q : Req) : F.Statement (.bspStatus q) := fun _ _ h ho => .inl (wellFormed_of_request rfl h ho)
theorem F.bspStreamBind (q : Req) : F.Statement (.bspStreamBind q) := fun _ _ h ho => .inl (wellFormed_of_request rfl h ho)
theorem F.bspExportSet (q : Req) : F.Statement (.bspExportSet q) := fun _ _ h ho => .inl (wellFormed_of_request rfl h ho)
theorem F.bspStreamReset (q : Req) : F.Statement (.bspStreamReset q) := fun _ _ h ho => .inl (wellFormed_of_request rfl h ho)
theorem F.bspOutSet (q : Req) : F.Statement (.bspOutSet q) := fun _ _ h ho => .inl (wellFormed_of_request rfl h ho)
theorem F.bspTrainingTimeout : F.Statement (.bspTrainingTimeout) := fun _ _ h _ => nomatch h
theorem F.jnlControl (q : Req) : F.Statement (.jnlControl q) := fun _ _ h ho => .inl (wellFormed_of_request rfl h ho)
theorem F.jnlExport (q : Req) : F.Statement (.jnlExport q) := fun _ _ h ho => .inl (wellFormed_of_request rfl h ho)
theorem F.jnlRead (q : Req) : F.Statement (.jnlRead q) := fun _ _ h ho => .inl (wellFormed_of_request rfl h ho)
theorem F.jnlStatus (q : Req) : F.Statement (.jnlStatus q) := fun _ _ h ho => .inl (wellFormed_of_request rfl h ho)
theorem F.jnlCheckpoint (q : Req) : F.Statement (.jnlCheckpoint q) := fun _ _ h ho => .inl (wellFormed_of_request rfl h ho)
theorem F.jnlMark (q : Req) : F.Statement (.jnlMark q) := fun _ _ h ho => .inl (wellFormed_of_request rfl h ho)
theorem F.jnlShadow (q : Req) : F.Statement (.jnlShadow q) := fun _ _ h ho => .inl (wellFormed_of_request rfl h ho)
theorem F.jnlReplay (q : Req) : F.Statement (.jnlReplay q) := fun _ _ h ho => .inl (wellFormed_of_request rfl h ho)
theorem F.checkpointDrainDone (c : CaseId) : F.Statement (.checkpointDrainDone c) := fun _ _ h _ => nomatch h
theorem F.recRead (q : Req) : F.Statement (.recRead q) := fun _ _ h ho => .inl (wellFormed_of_request rfl h ho)
theorem F.recStatus (q : Req) : F.Statement (.recStatus q) := fun _ _ h ho => .inl (wellFormed_of_request rfl h ho)
theorem F.recTimeSet (q : Req) : F.Statement (.recTimeSet q) := fun _ _ h ho => .inl (wellFormed_of_request rfl h ho)
theorem F.recPost (q : Req) : F.Statement (.recPost q) := fun _ _ h ho => .inl (wellFormed_of_request rfl h ho)
theorem F.recLimit (q : Req) : F.Statement (.recLimit q) := fun _ _ h ho => .inl (wellFormed_of_request rfl h ho)
theorem F.recNotify (q : Req) : F.Statement (.recNotify q) := fun _ _ h ho => .inl (wellFormed_of_request rfl h ho)
theorem F.recDesignBind (q : Req) : F.Statement (.recDesignBind q) := fun _ _ h ho => .inl (wellFormed_of_request rfl h ho)
theorem F.eventPost (i : Nat) (writeOk : Bool) : F.Statement (.eventPost i writeOk) := fun _ _ h _ => nomatch h
theorem F.rateLimitRefill (code : BitVec 12) : F.Statement (.rateLimitRefill code) := fun _ _ h _ => nomatch h
theorem F.timeRingWrite : F.Statement (.timeRingWrite) := fun _ _ h _ => nomatch h
theorem F.pwrState (q : Req) : F.Statement (.pwrState q) := fun _ _ h ho => .inl (wellFormed_of_request rfl h ho)
theorem F.pwrSleep (q : Req) : F.Statement (.pwrSleep q) := fun _ _ h ho => .inl (wellFormed_of_request rfl h ho)
theorem F.pwrReset (q : Req) : F.Statement (.pwrReset q) := fun _ _ h ho => .inl (wellFormed_of_request rfl h ho)
theorem F.pwrStatus (q : Req) : F.Statement (.pwrStatus q) := fun _ _ h ho => .inl (wellFormed_of_request rfl h ho)
theorem F.netRouterStatus (q : Req) : F.Statement (.netRouterStatus q) := fun _ _ h ho => .inl (wellFormed_of_request rfl h ho)
theorem F.netRoleRead (q : Req) : F.Statement (.netRoleRead q) := fun _ _ h ho => .inl (wellFormed_of_request rfl h ho)
theorem F.netProbe (q : Req) : F.Statement (.netProbe q) := fun _ _ h ho => .inl (wellFormed_of_request rfl h ho)
theorem F.netLinkRetrain (q : Req) (comesUp : Bool) : F.Statement (.netLinkRetrain q comesUp) := fun _ _ h ho => .inl (wellFormed_of_request rfl h ho)
theorem F.netProbeTimeout : F.Statement (.netProbeTimeout) := fun _ _ h _ => nomatch h
theorem F.packetInject (t : TileId) (p : Packet) : F.Statement (.packetInject t p) := fun _ _ h _ => nomatch h
theorem F.flitReceive (t : TileId) (src : FlitFrom) (crcGood : Bool) : F.Statement (.flitReceive t src crcGood) := fun _ _ h _ => nomatch h
theorem F.bounce (t : TileId) (p : Packet) (q : Option Req) (kept : List Byte) : F.Statement (.bounce t p q kept) := fun _ _ h _ => nomatch h
theorem F.roleUpdate (t : TileId) : F.Statement (.roleUpdate t) := fun _ _ h _ => nomatch h
theorem F.roleUpdateAck (t : TileId) : F.Statement (.roleUpdateAck t) := fun _ _ h _ => nomatch h
theorem F.epochSwitch (t : TileId) : F.Statement (.epochSwitch t) := fun _ _ h _ => nomatch h
theorem F.epochSwitchAck (t : TileId) : F.Statement (.epochSwitchAck t) := fun _ _ h _ => nomatch h
theorem F.drainQuery (t : TileId) : F.Statement (.drainQuery t) := fun _ _ h _ => nomatch h
theorem F.drainReport (t : TileId) : F.Statement (.drainReport t) := fun _ _ h _ => nomatch h
theorem F.shutter (i : ShutterId) (op : ShutterOp) : F.Statement (.shutter i op) := fun _ _ h _ => nomatch h
theorem F.shutterFenceHolds (i : ShutterId) : F.Statement (.shutterFenceHolds i) := fun _ _ h _ => nomatch h
theorem F.tcReady (i : ShutterId) : F.Statement (.tcReady i) := fun _ _ h _ => nomatch h
theorem F.shutterAck (i : ShutterId) : F.Statement (.shutterAck i) := fun _ _ h _ => nomatch h
theorem F.shutterStalled (i : ShutterId) : F.Statement (.shutterStalled i) := fun _ _ h _ => nomatch h
theorem F.probe (t : TileId) (p : Packet) : F.Statement (.probe t p) := fun _ _ h _ => nomatch h
theorem F.probeReply (p : Packet) (cycles : BitVec 32) : F.Statement (.probeReply p cycles) := fun _ _ h _ => nomatch h
theorem F.bspSegmentReceive (blocks : List LinkBlock) : F.Statement (.bspSegmentReceive blocks) := fun _ _ h _ => nomatch h
theorem F.bspCredit (b : LinkBlock) : F.Statement (.bspCredit b) := fun _ _ h _ => nomatch h
theorem F.bspAck (b : LinkBlock) : F.Statement (.bspAck b) := fun _ _ h _ => nomatch h
theorem F.bspNak (b : LinkBlock) : F.Statement (.bspNak b) := fun _ _ h _ => nomatch h
theorem F.bspAlign (lane : Fin 8) (b : LinkBlock) : F.Statement (.bspAlign lane b) := fun _ _ h _ => nomatch h
theorem F.laneLockLoss (lane : Fin 8) : F.Statement (.laneLockLoss lane) := fun _ _ h _ => nomatch h
theorem F.bspLinkUp (lanes : List (List LinkBlock)) : F.Statement (.bspLinkUp lanes) := fun _ _ h _ => nomatch h
theorem F.bspSegmentSend (stream : Fin 16) : F.Statement (.bspSegmentSend stream) := fun _ _ h _ => nomatch h
theorem F.holdEntry (c : CaseId) : F.Statement (.holdEntry c) := fun _ _ h _ => nomatch h
theorem F.holdExit (c : CaseId) (vio : List Nat) : F.Statement (.holdExit c vio) := fun _ _ h _ => nomatch h
theorem F.dozeExit (c : CaseId) : F.Statement (.dozeExit c) := fun _ _ h _ => nomatch h
theorem F.sleepPowerOff : F.Statement (.sleepPowerOff) := fun _ _ h _ => nomatch h
theorem F.sleepAlarm : F.Statement (.sleepAlarm) := fun _ _ h _ => nomatch h
theorem F.sleepWake (vio : List Nat) : F.Statement (.sleepWake vio) := fun _ _ h _ => nomatch h
theorem F.coldReset (supply : Option (Supply × Nat)) (harms : List MramHarm) : F.Statement (.coldReset supply harms) := fun _ _ h _ => nomatch h
theorem F.pinReset : F.Statement (.pinReset) := fun _ _ h _ => nomatch h
theorem F.deviceResetStart : F.Statement (.deviceResetStart) := fun _ _ h _ => nomatch h
theorem F.resetEnd (stewardSel : BitVec 2) (vio : List Nat) : F.Statement (.resetEnd stewardSel vio) := fun _ _ h _ => nomatch h
theorem F.portReset (portB : Bool) : F.Statement (.portReset portB) := fun _ _ h _ => nomatch h
theorem F.functionReset (h : HostId) : F.Statement (.functionReset h) := fun _ _ h _ => nomatch h
theorem F.vioLoss (t : TileId) : F.Statement (.vioLoss t) := fun _ _ h _ => nomatch h
theorem F.serdesSupplyLoss : F.Statement (.serdesSupplyLoss) := fun _ _ h _ => nomatch h
theorem F.padInputChange (t : TileId) (n : Fin 12) (drive : PadDrive) : F.Statement (.padInputChange t n drive) := fun _ _ h _ => nomatch h
theorem F.fabricClockEdge (t : TileId) (ks : BitVec 4) (rising : Bool) (broken : List (Fin 2048)) : F.Statement (.fabricClockEdge t ks rising broken) := fun _ _ h _ => nomatch h
theorem F.serdesSupplyReturn : F.Statement (.serdesSupplyReturn) := fun _ _ h _ => nomatch h
theorem F.generatorLocked (t : TileId) : F.Statement (.generatorLocked t) := fun _ _ h _ => nomatch h
theorem F.marchTestDone (t : TileId) (r : MarchResult) : F.Statement (.marchTestDone t r) := fun _ _ h _ => nomatch h
theorem F.cmpCheckEnd (t : TileId) (k : Fin 16) (observed : Bool) : F.Statement (.cmpCheckEnd t k observed) := fun _ _ h _ => nomatch h
theorem F.calCellZeroEnd (t : TileId) : F.Statement (.calCellZeroEnd t) := fun _ _ h _ => nomatch h

end Sys2Proof.Laws
end

