-- ==== Sys2Proof/Laws/State.lean ====
section
/-! SUPPORT. What each named update of the state does to each field, and what the readers of tiles, casements and hosts see
after it: one lemma per field per update. -/

namespace Sys2Proof.Machine

/-! ### modDev -/

@[simp] theorem modDev_dev (s : State) (f : Device → Device) : (modDev s f).dev = f s.dev := rfl
@[simp] theorem modDev_tiles (s : State) (f : Device → Device) : (modDev s f).tiles = s.tiles := rfl
@[simp] theorem modDev_cases (s : State) (f : Device → Device) : (modDev s f).cases = s.cases := rfl
@[simp] theorem modDev_hif (s : State) (f : Device → Device) : (modDev s f).hif = s.hif := rfl
@[simp] theorem modDev_bsp (s : State) (f : Device → Device) : (modDev s f).bsp = s.bsp := rfl
@[simp] theorem modDev_load (s : State) (f : Device → Device) : (modDev s f).load = s.load := rfl
@[simp] theorem modDev_hub (s : State) (f : Device → Device) : (modDev s f).hub = s.hub := rfl
@[simp] theorem modDev_jnl (s : State) (f : Device → Device) : (modDev s f).jnl = s.jnl := rfl
@[simp] theorem modDev_rcd (s : State) (f : Device → Device) : (modDev s f).rcd = s.rcd := rfl
@[simp] theorem modDev_fresh (s : State) (f : Device → Device) : (modDev s f).fresh = s.fresh := rfl
@[simp] theorem modDev_pending (s : State) (f : Device → Device) : (modDev s f).pending = s.pending := rfl
@[simp] theorem getTile_modDev (s : State) (f : Device → Device) (u : Nat) : getTile (modDev s f) u = getTile s u := rfl
@[simp] theorem getCase_modDev (s : State) (f : Device → Device) (u : Nat) : getCase (modDev s f) u = getCase s u := rfl
@[simp] theorem getHost_modDev (s : State) (f : Device → Device) (u : Nat) : getHost (modDev s f) u = getHost s u := rfl

/-! ### modHif -/

@[simp] theorem modHif_dev (s : State) (f : HostIf → HostIf) : (modHif s f).dev = s.dev := rfl
@[simp] theorem modHif_tiles (s : State) (f : HostIf → HostIf) : (modHif s f).tiles = s.tiles := rfl
@[simp] theorem modHif_cases (s : State) (f : HostIf → HostIf) : (modHif s f).cases = s.cases := rfl
@[simp] theorem modHif_hif (s : State) (f : HostIf → HostIf) : (modHif s f).hif = f s.hif := rfl
@[simp] theorem modHif_bsp (s : State) (f : HostIf → HostIf) : (modHif s f).bsp = s.bsp := rfl
@[simp] theorem modHif_load (s : State) (f : HostIf → HostIf) : (modHif s f).load = s.load := rfl
@[simp] theorem modHif_hub (s : State) (f : HostIf → HostIf) : (modHif s f).hub = s.hub := rfl
@[simp] theorem modHif_jnl (s : State) (f : HostIf → HostIf) : (modHif s f).jnl = s.jnl := rfl
@[simp] theorem modHif_rcd (s : State) (f : HostIf → HostIf) : (modHif s f).rcd = s.rcd := rfl
@[simp] theorem modHif_fresh (s : State) (f : HostIf → HostIf) : (modHif s f).fresh = s.fresh := rfl
@[simp] theorem modHif_pending (s : State) (f : HostIf → HostIf) : (modHif s f).pending = s.pending := rfl
@[simp] theorem getTile_modHif (s : State) (f : HostIf → HostIf) (u : Nat) : getTile (modHif s f) u = getTile s u := rfl
@[simp] theorem getCase_modHif (s : State) (f : HostIf → HostIf) (u : Nat) : getCase (modHif s f) u = getCase s u := rfl

/-! ### modHub -/

@[simp] theorem modHub_dev (s : State) (f : Hub → Hub) : (modHub s f).dev = s.dev := rfl
@[simp] theorem modHub_tiles (s : State) (f : Hub → Hub) : (modHub s f).tiles = s.tiles := rfl
@[simp] theorem modHub_cases (s : State) (f : Hub → Hub) : (modHub s f).cases = s.cases := rfl
@[simp] theorem modHub_hif (s : State) (f : Hub → Hub) : (modHub s f).hif = s.hif := rfl
@[simp] theorem modHub_bsp (s : State) (f : Hub → Hub) : (modHub s f).bsp = s.bsp := rfl
@[simp] theorem modHub_load (s : State) (f : Hub → Hub) : (modHub s f).load = s.load := rfl
@[simp] theorem modHub_hub (s : State) (f : Hub → Hub) : (modHub s f).hub = f s.hub := rfl
@[simp] theorem modHub_jnl (s : State) (f : Hub → Hub) : (modHub s f).jnl = s.jnl := rfl
@[simp] theorem modHub_rcd (s : State) (f : Hub → Hub) : (modHub s f).rcd = s.rcd := rfl
@[simp] theorem modHub_fresh (s : State) (f : Hub → Hub) : (modHub s f).fresh = s.fresh := rfl
@[simp] theorem modHub_pending (s : State) (f : Hub → Hub) : (modHub s f).pending = s.pending := rfl
@[simp] theorem getTile_modHub (s : State) (f : Hub → Hub) (u : Nat) : getTile (modHub s f) u = getTile s u := rfl
@[simp] theorem getCase_modHub (s : State) (f : Hub → Hub) (u : Nat) : getCase (modHub s f) u = getCase s u := rfl
@[simp] theorem getHost_modHub (s : State) (f : Hub → Hub) (u : Nat) : getHost (modHub s f) u = getHost s u := rfl

/-! ### modRcd -/

@[simp] theorem modRcd_dev (s : State) (f : Recorder → Recorder) : (modRcd s f).dev = s.dev := rfl
@[simp] theorem modRcd_tiles (s : State) (f : Recorder → Recorder) : (modRcd s f).tiles = s.tiles := rfl
@[simp] theorem modRcd_cases (s : State) (f : Recorder → Recorder) : (modRcd s f).cases = s.cases := rfl
@[simp] theorem modRcd_hif (s : State) (f : Recorder → Recorder) : (modRcd s f).hif = s.hif := rfl
@[simp] theorem modRcd_bsp (s : State) (f : Recorder → Recorder) : (modRcd s f).bsp = s.bsp := rfl
@[simp] theorem modRcd_load (s : State) (f : Recorder → Recorder) : (modRcd s f).load = s.load := rfl
@[simp] theorem modRcd_hub (s : State) (f : Recorder → Recorder) : (modRcd s f).hub = s.hub := rfl
@[simp] theorem modRcd_jnl (s : State) (f : Recorder → Recorder) : (modRcd s f).jnl = s.jnl := rfl
@[simp] theorem modRcd_rcd (s : State) (f : Recorder → Recorder) : (modRcd s f).rcd = f s.rcd := rfl
@[simp] theorem modRcd_fresh (s : State) (f : Recorder → Recorder) : (modRcd s f).fresh = s.fresh := rfl
@[simp] theorem modRcd_pending (s : State) (f : Recorder → Recorder) : (modRcd s f).pending = s.pending := rfl
@[simp] theorem getTile_modRcd (s : State) (f : Recorder → Recorder) (u : Nat) : getTile (modRcd s f) u = getTile s u := rfl
@[simp] theorem getCase_modRcd (s : State) (f : Recorder → Recorder) (u : Nat) : getCase (modRcd s f) u = getCase s u := rfl
@[simp] theorem getHost_modRcd (s : State) (f : Recorder → Recorder) (u : Nat) : getHost (modRcd s f) u = getHost s u := rfl

/-! ### modLoad -/

@[simp] theorem modLoad_dev (s : State) (f : Load → Load) : (modLoad s f).dev = s.dev := rfl
@[simp] theorem modLoad_tiles (s : State) (f : Load → Load) : (modLoad s f).tiles = s.tiles := rfl
@[simp] theorem modLoad_cases (s : State) (f : Load → Load) : (modLoad s f).cases = s.cases := rfl
@[simp] theorem modLoad_hif (s : State) (f : Load → Load) : (modLoad s f).hif = s.hif := rfl
@[simp] theorem modLoad_bsp (s : State) (f : Load → Load) : (modLoad s f).bsp = s.bsp := rfl
@[simp] theorem modLoad_load (s : State) (f : Load → Load) : (modLoad s f).load = f s.load := rfl
@[simp] theorem modLoad_hub (s : State) (f : Load → Load) : (modLoad s f).hub = s.hub := rfl
@[simp] theorem modLoad_jnl (s : State) (f : Load → Load) : (modLoad s f).jnl = s.jnl := rfl
@[simp] theorem modLoad_rcd (s : State) (f : Load → Load) : (modLoad s f).rcd = s.rcd := rfl
@[simp] theorem modLoad_fresh (s : State) (f : Load → Load) : (modLoad s f).fresh = s.fresh := rfl
@[simp] theorem modLoad_pending (s : State) (f : Load → Load) : (modLoad s f).pending = s.pending := rfl
@[simp] theorem getTile_modLoad (s : State) (f : Load → Load) (u : Nat) : getTile (modLoad s f) u = getTile s u := rfl
@[simp] theorem getCase_modLoad (s : State) (f : Load → Load) (u : Nat) : getCase (modLoad s f) u = getCase s u := rfl
@[simp] theorem getHost_modLoad (s : State) (f : Load → Load) (u : Nat) : getHost (modLoad s f) u = getHost s u := rfl

/-! ### modBsp -/

@[simp] theorem modBsp_dev (s : State) (f : Bsp → Bsp) : (modBsp s f).dev = s.dev := rfl
@[simp] theorem modBsp_tiles (s : State) (f : Bsp → Bsp) : (modBsp s f).tiles = s.tiles := rfl
@[simp] theorem modBsp_cases (s : State) (f : Bsp → Bsp) : (modBsp s f).cases = s.cases := rfl
@[simp] theorem modBsp_hif (s : State) (f : Bsp → Bsp) : (modBsp s f).hif = s.hif := rfl
@[simp] theorem modBsp_bsp (s : State) (f : Bsp → Bsp) : (modBsp s f).bsp = f s.bsp := rfl
@[simp] theorem modBsp_load (s : State) (f : Bsp → Bsp) : (modBsp s f).load = s.load := rfl
@[simp] theorem modBsp_hub (s : State) (f : Bsp → Bsp) : (modBsp s f).hub = s.hub := rfl
@[simp] theorem modBsp_jnl (s : State) (f : Bsp → Bsp) : (modBsp s f).jnl = s.jnl := rfl
@[simp] theorem modBsp_rcd (s : State) (f : Bsp → Bsp) : (modBsp s f).rcd = s.rcd := rfl
@[simp] theorem modBsp_fresh (s : State) (f : Bsp → Bsp) : (modBsp s f).fresh = s.fresh := rfl
@[simp] theorem modBsp_pending (s : State) (f : Bsp → Bsp) : (modBsp s f).pending = s.pending := rfl
@[simp] theorem getTile_modBsp (s : State) (f : Bsp → Bsp) (u : Nat) : getTile (modBsp s f) u = getTile s u := rfl
@[simp] theorem getCase_modBsp (s : State) (f : Bsp → Bsp) (u : Nat) : getCase (modBsp s f) u = getCase s u := rfl
@[simp] theorem getHost_modBsp (s : State) (f : Bsp → Bsp) (u : Nat) : getHost (modBsp s f) u = getHost s u := rfl

/-! ### modJnl -/

@[simp] theorem modJnl_dev (s : State) (f : Journal → Journal) : (modJnl s f).dev = s.dev := rfl
@[simp] theorem modJnl_tiles (s : State) (f : Journal → Journal) : (modJnl s f).tiles = s.tiles := rfl
@[simp] theorem modJnl_cases (s : State) (f : Journal → Journal) : (modJnl s f).cases = s.cases := rfl
@[simp] theorem modJnl_hif (s : State) (f : Journal → Journal) : (modJnl s f).hif = s.hif := rfl
@[simp] theorem modJnl_bsp (s : State) (f : Journal → Journal) : (modJnl s f).bsp = s.bsp := rfl
@[simp] theorem modJnl_load (s : State) (f : Journal → Journal) : (modJnl s f).load = s.load := rfl
@[simp] theorem modJnl_hub (s : State) (f : Journal → Journal) : (modJnl s f).hub = s.hub := rfl
@[simp] theorem modJnl_jnl (s : State) (f : Journal → Journal) : (modJnl s f).jnl = f s.jnl := rfl
@[simp] theorem modJnl_rcd (s : State) (f : Journal → Journal) : (modJnl s f).rcd = s.rcd := rfl
@[simp] theorem modJnl_fresh (s : State) (f : Journal → Journal) : (modJnl s f).fresh = s.fresh := rfl
@[simp] theorem modJnl_pending (s : State) (f : Journal → Journal) : (modJnl s f).pending = s.pending := rfl
@[simp] theorem getTile_modJnl (s : State) (f : Journal → Journal) (u : Nat) : getTile (modJnl s f) u = getTile s u := rfl
@[simp] theorem getCase_modJnl (s : State) (f : Journal → Journal) (u : Nat) : getCase (modJnl s f) u = getCase s u := rfl
@[simp] theorem getHost_modJnl (s : State) (f : Journal → Journal) (u : Nat) : getHost (modJnl s f) u = getHost s u := rfl

/-! ### Tiles -/

@[simp] theorem setTile_dev (s : State) (t : Nat) (x : Tile) : (setTile s t x).dev = s.dev := rfl
@[simp] theorem setTile_tiles (s : State) (t : Nat) (x : Tile) : (setTile s t x).tiles = mset s.tiles t x := rfl
@[simp] theorem setTile_cases (s : State) (t : Nat) (x : Tile) : (setTile s t x).cases = s.cases := rfl
@[simp] theorem setTile_hif (s : State) (t : Nat) (x : Tile) : (setTile s t x).hif = s.hif := rfl
@[simp] theorem setTile_bsp (s : State) (t : Nat) (x : Tile) : (setTile s t x).bsp = s.bsp := rfl
@[simp] theorem setTile_load (s : State) (t : Nat) (x : Tile) : (setTile s t x).load = s.load := rfl
@[simp] theorem setTile_hub (s : State) (t : Nat) (x : Tile) : (setTile s t x).hub = s.hub := rfl
@[simp] theorem setTile_jnl (s : State) (t : Nat) (x : Tile) : (setTile s t x).jnl = s.jnl := rfl
@[simp] theorem setTile_rcd (s : State) (t : Nat) (x : Tile) : (setTile s t x).rcd = s.rcd := rfl
@[simp] theorem setTile_fresh (s : State) (t : Nat) (x : Tile) : (setTile s t x).fresh = s.fresh := rfl
@[simp] theorem setTile_pending (s : State) (t : Nat) (x : Tile) : (setTile s t x).pending = s.pending := rfl
@[simp] theorem getCase_setTile (s : State) (t : Nat) (x : Tile) (u : Nat) : getCase (setTile s t x) u = getCase s u := rfl
@[simp] theorem getHost_setTile (s : State) (t : Nat) (x : Tile) (u : Nat) : getHost (setTile s t x) u = getHost s u := rfl

@[simp] theorem modTile_dev (s : State) (t : Nat) (f : Tile → Tile) : (modTile s t f).dev = s.dev := rfl
@[simp] theorem modTile_tiles (s : State) (t : Nat) (f : Tile → Tile) : (modTile s t f).tiles = mset s.tiles t (f (getTile s t)) := rfl
@[simp] theorem modTile_cases (s : State) (t : Nat) (f : Tile → Tile) : (modTile s t f).cases = s.cases := rfl
@[simp] theorem modTile_hif (s : State) (t : Nat) (f : Tile → Tile) : (modTile s t f).hif = s.hif := rfl
@[simp] theorem modTile_bsp (s : State) (t : Nat) (f : Tile → Tile) : (modTile s t f).bsp = s.bsp := rfl
@[simp] theorem modTile_load (s : State) (t : Nat) (f : Tile → Tile) : (modTile s t f).load = s.load := rfl
@[simp] theorem modTile_hub (s : State) (t : Nat) (f : Tile → Tile) : (modTile s t f).hub = s.hub := rfl
@[simp] theorem modTile_jnl (s : State) (t : Nat) (f : Tile → Tile) : (modTile s t f).jnl = s.jnl := rfl
@[simp] theorem modTile_rcd (s : State) (t : Nat) (f : Tile → Tile) : (modTile s t f).rcd = s.rcd := rfl
@[simp] theorem modTile_fresh (s : State) (t : Nat) (f : Tile → Tile) : (modTile s t f).fresh = s.fresh := rfl
@[simp] theorem modTile_pending (s : State) (t : Nat) (f : Tile → Tile) : (modTile s t f).pending = s.pending := rfl
@[simp] theorem getCase_modTile (s : State) (t : Nat) (f : Tile → Tile) (u : Nat) : getCase (modTile s t f) u = getCase s u := rfl
@[simp] theorem getHost_modTile (s : State) (t : Nat) (f : Tile → Tile) (u : Nat) : getHost (modTile s t f) u = getHost s u := rfl

@[simp] theorem getTile_setTile_self (s : State) (t : Nat) (x : Tile) : getTile (setTile s t x) t = x := by
  simp [getTile, mget_mset_self]

theorem getTile_setTile_ne (s : State) {t u : Nat} (x : Tile) (h : u ≠ t) : getTile (setTile s t x) u = getTile s u := by
  simp [getTile, mget_mset_ne _ _ _ _ _ h]

@[simp] theorem getTile_modTile_self (s : State) (t : Nat) (f : Tile → Tile) : getTile (modTile s t f) t = f (getTile s t) := by
  simp [modTile]

theorem getTile_modTile_ne (s : State) {t u : Nat} (f : Tile → Tile) (h : u ≠ t) : getTile (modTile s t f) u = getTile s u :=
  getTile_setTile_ne s _ h

@[simp] theorem modBp_dev (s : State) (t : Nat) (f : BpState → BpState) : (modBp s t f).dev = s.dev := rfl
@[simp] theorem modBp_cases (s : State) (t : Nat) (f : BpState → BpState) : (modBp s t f).cases = s.cases := rfl
@[simp] theorem modBp_hif (s : State) (t : Nat) (f : BpState → BpState) : (modBp s t f).hif = s.hif := rfl
@[simp] theorem modBp_bsp (s : State) (t : Nat) (f : BpState → BpState) : (modBp s t f).bsp = s.bsp := rfl
@[simp] theorem modBp_load (s : State) (t : Nat) (f : BpState → BpState) : (modBp s t f).load = s.load := rfl
@[simp] theorem modBp_hub (s : State) (t : Nat) (f : BpState → BpState) : (modBp s t f).hub = s.hub := rfl
@[simp] theorem modBp_jnl (s : State) (t : Nat) (f : BpState → BpState) : (modBp s t f).jnl = s.jnl := rfl
@[simp] theorem modBp_rcd (s : State) (t : Nat) (f : BpState → BpState) : (modBp s t f).rcd = s.rcd := rfl
@[simp] theorem modBp_fresh (s : State) (t : Nat) (f : BpState → BpState) : (modBp s t f).fresh = s.fresh := rfl
@[simp] theorem modBp_pending (s : State) (t : Nat) (f : BpState → BpState) : (modBp s t f).pending = s.pending := rfl
@[simp] theorem getCase_modBp (s : State) (t : Nat) (f : BpState → BpState) (u : Nat) : getCase (modBp s t f) u = getCase s u := rfl
@[simp] theorem getHost_modBp (s : State) (t : Nat) (f : BpState → BpState) (u : Nat) : getHost (modBp s t f) u = getHost s u := rfl

@[simp] theorem getTile_modBp_self (s : State) (t : Nat) (f : BpState → BpState) :
    getTile (modBp s t f) t = { getTile s t with bp := f (getTile s t).bp } := by simp [modBp]

theorem getTile_modBp_ne (s : State) {t u : Nat} (f : BpState → BpState) (h : u ≠ t) :
    getTile (modBp s t f) u = getTile s u := getTile_modTile_ne s _ h

@[simp] theorem modCyc_dev (s : State) (t : Nat) (f : CycState → CycState) : (modCyc s t f).dev = s.dev := rfl
@[simp] theorem modCyc_cases (s : State) (t : Nat) (f : CycState → CycState) : (modCyc s t f).cases = s.cases := rfl
@[simp] theorem modCyc_hif (s : State) (t : Nat) (f : CycState → CycState) : (modCyc s t f).hif = s.hif := rfl
@[simp] theorem modCyc_bsp (s : State) (t : Nat) (f : CycState → CycState) : (modCyc s t f).bsp = s.bsp := rfl
@[simp] theorem modCyc_load (s : State) (t : Nat) (f : CycState → CycState) : (modCyc s t f).load = s.load := rfl
@[simp] theorem modCyc_hub (s : State) (t : Nat) (f : CycState → CycState) : (modCyc s t f).hub = s.hub := rfl
@[simp] theorem modCyc_jnl (s : State) (t : Nat) (f : CycState → CycState) : (modCyc s t f).jnl = s.jnl := rfl
@[simp] theorem modCyc_rcd (s : State) (t : Nat) (f : CycState → CycState) : (modCyc s t f).rcd = s.rcd := rfl
@[simp] theorem modCyc_fresh (s : State) (t : Nat) (f : CycState → CycState) : (modCyc s t f).fresh = s.fresh := rfl
@[simp] theorem modCyc_pending (s : State) (t : Nat) (f : CycState → CycState) : (modCyc s t f).pending = s.pending := rfl
@[simp] theorem getCase_modCyc (s : State) (t : Nat) (f : CycState → CycState) (u : Nat) : getCase (modCyc s t f) u = getCase s u := rfl
@[simp] theorem getHost_modCyc (s : State) (t : Nat) (f : CycState → CycState) (u : Nat) : getHost (modCyc s t f) u = getHost s u := rfl

@[simp] theorem getTile_modCyc_self (s : State) (t : Nat) (f : CycState → CycState) :
    getTile (modCyc s t f) t = { getTile s t with cyc := f (getTile s t).cyc } := by simp [modCyc]

theorem getTile_modCyc_ne (s : State) {t u : Nat} (f : CycState → CycState) (h : u ≠ t) :
    getTile (modCyc s t f) u = getTile s u := getTile_modTile_ne s _ h

@[simp] theorem modFab_dev (s : State) (t : Nat) (f : FabState → FabState) : (modFab s t f).dev = s.dev := rfl
@[simp] theorem modFab_cases (s : State) (t : Nat) (f : FabState → FabState) : (modFab s t f).cases = s.cases := rfl
@[simp] theorem modFab_hif (s : State) (t : Nat) (f : FabState → FabState) : (modFab s t f).hif = s.hif := rfl
@[simp] theorem modFab_bsp (s : State) (t : Nat) (f : FabState → FabState) : (modFab s t f).bsp = s.bsp := rfl
@[simp] theorem modFab_load (s : State) (t : Nat) (f : FabState → FabState) : (modFab s t f).load = s.load := rfl
@[simp] theorem modFab_hub (s : State) (t : Nat) (f : FabState → FabState) : (modFab s t f).hub = s.hub := rfl
@[simp] theorem modFab_jnl (s : State) (t : Nat) (f : FabState → FabState) : (modFab s t f).jnl = s.jnl := rfl
@[simp] theorem modFab_rcd (s : State) (t : Nat) (f : FabState → FabState) : (modFab s t f).rcd = s.rcd := rfl
@[simp] theorem modFab_fresh (s : State) (t : Nat) (f : FabState → FabState) : (modFab s t f).fresh = s.fresh := rfl
@[simp] theorem modFab_pending (s : State) (t : Nat) (f : FabState → FabState) : (modFab s t f).pending = s.pending := rfl
@[simp] theorem getCase_modFab (s : State) (t : Nat) (f : FabState → FabState) (u : Nat) : getCase (modFab s t f) u = getCase s u := rfl
@[simp] theorem getHost_modFab (s : State) (t : Nat) (f : FabState → FabState) (u : Nat) : getHost (modFab s t f) u = getHost s u := rfl

@[simp] theorem getTile_modFab_self (s : State) (t : Nat) (f : FabState → FabState) :
    getTile (modFab s t f) t = { getTile s t with fab := f (getTile s t).fab } := by simp [modFab]

theorem getTile_modFab_ne (s : State) {t u : Nat} (f : FabState → FabState) (h : u ≠ t) :
    getTile (modFab s t f) u = getTile s u := getTile_modTile_ne s _ h

@[simp] theorem modPin_dev (s : State) (t : Nat) (f : PinState → PinState) : (modPin s t f).dev = s.dev := rfl
@[simp] theorem modPin_cases (s : State) (t : Nat) (f : PinState → PinState) : (modPin s t f).cases = s.cases := rfl
@[simp] theorem modPin_hif (s : State) (t : Nat) (f : PinState → PinState) : (modPin s t f).hif = s.hif := rfl
@[simp] theorem modPin_bsp (s : State) (t : Nat) (f : PinState → PinState) : (modPin s t f).bsp = s.bsp := rfl
@[simp] theorem modPin_load (s : State) (t : Nat) (f : PinState → PinState) : (modPin s t f).load = s.load := rfl
@[simp] theorem modPin_hub (s : State) (t : Nat) (f : PinState → PinState) : (modPin s t f).hub = s.hub := rfl
@[simp] theorem modPin_jnl (s : State) (t : Nat) (f : PinState → PinState) : (modPin s t f).jnl = s.jnl := rfl
@[simp] theorem modPin_rcd (s : State) (t : Nat) (f : PinState → PinState) : (modPin s t f).rcd = s.rcd := rfl
@[simp] theorem modPin_fresh (s : State) (t : Nat) (f : PinState → PinState) : (modPin s t f).fresh = s.fresh := rfl
@[simp] theorem modPin_pending (s : State) (t : Nat) (f : PinState → PinState) : (modPin s t f).pending = s.pending := rfl
@[simp] theorem getCase_modPin (s : State) (t : Nat) (f : PinState → PinState) (u : Nat) : getCase (modPin s t f) u = getCase s u := rfl
@[simp] theorem getHost_modPin (s : State) (t : Nat) (f : PinState → PinState) (u : Nat) : getHost (modPin s t f) u = getHost s u := rfl

@[simp] theorem getTile_modPin_self (s : State) (t : Nat) (f : PinState → PinState) :
    getTile (modPin s t f) t = { getTile s t with pin := f (getTile s t).pin } := by simp [modPin]

theorem getTile_modPin_ne (s : State) {t u : Nat} (f : PinState → PinState) (h : u ≠ t) :
    getTile (modPin s t f) u = getTile s u := getTile_modTile_ne s _ h

@[simp] theorem modAn_dev (s : State) (t : Nat) (f : AnState → AnState) : (modAn s t f).dev = s.dev := rfl
@[simp] theorem modAn_cases (s : State) (t : Nat) (f : AnState → AnState) : (modAn s t f).cases = s.cases := rfl
@[simp] theorem modAn_hif (s : State) (t : Nat) (f : AnState → AnState) : (modAn s t f).hif = s.hif := rfl
@[simp] theorem modAn_bsp (s : State) (t : Nat) (f : AnState → AnState) : (modAn s t f).bsp = s.bsp := rfl
@[simp] theorem modAn_load (s : State) (t : Nat) (f : AnState → AnState) : (modAn s t f).load = s.load := rfl
@[simp] theorem modAn_hub (s : State) (t : Nat) (f : AnState → AnState) : (modAn s t f).hub = s.hub := rfl
@[simp] theorem modAn_jnl (s : State) (t : Nat) (f : AnState → AnState) : (modAn s t f).jnl = s.jnl := rfl
@[simp] theorem modAn_rcd (s : State) (t : Nat) (f : AnState → AnState) : (modAn s t f).rcd = s.rcd := rfl
@[simp] theorem modAn_fresh (s : State) (t : Nat) (f : AnState → AnState) : (modAn s t f).fresh = s.fresh := rfl
@[simp] theorem modAn_pending (s : State) (t : Nat) (f : AnState → AnState) : (modAn s t f).pending = s.pending := rfl
@[simp] theorem getCase_modAn (s : State) (t : Nat) (f : AnState → AnState) (u : Nat) : getCase (modAn s t f) u = getCase s u := rfl
@[simp] theorem getHost_modAn (s : State) (t : Nat) (f : AnState → AnState) (u : Nat) : getHost (modAn s t f) u = getHost s u := rfl

@[simp] theorem getTile_modAn_self (s : State) (t : Nat) (f : AnState → AnState) :
    getTile (modAn s t f) t = { getTile s t with an := f (getTile s t).an } := by simp [modAn]

theorem getTile_modAn_ne (s : State) {t u : Nat} (f : AnState → AnState) (h : u ≠ t) :
    getTile (modAn s t f) u = getTile s u := getTile_modTile_ne s _ h

@[simp] theorem modCv_dev (s : State) (t : Nat) (f : CvState → CvState) : (modCv s t f).dev = s.dev := rfl
@[simp] theorem modCv_cases (s : State) (t : Nat) (f : CvState → CvState) : (modCv s t f).cases = s.cases := rfl
@[simp] theorem modCv_hif (s : State) (t : Nat) (f : CvState → CvState) : (modCv s t f).hif = s.hif := rfl
@[simp] theorem modCv_bsp (s : State) (t : Nat) (f : CvState → CvState) : (modCv s t f).bsp = s.bsp := rfl
@[simp] theorem modCv_load (s : State) (t : Nat) (f : CvState → CvState) : (modCv s t f).load = s.load := rfl
@[simp] theorem modCv_hub (s : State) (t : Nat) (f : CvState → CvState) : (modCv s t f).hub = s.hub := rfl
@[simp] theorem modCv_jnl (s : State) (t : Nat) (f : CvState → CvState) : (modCv s t f).jnl = s.jnl := rfl
@[simp] theorem modCv_rcd (s : State) (t : Nat) (f : CvState → CvState) : (modCv s t f).rcd = s.rcd := rfl
@[simp] theorem modCv_fresh (s : State) (t : Nat) (f : CvState → CvState) : (modCv s t f).fresh = s.fresh := rfl
@[simp] theorem modCv_pending (s : State) (t : Nat) (f : CvState → CvState) : (modCv s t f).pending = s.pending := rfl
@[simp] theorem getCase_modCv (s : State) (t : Nat) (f : CvState → CvState) (u : Nat) : getCase (modCv s t f) u = getCase s u := rfl
@[simp] theorem getHost_modCv (s : State) (t : Nat) (f : CvState → CvState) (u : Nat) : getHost (modCv s t f) u = getHost s u := rfl

@[simp] theorem getTile_modCv_self (s : State) (t : Nat) (f : CvState → CvState) :
    getTile (modCv s t f) t = { getTile s t with cv := f (getTile s t).cv } := by simp [modCv]

theorem getTile_modCv_ne (s : State) {t u : Nat} (f : CvState → CvState) (h : u ≠ t) :
    getTile (modCv s t f) u = getTile s u := getTile_modTile_ne s _ h

@[simp] theorem modCt_dev (s : State) (t : Nat) (f : CtState → CtState) : (modCt s t f).dev = s.dev := rfl
@[simp] theorem modCt_cases (s : State) (t : Nat) (f : CtState → CtState) : (modCt s t f).cases = s.cases := rfl
@[simp] theorem modCt_hif (s : State) (t : Nat) (f : CtState → CtState) : (modCt s t f).hif = s.hif := rfl
@[simp] theorem modCt_bsp (s : State) (t : Nat) (f : CtState → CtState) : (modCt s t f).bsp = s.bsp := rfl
@[simp] theorem modCt_load (s : State) (t : Nat) (f : CtState → CtState) : (modCt s t f).load = s.load := rfl
@[simp] theorem modCt_hub (s : State) (t : Nat) (f : CtState → CtState) : (modCt s t f).hub = s.hub := rfl
@[simp] theorem modCt_jnl (s : State) (t : Nat) (f : CtState → CtState) : (modCt s t f).jnl = s.jnl := rfl
@[simp] theorem modCt_rcd (s : State) (t : Nat) (f : CtState → CtState) : (modCt s t f).rcd = s.rcd := rfl
@[simp] theorem modCt_fresh (s : State) (t : Nat) (f : CtState → CtState) : (modCt s t f).fresh = s.fresh := rfl
@[simp] theorem modCt_pending (s : State) (t : Nat) (f : CtState → CtState) : (modCt s t f).pending = s.pending := rfl
@[simp] theorem getCase_modCt (s : State) (t : Nat) (f : CtState → CtState) (u : Nat) : getCase (modCt s t f) u = getCase s u := rfl
@[simp] theorem getHost_modCt (s : State) (t : Nat) (f : CtState → CtState) (u : Nat) : getHost (modCt s t f) u = getHost s u := rfl

@[simp] theorem getTile_modCt_self (s : State) (t : Nat) (f : CtState → CtState) :
    getTile (modCt s t f) t = { getTile s t with ct := f (getTile s t).ct } := by simp [modCt]

theorem getTile_modCt_ne (s : State) {t u : Nat} (f : CtState → CtState) (h : u ≠ t) :
    getTile (modCt s t f) u = getTile s u := getTile_modTile_ne s _ h

@[simp] theorem modCal_dev (s : State) (t : Nat) (f : CalState → CalState) : (modCal s t f).dev = s.dev := rfl
@[simp] theorem modCal_cases (s : State) (t : Nat) (f : CalState → CalState) : (modCal s t f).cases = s.cases := rfl
@[simp] theorem modCal_hif (s : State) (t : Nat) (f : CalState → CalState) : (modCal s t f).hif = s.hif := rfl
@[simp] theorem modCal_bsp (s : State) (t : Nat) (f : CalState → CalState) : (modCal s t f).bsp = s.bsp := rfl
@[simp] theorem modCal_load (s : State) (t : Nat) (f : CalState → CalState) : (modCal s t f).load = s.load := rfl
@[simp] theorem modCal_hub (s : State) (t : Nat) (f : CalState → CalState) : (modCal s t f).hub = s.hub := rfl
@[simp] theorem modCal_jnl (s : State) (t : Nat) (f : CalState → CalState) : (modCal s t f).jnl = s.jnl := rfl
@[simp] theorem modCal_rcd (s : State) (t : Nat) (f : CalState → CalState) : (modCal s t f).rcd = s.rcd := rfl
@[simp] theorem modCal_fresh (s : State) (t : Nat) (f : CalState → CalState) : (modCal s t f).fresh = s.fresh := rfl
@[simp] theorem modCal_pending (s : State) (t : Nat) (f : CalState → CalState) : (modCal s t f).pending = s.pending := rfl
@[simp] theorem getCase_modCal (s : State) (t : Nat) (f : CalState → CalState) (u : Nat) : getCase (modCal s t f) u = getCase s u := rfl
@[simp] theorem getHost_modCal (s : State) (t : Nat) (f : CalState → CalState) (u : Nat) : getHost (modCal s t f) u = getHost s u := rfl

@[simp] theorem getTile_modCal_self (s : State) (t : Nat) (f : CalState → CalState) :
    getTile (modCal s t f) t = { getTile s t with cal := f (getTile s t).cal } := by simp [modCal]

theorem getTile_modCal_ne (s : State) {t u : Nat} (f : CalState → CalState) (h : u ≠ t) :
    getTile (modCal s t f) u = getTile s u := getTile_modTile_ne s _ h

@[simp] theorem modNet_dev (s : State) (t : Nat) (f : Router → Router) : (modNet s t f).dev = s.dev := rfl
@[simp] theorem modNet_cases (s : State) (t : Nat) (f : Router → Router) : (modNet s t f).cases = s.cases := rfl
@[simp] theorem modNet_hif (s : State) (t : Nat) (f : Router → Router) : (modNet s t f).hif = s.hif := rfl
@[simp] theorem modNet_bsp (s : State) (t : Nat) (f : Router → Router) : (modNet s t f).bsp = s.bsp := rfl
@[simp] theorem modNet_load (s : State) (t : Nat) (f : Router → Router) : (modNet s t f).load = s.load := rfl
@[simp] theorem modNet_hub (s : State) (t : Nat) (f : Router → Router) : (modNet s t f).hub = s.hub := rfl
@[simp] theorem modNet_jnl (s : State) (t : Nat) (f : Router → Router) : (modNet s t f).jnl = s.jnl := rfl
@[simp] theorem modNet_rcd (s : State) (t : Nat) (f : Router → Router) : (modNet s t f).rcd = s.rcd := rfl
@[simp] theorem modNet_fresh (s : State) (t : Nat) (f : Router → Router) : (modNet s t f).fresh = s.fresh := rfl
@[simp] theorem modNet_pending (s : State) (t : Nat) (f : Router → Router) : (modNet s t f).pending = s.pending := rfl
@[simp] theorem getCase_modNet (s : State) (t : Nat) (f : Router → Router) (u : Nat) : getCase (modNet s t f) u = getCase s u := rfl
@[simp] theorem getHost_modNet (s : State) (t : Nat) (f : Router → Router) (u : Nat) : getHost (modNet s t f) u = getHost s u := rfl

@[simp] theorem getTile_modNet_self (s : State) (t : Nat) (f : Router → Router) :
    getTile (modNet s t f) t = { getTile s t with net := f (getTile s t).net } := by simp [modNet]

theorem getTile_modNet_ne (s : State) {t u : Nat} (f : Router → Router) (h : u ≠ t) :
    getTile (modNet s t f) u = getTile s u := getTile_modTile_ne s _ h

@[simp] theorem modCtl_dev (s : State) (t : Nat) (f : Ctl → Ctl) : (modCtl s t f).dev = s.dev := rfl
@[simp] theorem modCtl_cases (s : State) (t : Nat) (f : Ctl → Ctl) : (modCtl s t f).cases = s.cases := rfl
@[simp] theorem modCtl_hif (s : State) (t : Nat) (f : Ctl → Ctl) : (modCtl s t f).hif = s.hif := rfl
@[simp] theorem modCtl_bsp (s : State) (t : Nat) (f : Ctl → Ctl) : (modCtl s t f).bsp = s.bsp := rfl
@[simp] theorem modCtl_load (s : State) (t : Nat) (f : Ctl → Ctl) : (modCtl s t f).load = s.load := rfl
@[simp] theorem modCtl_hub (s : State) (t : Nat) (f : Ctl → Ctl) : (modCtl s t f).hub = s.hub := rfl
@[simp] theorem modCtl_jnl (s : State) (t : Nat) (f : Ctl → Ctl) : (modCtl s t f).jnl = s.jnl := rfl
@[simp] theorem modCtl_rcd (s : State) (t : Nat) (f : Ctl → Ctl) : (modCtl s t f).rcd = s.rcd := rfl
@[simp] theorem modCtl_fresh (s : State) (t : Nat) (f : Ctl → Ctl) : (modCtl s t f).fresh = s.fresh := rfl
@[simp] theorem modCtl_pending (s : State) (t : Nat) (f : Ctl → Ctl) : (modCtl s t f).pending = s.pending := rfl
@[simp] theorem getCase_modCtl (s : State) (t : Nat) (f : Ctl → Ctl) (u : Nat) : getCase (modCtl s t f) u = getCase s u := rfl
@[simp] theorem getHost_modCtl (s : State) (t : Nat) (f : Ctl → Ctl) (u : Nat) : getHost (modCtl s t f) u = getHost s u := rfl

@[simp] theorem getTile_modCtl_self (s : State) (t : Nat) (f : Ctl → Ctl) :
    getTile (modCtl s t f) t = { getTile s t with ctl := f (getTile s t).ctl } := by simp [modCtl]

theorem getTile_modCtl_ne (s : State) {t u : Nat} (f : Ctl → Ctl) (h : u ≠ t) :
    getTile (modCtl s t f) u = getTile s u := getTile_modTile_ne s _ h

/-! ### Casements -/

@[simp] theorem setCase_dev (s : State) (c : Nat) (k : Casement) : (setCase s c k).dev = s.dev := rfl
@[simp] theorem setCase_tiles (s : State) (c : Nat) (k : Casement) : (setCase s c k).tiles = s.tiles := rfl
@[simp] theorem setCase_cases (s : State) (c : Nat) (k : Casement) : (setCase s c k).cases = mset s.cases c k := rfl
@[simp] theorem setCase_hif (s : State) (c : Nat) (k : Casement) : (setCase s c k).hif = s.hif := rfl
@[simp] theorem setCase_bsp (s : State) (c : Nat) (k : Casement) : (setCase s c k).bsp = s.bsp := rfl
@[simp] theorem setCase_load (s : State) (c : Nat) (k : Casement) : (setCase s c k).load = s.load := rfl
@[simp] theorem setCase_hub (s : State) (c : Nat) (k : Casement) : (setCase s c k).hub = s.hub := rfl
@[simp] theorem setCase_jnl (s : State) (c : Nat) (k : Casement) : (setCase s c k).jnl = s.jnl := rfl
@[simp] theorem setCase_rcd (s : State) (c : Nat) (k : Casement) : (setCase s c k).rcd = s.rcd := rfl
@[simp] theorem setCase_fresh (s : State) (c : Nat) (k : Casement) : (setCase s c k).fresh = s.fresh := rfl
@[simp] theorem setCase_pending (s : State) (c : Nat) (k : Casement) : (setCase s c k).pending = s.pending := rfl
@[simp] theorem getTile_setCase (s : State) (c : Nat) (k : Casement) (u : Nat) : getTile (setCase s c k) u = getTile s u := rfl
@[simp] theorem getHost_setCase (s : State) (c : Nat) (k : Casement) (u : Nat) : getHost (setCase s c k) u = getHost s u := rfl

@[simp] theorem getCase_setCase_self (s : State) (c : Nat) (k : Casement) : getCase (setCase s c k) c = some k := by
  simp [getCase, mfind_mset_self]

theorem getCase_setCase_ne (s : State) {c d : Nat} (k : Casement) (h : d ≠ c) : getCase (setCase s c k) d = getCase s d := by
  simp [getCase, mfind_mset_ne _ _ _ _ h]

@[simp] theorem modCase_dev (s : State) (c : Nat) (f : Casement → Casement) : (modCase s c f).dev = s.dev := by
  unfold modCase; split <;> rfl
@[simp] theorem modCase_tiles (s : State) (c : Nat) (f : Casement → Casement) : (modCase s c f).tiles = s.tiles := by
  unfold modCase; split <;> rfl
@[simp] theorem modCase_hif (s : State) (c : Nat) (f : Casement → Casement) : (modCase s c f).hif = s.hif := by
  unfold modCase; split <;> rfl
@[simp] theorem modCase_bsp (s : State) (c : Nat) (f : Casement → Casement) : (modCase s c f).bsp = s.bsp := by
  unfold modCase; split <;> rfl
@[simp] theorem modCase_load (s : State) (c : Nat) (f : Casement → Casement) : (modCase s c f).load = s.load := by
  unfold modCase; split <;> rfl
@[simp] theorem modCase_hub (s : State) (c : Nat) (f : Casement → Casement) : (modCase s c f).hub = s.hub := by
  unfold modCase; split <;> rfl
@[simp] theorem modCase_jnl (s : State) (c : Nat) (f : Casement → Casement) : (modCase s c f).jnl = s.jnl := by
  unfold modCase; split <;> rfl
@[simp] theorem modCase_rcd (s : State) (c : Nat) (f : Casement → Casement) : (modCase s c f).rcd = s.rcd := by
  unfold modCase; split <;> rfl
@[simp] theorem modCase_fresh (s : State) (c : Nat) (f : Casement → Casement) : (modCase s c f).fresh = s.fresh := by
  unfold modCase; split <;> rfl
@[simp] theorem modCase_pending (s : State) (c : Nat) (f : Casement → Casement) : (modCase s c f).pending = s.pending := by
  unfold modCase; split <;> rfl
@[simp] theorem getTile_modCase (s : State) (c : Nat) (f : Casement → Casement) (u : Nat) : getTile (modCase s c f) u = getTile s u := by
  simp [getTile]

@[simp] theorem getHost_modCase (s : State) (c : Nat) (f : Casement → Casement) (u : Nat) : getHost (modCase s c f) u = getHost s u := by
  simp [getHost]

theorem modCase_of_some {s : State} {c : Nat} {k : Casement} (h : getCase s c = some k) (f : Casement → Casement) :
    modCase s c f = setCase s c (f k) := by simp [modCase, h]

@[simp] theorem getCase_modCase_self (s : State) (c : Nat) (f : Casement → Casement) :
    getCase (modCase s c f) c = (getCase s c).map f := by
  unfold modCase; split <;> simp_all

theorem getCase_modCase_ne (s : State) {c d : Nat} (f : Casement → Casement) (h : d ≠ c) :
    getCase (modCase s c f) d = getCase s d := by
  unfold modCase; split
  · exact getCase_setCase_ne s _ h
  · rfl

/-! ### Hosts -/

@[simp] theorem setHost_dev (s : State) (h : Nat) (x : HostSt) : (setHost s h x).dev = s.dev := rfl
@[simp] theorem setHost_tiles (s : State) (h : Nat) (x : HostSt) : (setHost s h x).tiles = s.tiles := rfl
@[simp] theorem setHost_cases (s : State) (h : Nat) (x : HostSt) : (setHost s h x).cases = s.cases := rfl
@[simp] theorem setHost_bsp (s : State) (h : Nat) (x : HostSt) : (setHost s h x).bsp = s.bsp := rfl
@[simp] theorem setHost_load (s : State) (h : Nat) (x : HostSt) : (setHost s h x).load = s.load := rfl
@[simp] theorem setHost_hub (s : State) (h : Nat) (x : HostSt) : (setHost s h x).hub = s.hub := rfl
@[simp] theorem setHost_jnl (s : State) (h : Nat) (x : HostSt) : (setHost s h x).jnl = s.jnl := rfl
@[simp] theorem setHost_rcd (s : State) (h : Nat) (x : HostSt) : (setHost s h x).rcd = s.rcd := rfl
@[simp] theorem setHost_fresh (s : State) (h : Nat) (x : HostSt) : (setHost s h x).fresh = s.fresh := rfl
@[simp] theorem setHost_pending (s : State) (h : Nat) (x : HostSt) : (setHost s h x).pending = s.pending := rfl
@[simp] theorem getTile_setHost (s : State) (h : Nat) (x : HostSt) (u : Nat) : getTile (setHost s h x) u = getTile s u := rfl
@[simp] theorem getCase_setHost (s : State) (h : Nat) (x : HostSt) (u : Nat) : getCase (setHost s h x) u = getCase s u := rfl

@[simp] theorem modHost_dev (s : State) (h : Nat) (f : HostSt → HostSt) : (modHost s h f).dev = s.dev := rfl
@[simp] theorem modHost_tiles (s : State) (h : Nat) (f : HostSt → HostSt) : (modHost s h f).tiles = s.tiles := rfl
@[simp] theorem modHost_cases (s : State) (h : Nat) (f : HostSt → HostSt) : (modHost s h f).cases = s.cases := rfl
@[simp] theorem modHost_bsp (s : State) (h : Nat) (f : HostSt → HostSt) : (modHost s h f).bsp = s.bsp := rfl
@[simp] theorem modHost_load (s : State) (h : Nat) (f : HostSt → HostSt) : (modHost s h f).load = s.load := rfl
@[simp] theorem modHost_hub (s : State) (h : Nat) (f : HostSt → HostSt) : (modHost s h f).hub = s.hub := rfl
@[simp] theorem modHost_jnl (s : State) (h : Nat) (f : HostSt → HostSt) : (modHost s h f).jnl = s.jnl := rfl
@[simp] theorem modHost_rcd (s : State) (h : Nat) (f : HostSt → HostSt) : (modHost s h f).rcd = s.rcd := rfl
@[simp] theorem modHost_fresh (s : State) (h : Nat) (f : HostSt → HostSt) : (modHost s h f).fresh = s.fresh := rfl
@[simp] theorem modHost_pending (s : State) (h : Nat) (f : HostSt → HostSt) : (modHost s h f).pending = s.pending := rfl
@[simp] theorem getTile_modHost (s : State) (h : Nat) (f : HostSt → HostSt) (u : Nat) : getTile (modHost s h f) u = getTile s u := rfl
@[simp] theorem getCase_modHost (s : State) (h : Nat) (f : HostSt → HostSt) (u : Nat) : getCase (modHost s h f) u = getCase s u := rfl

@[simp] theorem setHost_hif_rings (s : State) (h : Nat) (x : HostSt) : (setHost s h x).hif.rings = s.hif.rings := rfl
@[simp] theorem modHost_hif_rings (s : State) (h : Nat) (f : HostSt → HostSt) : (modHost s h f).hif.rings = s.hif.rings := rfl
@[simp] theorem setHost_hif_assign (s : State) (h : Nat) (x : HostSt) : (setHost s h x).hif.assign = s.hif.assign := rfl
@[simp] theorem modHost_hif_assign (s : State) (h : Nat) (f : HostSt → HostSt) : (modHost s h f).hif.assign = s.hif.assign := rfl
@[simp] theorem setHost_hif_steward (s : State) (h : Nat) (x : HostSt) : (setHost s h x).hif.steward = s.hif.steward := rfl
@[simp] theorem modHost_hif_steward (s : State) (h : Nat) (f : HostSt → HostSt) : (modHost s h f).hif.steward = s.hif.steward := rfl
@[simp] theorem setHost_hif_ready (s : State) (h : Nat) (x : HostSt) : (setHost s h x).hif.ready = s.hif.ready := rfl
@[simp] theorem modHost_hif_ready (s : State) (h : Nat) (f : HostSt → HostSt) : (modHost s h f).hif.ready = s.hif.ready := rfl
@[simp] theorem setHost_hif_fetched (s : State) (h : Nat) (x : HostSt) : (setHost s h x).hif.fetched = s.hif.fetched := rfl
@[simp] theorem modHost_hif_fetched (s : State) (h : Nat) (f : HostSt → HostSt) : (modHost s h f).hif.fetched = s.hif.fetched := rfl
@[simp] theorem setHost_hif_writes (s : State) (h : Nat) (x : HostSt) : (setHost s h x).hif.writes = s.hif.writes := rfl
@[simp] theorem modHost_hif_writes (s : State) (h : Nat) (f : HostSt → HostSt) : (modHost s h f).hif.writes = s.hif.writes := rfl
@[simp] theorem setHost_hif_fenced (s : State) (h : Nat) (x : HostSt) : (setHost s h x).hif.fenced = s.hif.fenced := rfl
@[simp] theorem modHost_hif_fenced (s : State) (h : Nat) (f : HostSt → HostSt) : (modHost s h f).hif.fenced = s.hif.fenced := rfl
@[simp] theorem setHost_hif_retried (s : State) (h : Nat) (x : HostSt) : (setHost s h x).hif.retried = s.hif.retried := rfl
@[simp] theorem modHost_hif_retried (s : State) (h : Nat) (f : HostSt → HostSt) : (modHost s h f).hif.retried = s.hif.retried := rfl

@[simp] theorem getHost_setHost_self (s : State) (h : Nat) (x : HostSt) : getHost (setHost s h x) h = x := by
  simp [getHost, setHost, mget_mset_self]

theorem getHost_setHost_ne (s : State) {h u : Nat} (x : HostSt) (hu : u ≠ h) : getHost (setHost s h x) u = getHost s u := by
  simp [getHost, setHost, mget_mset_ne _ _ _ _ _ hu]

@[simp] theorem getHost_modHost_self (s : State) (h : Nat) (f : HostSt → HostSt) :
    getHost (modHost s h f) h = f (getHost s h) := by simp [modHost]

theorem getHost_modHost_ne (s : State) {h u : Nat} (f : HostSt → HostSt) (hu : u ≠ h) :
    getHost (modHost s h f) u = getHost s u := getHost_setHost_ne s _ hu

/-! ### Events, host writes and free values -/

@[simp] theorem postEv_dev (s : State) (e : Ev) : (postEv s e).dev = s.dev := rfl
@[simp] theorem postEv_tiles (s : State) (e : Ev) : (postEv s e).tiles = s.tiles := rfl
@[simp] theorem postEv_cases (s : State) (e : Ev) : (postEv s e).cases = s.cases := rfl
@[simp] theorem postEv_hif (s : State) (e : Ev) : (postEv s e).hif = s.hif := rfl
@[simp] theorem postEv_bsp (s : State) (e : Ev) : (postEv s e).bsp = s.bsp := rfl
@[simp] theorem postEv_load (s : State) (e : Ev) : (postEv s e).load = s.load := rfl
@[simp] theorem postEv_hub (s : State) (e : Ev) : (postEv s e).hub = s.hub := rfl
@[simp] theorem postEv_jnl (s : State) (e : Ev) : (postEv s e).jnl = s.jnl := rfl
@[simp] theorem postEv_fresh (s : State) (e : Ev) : (postEv s e).fresh = s.fresh := rfl
@[simp] theorem postEv_pending (s : State) (e : Ev) : (postEv s e).pending = s.pending := rfl
@[simp] theorem getTile_postEv (s : State) (e : Ev) (u : Nat) : getTile (postEv s e) u = getTile s u := rfl
@[simp] theorem getCase_postEv (s : State) (e : Ev) (u : Nat) : getCase (postEv s e) u = getCase s u := rfl
@[simp] theorem getHost_postEv (s : State) (e : Ev) (u : Nat) : getHost (postEv s e) u = getHost s u := rfl

@[simp] theorem postArg_dev (s : State) (code src : Nat) (arg : BitVec 32) : (postArg s code src arg).dev = s.dev := rfl
@[simp] theorem postArg_tiles (s : State) (code src : Nat) (arg : BitVec 32) : (postArg s code src arg).tiles = s.tiles := rfl
@[simp] theorem postArg_cases (s : State) (code src : Nat) (arg : BitVec 32) : (postArg s code src arg).cases = s.cases := rfl
@[simp] theorem postArg_hif (s : State) (code src : Nat) (arg : BitVec 32) : (postArg s code src arg).hif = s.hif := rfl
@[simp] theorem postArg_bsp (s : State) (code src : Nat) (arg : BitVec 32) : (postArg s code src arg).bsp = s.bsp := rfl
@[simp] theorem postArg_load (s : State) (code src : Nat) (arg : BitVec 32) : (postArg s code src arg).load = s.load := rfl
@[simp] theorem postArg_hub (s : State) (code src : Nat) (arg : BitVec 32) : (postArg s code src arg).hub = s.hub := rfl
@[simp] theorem postArg_jnl (s : State) (code src : Nat) (arg : BitVec 32) : (postArg s code src arg).jnl = s.jnl := rfl
@[simp] theorem postArg_fresh (s : State) (code src : Nat) (arg : BitVec 32) : (postArg s code src arg).fresh = s.fresh := rfl
@[simp] theorem postArg_pending (s : State) (code src : Nat) (arg : BitVec 32) : (postArg s code src arg).pending = s.pending := rfl
@[simp] theorem getTile_postArg (s : State) (code src : Nat) (arg : BitVec 32) (u : Nat) : getTile (postArg s code src arg) u = getTile s u := rfl
@[simp] theorem getCase_postArg (s : State) (code src : Nat) (arg : BitVec 32) (u : Nat) : getCase (postArg s code src arg) u = getCase s u := rfl
@[simp] theorem getHost_postArg (s : State) (code src : Nat) (arg : BitVec 32) (u : Nat) : getHost (postArg s code src arg) u = getHost s u := rfl

@[simp] theorem post_dev (s : State) (code src b0 b1 w : Nat) : (post s code src b0 b1 w).dev = s.dev := rfl
@[simp] theorem post_tiles (s : State) (code src b0 b1 w : Nat) : (post s code src b0 b1 w).tiles = s.tiles := rfl
@[simp] theorem post_cases (s : State) (code src b0 b1 w : Nat) : (post s code src b0 b1 w).cases = s.cases := rfl
@[simp] theorem post_hif (s : State) (code src b0 b1 w : Nat) : (post s code src b0 b1 w).hif = s.hif := rfl
@[simp] theorem post_bsp (s : State) (code src b0 b1 w : Nat) : (post s code src b0 b1 w).bsp = s.bsp := rfl
@[simp] theorem post_load (s : State) (code src b0 b1 w : Nat) : (post s code src b0 b1 w).load = s.load := rfl
@[simp] theorem post_hub (s : State) (code src b0 b1 w : Nat) : (post s code src b0 b1 w).hub = s.hub := rfl
@[simp] theorem post_jnl (s : State) (code src b0 b1 w : Nat) : (post s code src b0 b1 w).jnl = s.jnl := rfl
@[simp] theorem post_fresh (s : State) (code src b0 b1 w : Nat) : (post s code src b0 b1 w).fresh = s.fresh := rfl
@[simp] theorem post_pending (s : State) (code src b0 b1 w : Nat) : (post s code src b0 b1 w).pending = s.pending := rfl
@[simp] theorem getTile_post (s : State) (code src b0 b1 w : Nat) (u : Nat) : getTile (post s code src b0 b1 w) u = getTile s u := rfl
@[simp] theorem getCase_post (s : State) (code src b0 b1 w : Nat) (u : Nat) : getCase (post s code src b0 b1 w) u = getCase s u := rfl
@[simp] theorem getHost_post (s : State) (code src b0 b1 w : Nat) (u : Nat) : getHost (post s code src b0 b1 w) u = getHost s u := rfl

@[simp] theorem postEv_posted (s : State) (e : Ev) : (postEv s e).rcd.posted = s.rcd.posted ++ [e] := rfl
@[simp] theorem post_posted (s : State) (code src b0 b1 w : Nat) :
    (post s code src b0 b1 w).rcd.posted = s.rcd.posted ++ [mkEv s code src (evArg b0 b1 w) false] := rfl

@[simp] theorem hostWrite_dev (s : State) (h : HostId) (addr : BitVec 64) (data : List Byte) : (hostWrite s h addr data).dev = s.dev := rfl
@[simp] theorem hostWrite_tiles (s : State) (h : HostId) (addr : BitVec 64) (data : List Byte) : (hostWrite s h addr data).tiles = s.tiles := rfl
@[simp] theorem hostWrite_cases (s : State) (h : HostId) (addr : BitVec 64) (data : List Byte) : (hostWrite s h addr data).cases = s.cases := rfl
@[simp] theorem hostWrite_bsp (s : State) (h : HostId) (addr : BitVec 64) (data : List Byte) : (hostWrite s h addr data).bsp = s.bsp := rfl
@[simp] theorem hostWrite_load (s : State) (h : HostId) (addr : BitVec 64) (data : List Byte) : (hostWrite s h addr data).load = s.load := rfl
@[simp] theorem hostWrite_hub (s : State) (h : HostId) (addr : BitVec 64) (data : List Byte) : (hostWrite s h addr data).hub = s.hub := rfl
@[simp] theorem hostWrite_jnl (s : State) (h : HostId) (addr : BitVec 64) (data : List Byte) : (hostWrite s h addr data).jnl = s.jnl := rfl
@[simp] theorem hostWrite_rcd (s : State) (h : HostId) (addr : BitVec 64) (data : List Byte) : (hostWrite s h addr data).rcd = s.rcd := rfl
@[simp] theorem hostWrite_fresh (s : State) (h : HostId) (addr : BitVec 64) (data : List Byte) : (hostWrite s h addr data).fresh = s.fresh := rfl
@[simp] theorem hostWrite_pending (s : State) (h : HostId) (addr : BitVec 64) (data : List Byte) : (hostWrite s h addr data).pending = s.pending := rfl
@[simp] theorem getTile_hostWrite (s : State) (h : HostId) (addr : BitVec 64) (data : List Byte) (u : Nat) : getTile (hostWrite s h addr data) u = getTile s u := rfl
@[simp] theorem getCase_hostWrite (s : State) (h : HostId) (addr : BitVec 64) (data : List Byte) (u : Nat) : getCase (hostWrite s h addr data) u = getCase s u := rfl

@[simp] theorem getHost_hostWrite (s : State) (h : HostId) (addr : BitVec 64) (data : List Byte) (u : Nat) :
    getHost (hostWrite s h addr data) u = getHost s u := rfl
@[simp] theorem hostWrite_writes (s : State) (h : HostId) (addr : BitVec 64) (data : List Byte) :
    (hostWrite s h addr data).hif.writes = s.hif.writes ++ [{ host := h, addr := addr, data := data }] := rfl
@[simp] theorem hostWrite_rings (s : State) (h : HostId) (addr : BitVec 64) (data : List Byte) :
    (hostWrite s h addr data).hif.rings = s.hif.rings := rfl
@[simp] theorem drawBit_state (s : State) (n : Nat) : (drawBit s n).2 = { s with fresh := s.fresh + 1 } := rfl
@[simp] theorem drawNat_state (s : State) (n : Nat) : (drawNat s n).2 = { s with fresh := s.fresh + 1 } := rfl

end Sys2Proof.Machine
end

