-- ==== Sys2Proof/Machine/Package.lean ====
section
/-! DEFINITION. The ball map of the package (spec/18_electrical_package.md R446 to R449). -/

namespace Sys2Proof.Machine

/-- What a ball carries (R447, R448); `neg` is the N ball of a pair. -/
inductive Ball where
  | dio (tile : Nat) (n : Nat)
  | ain (tile : Nat) (n : Nat)
  | vio (tile : Nat)
  | pcie (portB tx : Bool) (lane : Nat) (neg : Bool)
  | perst (portB : Bool)
  | bsp (tx : Bool) (lane : Nat) (neg : Bool)
  | pcieRefclk (neg : Bool)
  | bspRefclk (neg : Bool)
  | sysref25
  | nreset
  | stewardSel (bit : Nat)
  | faultN
  | wakeN
  | aref (sector : Nat)
  | tck | tms | tdi | tdo | trstN
  | vcore | vsram | van | vaux | vsdL | vsdH | vss | vssa
  deriving DecidableEq, Repr

/-- The letters of the rows (R446). -/
def rowLetters : List String :=
  ["A", "B", "C", "D", "E", "F", "G", "H", "J", "K", "L", "M", "N", "P", "T", "U", "V", "W", "Y"]

/-- Name of row index r, from 1 to 52 (R446). -/
def rowName (r : Nat) : String :=
  (match (r - 1) / 19 with | 0 => "" | 1 => "A" | _ => "B") ++ (rowLetters[(r - 1) % 19]?).getD ""

/-- Name of a ball (R446). -/
def ballName (r c : Nat) : String := rowName r ++ toString c

/-- The ball at local row i and column j of a tile's field (R447). -/
def fieldBall (t i j : Nat) : Ball :=
  if i < 3 then .dio t (4 * i + j)
  else if i = 3 then (match j with | 1 => .vss | 2 => .vcore | _ => .vio t)
  else if j < 3 then .ain t (3 * (i - 4) + j)
  else if i = 4 then .vssa else .vcore

/-- A lane's three columns from `first`: P, N and a ground ball (R448). -/
def laneBall (first c : Nat) (pair : Nat → Bool → Ball) : Ball :=
  match (c - first) % 3 with
  | 0 => pair ((c - first) / 3) false
  | 1 => pair ((c - first) / 3) true
  | _ => .vss

/-- Rows A (tx) and B: PCIe port A, then the bulk stream port (R448). -/
def topBall (tx : Bool) (c : Nat) : Ball :=
  if c < 3 then .vss
  else if c < 15 then laneBall 3 c (.pcie false tx)
  else if c < 18 then
    (if !tx then .vss else if c = 15 then .perst false else .pcieRefclk (c == 17))
  else if c < 26 then (if tx then .vsdL else .vsdH)
  else if c < 50 then laneBall 26 c (.bsp tx)
  else if tx && c < 52 then .bspRefclk (c == 51)
  else .vss

/-- The dedicated signals of row BP, columns 3 to 18 (R448). -/
def signalBall (c : Nat) : Ball := match c with
  | 3 => .nreset
  | 4 => .stewardSel 0
  | 5 => .stewardSel 1
  | 6 => .faultN
  | 7 => .wakeN
  | 8 => .sysref25
  | 9 => .tck
  | 10 => .tms
  | 11 => .tdi
  | 12 => .tdo
  | 13 => .trstN
  | 14 => .vss
  | c => .aref (c - 15)

/-- Rows BP (tx) and BN: signals, supplies and PCIe port B (R448). -/
def bottomBall (tx : Bool) (c : Nat) : Ball :=
  if c < 3 then .vss
  else if c < 19 then (if tx then signalBall c else if c < 7 then .vaux else .vss)
  else if c < 38 then (if tx && 27 < c then .vss else .vcore)
  else if c < 50 then laneBall 38 c (.pcie true tx)
  else if tx && c = 50 then .perst true else .vss

/-- Columns 1, 2, 51 and 52, rows 3 to 50 (R448). -/
def sideBall (r c : Nat) : Ball :=
  if c = 1 then (if r < 43 then .vsram else .vss)
  else if c = 51 then (if r < 7 then .vsdL else if r < 11 then .vsdH else .vss)
  else if r < 27 then .van else .vss

/-- The ball at row index r and column c, each from 1 to 52 (R446 to R448). -/
def ballAt (r c : Nat) : Ball :=
  if r < 3 then topBall (r == 1) c
  else if 50 < r then bottomBall (r == 52) c
  else if c < 3 || 50 < c then sideBall r c
  else fieldBall (12 * ((r - 3) / 6) + (c - 3) / 4) ((r - 3) % 6) ((c - 3) % 4)

/-- The row index and column of DIO_tt_n (R447). -/
def dioPlace (t n : Nat) : Nat × Nat := (3 + 6 * (t / 12) + n / 4, 3 + 4 * (t % 12) + n % 4)

/-- The row index and column of AIN_tt_n (R447). -/
def ainPlace (t n : Nat) : Nat × Nat := (7 + 6 * (t / 12) + n / 3, 3 + 4 * (t % 12) + n % 3)

/-- Balls of a row whose function p picks (R449). -/
def rowCount (p : Ball → Bool) (r : Nat) : Nat := (List.range 52).countP (fun c => p (ballAt r (c + 1)))

/-- Balls of the package whose function p picks (R449). -/
def ballCount (p : Ball → Bool) : Nat := (List.range 52).foldl (fun n r => n + rowCount p (r + 1)) 0

end Sys2Proof.Machine
end

