-- ==== Sys2Proof/Tests/Slice0.lean ====
section
/-! SUPPORT. Tests on fixed values: the encodings of well-formed commands, what a few commands do, and for every statement
with hypotheses states and operands that meet them: wit_<statement> shows a witness for each of its clauses in their order
(clauses that share their hypotheses, or have none, share one or are left out). -/

namespace Sys2Proof.Tests

open Sys2Proof Sys2Proof.Machine

set_option Elab.async false

/-- A descriptor: opcode, bytes 2-3, length (host address A goes with it), and fields of the body by first byte. -/
def tDesc (op tgt len : Nat) (l : List (Nat × Nat)) : Desc :=
  { op := BitVec.ofNat 8 op, flags := 0, target := BitVec.ofNat 16 tgt, tag := 9, addrA := if len = 0 then 0 else 0x10000,
    addrB := 0, length := BitVec.ofNat 32 len, body := BitVec.ofNat 288 (l.foldl (fun n p => n + p.2 * 2 ^ (8 * (p.1 - 28))) 0) }

/-- The descriptor as host 0 sends it over its admin ring. -/
def tq (op tgt len : Nat) (l : List (Nat × Nat)) : Req :=
  { host := 0, ring := none, seq := 0, d := tDesc op tgt len l,
    io := { dataA := [], dataB := [], bufOk := true, srcOk := true, recOk := true } }

/-- A state in which the descriptor has been fetched and has not begun. -/
def tOpen (q : Req) (s : State) : State := modHif s (fun f => { f with
  opened := [{ seq := q.seq, host := q.host, ring := q.ring, steward := f.steward == q.host, live := true, started := false }] })

/-- A tile that runs its programme. -/
def tTile : Tile :=
  { Tile.cold with
    dom := { bpa := .on, lf := .on, an := .on, io := .on, tk := .on }
    net := { Router.cold with localSt := .inService, shut := .open_ }
    cyc := { CycState.cold with phase := .stepping, clk := .locked, clkN := 20 }
    fab := { FabState.cold with held := false, writesOn := true, clocksOn := true }
    an := { AnState.cold with connected := true }
    cv := { CvState.cold with on := true } }

/-- A running casement of tile 5, owned by host 0. -/
def tCase : Casement :=
  { Casement.created 0 (1#96 <<< 5) with
    st := .running, depth := 4, n := 20, tileOf := [(0, 5)], chan := { Chan.clear with mask := 1#96 <<< 5 } }

/-- Casement 3 on tile 5, after changes to the tile and to the casement. -/
def tS (f : Tile → Tile) (g : Casement → Casement) : State :=
  { State.reset with tiles := [(5, f tTile)], cases := [(3, g tCase)] }

/-- The casement of tile 5 as it runs. -/
def tRun : State := tS id id

def tCyc (f : CycState → CycState) : State := tS (fun x => { x with cyc := f x.cyc }) id

def tHost (h : Nat) (f : HostSt → HostSt) : State := modHost { State.reset with hif := { HostIf.cold with ready := true } } h f

/-- Rings 10 (submission), 11 (completion) and 12 (event) of host 0. -/
def tRings : State :=
  let sq : Ring := { Ring.fresh .submission 0 4 0x1000 2 with bound := some 11, inflight := [1, 2] }
  let cq : Ring := { Ring.fresh .completion 0 4 0x2000 3 with reserved := 2 }
  { State.reset with hif := { HostIf.cold with rings := [(10, sq), (11, cq), (12, Ring.fresh .event 0 4 0x3000 4)] } }

def tOn (ring : BitVec 16) (seq : Nat) (q : Req) : Req := { q with ring := some ring, seq := seq }

def tFlags (n : Nat) (q : Req) : Req := { q with d := { q.d with flags := BitVec.ofNat 8 n } }

def tData (l : List Byte) (q : Req) : Req := { q with io := { q.io with dataA := l } }

theorem wit_EmptyQueueIdles :
    (let s := State.reset; s.pending = [] ∧ s.hif.fenced = [] ∧
     (∀ p ∈ s.tiles, p.2.fab.portB = [] ∧ p.2.cal.commit = none ∧ ∀ m ∈ p.2.ct.tmrs, m.2.fallAt = none) ∧
     s.bsp.streams.any streamStalls = false ∧ s.bsp.up = false ∧ s.rcd.queue = []) ∧
    (let q := tq 0x00 0 0 []; let s := modHif (tOpen q State.reset) (fun f => { f with fenced := [.nop q] });
     s.pending = [] ∧
     takeFenced (modDev s (fun d => { d with now := d.now + 1 })) s.hif.fenced = some (.nop q, [])) ∧
    (let q := tq 0x00 0 0 []; let s := modHif State.reset (fun f => { f with fenced := [.nop q] });
     takeFenced (modDev s (fun d => { d with now := d.now + 1 })) s.hif.fenced = none) := by
  refine ⟨?_, ?_, ?_⟩ <;> decide +kernel

theorem wit_DescriptorsThatDoNotStart :
    (let q := tq 0x00 0 0 []; (Instr.nop q).request = some (0, q) ∧ openOf q State.reset = none) ∧
    (let q := tq 0x00 0 0 []; (openOf q (markStarted q (tOpen q State.reset))).any (·.started) ∧
     (tq 0x01 0 0 []).d.op.toNat ≠ 0) ∧
    (let q := { tq 0x00 0 0 [] with seq := 1 };
     let s := modHif (tOpen q State.reset) (fun f => { f with opened := f.opened ++ f.opened.map (fun o => { o with seq := 0 }) });
     (openOf q s).any (fun o => !o.started && mustWait q o s) ∧ q.d.op.toNat = 0) ∧
    (let q := tFlags 4 (tq 0x00 0 0 []);
     (openOf q (tOpen q State.reset)).any (fun o => !o.started && !mustWait q o (tOpen q State.reset)) ∧
     badCommon q = true) ∧
    (let q := tq 0x07 0 64 []; badCommon q = false ∧ badCommon (tq 0x00 0 64 []) = true) ∧
    (let q := tq 0xAB 0 128 []; let s := tOpen q (modNet State.reset 84 (fun r => { r with svcShut := .shut }));
     (openOf q s).any (fun o => !mustWait q o s) ∧ badCommon q = false ∧
     (match sendDesc q (markStarted q s) with | .bounced _ => true | _ => false) = true) ∧
    (let q := tq 0xAB 0 128 [];
     let s := tOpen q (linkDown (linkDown (linkDown (linkDown State.reset 84 0) 84 1) 84 2) 84 3);
     (match sendDesc q (markStarted q s) with | .lost _ => true | _ => false) = true) ∧
    (let q := tq 0xB4 0 0 []; mayStart q (tOpen q State.reset) = true ∧ reservedOp 0xB4 = true ∧ q.d.op = 0xB4) := by
  refine ⟨?_, ?_, ?_, ?_, ?_, ?_, ?_, ?_⟩ <;> decide +kernel

theorem wit_CompletionRecordIsWritten :
    ((mfind tRings.hif.rings 10).any (fun x => x.owner == 0 && x.inflight.contains 2 && x.bound == some (BitVec.ofNat 16 11)) ∧
     (mfind tRings.hif.rings 11).any (fun y => !y.error && !y.irq && !y.noWrite) ∧
     (tOn 10 2 (tq 0x00 0 0 [])).ring = some (BitVec.ofNat 16 10)) := by
  decide +kernel

theorem wit_CompletionFrame :
    (∀ p ∈ tRings.hif.rings, p.2.deleting = none) := by
  decide +kernel

theorem wit_HostControlEventsTakeEffect :
    (let s := State.reset; (getHost s 0).en = false ∧ hostReach s 0 = true ∧ s.hif.ready = false) ∧
    (let s := tHost 7 (fun x => { x with sqSize := 4, cqSize := 16, sqBase := 64, cqBase := 64, dbRoot := 4096 });
     (getHost s 7).en = false ∧ hostReach s 7 = true ∧ s.hif.ready = true ∧ (getHost s 7).active = false ∧
     4 ≤ (getHost s 7).sqSize.toNat ∧ (getHost s 7).cqSize.toNat ≤ 16 ∧ (getHost s 7).sqBase ≠ 0 ∧
     (getHost s 7).cqBase ≠ 0 ∧ (getHost s 7).dbRoot ≠ 0) ∧
    (let s := tHost 0 id; (getHost s 0).dbRoot = 0 ∧ (getHost s 0).fault.getLsbD 0 = false ∧
     (getHost s 0).msixFault.getLsbD 7 = false ∧ s.hif.ready = true) ∧
    (let s := tHost 0 (fun x => { x with en := true }); (getHost s 0).en = true ∧ hostReach s 0 = true) ∧
    (let s := State.reset; s.hif.ready = false ∧ s.dev.inReset = .none ∧ s.dev.svc = .on ∧
     ∀ h : HostId, (getHost s h).en = false) ∧
    (hostReach State.reset 4 = true ∧ State.reset.dev.vsd = true ∧ State.reset.dev.pcieA = .on) := by
  refine ⟨?_, ?_, ?_, ?_, ?_, ?_⟩ <;> decide +kernel

theorem wit_RegisterWriteStoresFields :
    (hostReach State.reset 0 = true ∧ (getHost State.reset 0).pba = 0 ∧ (0x8400 : Fin 65536).val % 8 = 0 ∧
     (0x7FF8 : Fin 65536).val % 8 = 0 ∧ (0xFFF8 : Fin 65536).val % 8 = 0) := by
  decide +kernel

theorem wit_DoorbellPollsTakeEffect :
    (let s := tHost 0 (fun x => { x with active := true });
     let rd : PollReads := { mem := [(0, List.replicate 8 0)], noFetch := [], noWrite := [] };
     let x := getHost (takeReach s 0 rd) 0; (getHost s 0).active = true ∧ readRoot x rd = some x.rootSeen) ∧
    (let s := tHost 0 (fun x => { x with active := true, fault := 2, dbEpisode := true });
     let rd : PollReads := { mem := [], noFetch := [], noWrite := [] };
     readRoot (getHost (takeReach s 0 rd) 0) rd = none ∧ (getHost s 0).dbEpisode = true) ∧
    (let s := tHost 0 (fun x => { x with active := true });
     let rd : PollReads := { mem := [(0, 1 :: List.replicate 7 0), (0x400, 1 :: List.replicate 1023 0), (0x800, List.replicate 256 0)], noFetch := [], noWrite := [] };
     let x := getHost (takeReach s 0 rd) 0; readRoot x rd = some 1 ∧ (1 : BitVec 64) ≠ x.rootSeen ∧
     ((readGroupWords x rd).any (fun gs => (readGroups x rd (changedGroups x gs)).isSome)) = true) ∧
    (let x := { HostSt.cold with poll := 2000 }; 2000 ≤ x.poll.toNat) ∧
    (let x := { HostSt.cold with idle := 1000, poll := 1999 }; x.poll.toNat < 2000 ∧ x.backoffDis = false ∧
     1000 ≤ x.idle ∧ idleInterval x = 4) ∧
    (let x : Ring := { Ring.fresh .event 0 4 0x3000 4 with unsignalled := 1, modTime := 1, irq := true };
     x.owner = 0 ∧ x.kind ≠ .submission ∧ 0 < x.unsignalled ∧ x.modTime ≠ 0 ∧
     mfind [(12, x)] (12 : BitVec 16).toNat = some x) := by
  refine ⟨?_, ?_, ?_, ?_, ?_, ?_⟩ <;> decide +kernel

theorem wit_RingDescriptorsTakeEffect :
    (let q := tq 0x00 0 0 []; let s0 := tOpen q (State.reset); starts q s0 = true ∧ q.d.op = 0x00 ∧
     dirty shNop q = false) ∧
    (let q := tq 0x01 0 (16 * 64) [(28, 0), (29, 4), (30, 5), (32, 20), (34, 11), (37, 1)];
     let s0 := tOpen q ({ tRings with hif := { tRings.hif with assign := [(0, 65536, some 0)] } });
     let s := begun q s0; starts q s0 = true ∧ q.d.op = 0x01 ∧ ownsContext q (dW16 q.d 32) s = true ∧
     badRingCreate q = false ∧ boundOk q s = true ∧ mfind s.hif.rings (dW16 q.d 32) = none ∧
     ∀ p ∈ s.hif.rings, (p.2.notice && (newRing q).notice) = false ∧ p.2.word ≠ dW16 q.d 30) ∧
    (let q := tq 0x01 0 (65536 * 16) [(28, 2), (29, 16), (30, 8191), (32, 65535), (37, 1), (40, 1)];
     let s0 := tOpen q ({ State.reset with hif := { HostIf.cold with assign := [(65535, 1, some 0)] } });
     let s := begun q s0; starts q s0 = true ∧ q.d.op = 0x01 ∧ badRingCreate q = false ∧
     (newRing q).notice = true ∧ ownsContext q 65535 s = true ∧ s.hif.rings = []) ∧
    (let q := tq 0x02 0 0 [(32, 12)];
     let s0 := tOpen q ({ tRings with hif := { tRings.hif with assign := [(0, 65536, some 0)] } });
     let s := begun q s0; starts q s0 = true ∧ q.d.op = 0x02 ∧ ownsContext q (dW16 q.d 32) s = true ∧
     dirty shRingDelete q = false ∧
     s.hif.rings.any (fun p => p.2.kind == .submission && p.2.bound == some (BitVec.ofNat 16 (dW16 q.d 32))) = false ∧
     (mfind s.hif.rings (dW16 q.d 32)).any (fun r => r.kind != .submission)) ∧
    (let q := tq 0x02 0 0 [(32, 10)];
     let s0 := tOpen q ({ tRings with hif := { tRings.hif with assign := [(0, 65536, some 0)] } });
     let s := begun q s0; starts q s0 = true ∧ q.d.op = 0x02 ∧ ownsContext q (dW16 q.d 32) s = true ∧
     dirty shRingDelete q = false ∧
     s.hif.rings.any (fun p => p.2.kind == .submission && p.2.bound == some (BitVec.ofNat 16 (dW16 q.d 32))) = false ∧
     (mfind s.hif.rings (dW16 q.d 32)).any (fun r => r.kind == .submission && r.deleting.isNone)) ∧
    (let q := tq 0x03 0 0 [(32, 12), (36, 0x80), (37, 1), (38, 5)];
     let s0 := tOpen q ({ tRings with hif := { tRings.hif with assign := [(0, 65536, some 0)] } });
     let s := begun q s0; starts q s0 = true ∧ q.d.op = 0x03 ∧ ownsContext q (dW16 q.d 32) s = true ∧
     dirty shRingModerate q = false ∧ dByte q.d 37 ≠ 0 ∧
     (mfind s.hif.rings (dW16 q.d 32)).any (fun r => r.kind != .submission)) ∧
    (let q := tq 0x04 0 32 [(32, 12)];
     let s0 := tOpen q ({ tRings with hif := { tRings.hif with assign := [(0, 65536, some 0)] } });
     let s := begun q s0; starts q s0 = true ∧ q.d.op = 0x04 ∧ ownsContext q (dW16 q.d 32) s = true ∧
     dirty shRingQuery q = false ∧ 32 ≤ q.d.length.toNat ∧ q.io.bufOk = true) ∧
    (let q := tq 0x05 0 0 [(28, 7), (32, 65535), (36, 1)]; let s0 := tOpen q (State.reset); let s := begun q s0;
     starts q s0 = true ∧ q.d.op = 0x05 ∧ isSteward q s = true ∧ dirty shRingAssign q = false ∧
     dByte q.d 28 = (7 : HostId).val ∧ 1 ≤ dW32 q.d 36 ∧ dW16 q.d 32 + dW32 q.d 36 ≤ 65536 ∧ s.hif.rings = []) ∧
    (let q := tq 0x06 0 0 [(28, 7)];
     let s0 := tOpen q (tHost 7 (fun x => { x with active := true, accept := true })); let s := begun q s0;
     starts q s0 = true ∧ q.d.op = 0x06 ∧ isSteward q s = true ∧ dirty shHandover q = false ∧
     dByte q.d 28 = (7 : HostId).val ∧ (7 : HostId) ≠ q.host ∧ (getHost s 7).active = true ∧
     (getHost s 7).accept = true) ∧
    (let q := tq 0x07 0 64 []; let s0 := tOpen q (State.reset); starts q s0 = true ∧ q.d.op = 0x07 ∧
     dirty shHostStatus q = false ∧ 64 ≤ q.d.length.toNat ∧ q.io.bufOk = true) ∧
    (let q := tq 0x01 0 0 []; let s0 := tOpen q (State.reset); let s := begun q s0; starts q s0 = true ∧
     q.d.op = 0x01 ∧ ownsContext q (dW16 q.d 32) s = false) ∧
    (let q := tq 0x01 0 0 [(28, 3)];
     let s0 := tOpen q ({ State.reset with hif := { HostIf.cold with assign := [(0, 65536, some 0)] } });
     let s := begun q s0; starts q s0 = true ∧ q.d.op = 0x01 ∧ ownsContext q (dW16 q.d 32) s = true ∧
     badRingCreate q = true) ∧
    (let q := tq 0x01 0 (16 * 16) [(28, 1), (29, 4), (30, 9), (32, 12), (37, 1)];
     let s0 := tOpen q ({ tRings with hif := { tRings.hif with assign := [(0, 65536, some 0)] } });
     let s := begun q s0; starts q s0 = true ∧ q.d.op = 0x01 ∧ ownsContext q (dW16 q.d 32) s = true ∧
     badRingCreate q = false ∧ dByte q.d 28 = 1 ∧ (mfind s.hif.rings (dW16 q.d 32)).isSome = true) := by
  refine ⟨?_, ?_, ?_, ?_, ?_, ?_, ?_, ?_, ?_, ?_, ?_, ?_, ?_⟩ <;> decide +kernel


/-- What a command leaves. -/
def tAfter (c : Instr) (s : State) : State := match exec c s with
  | .next t => t
  | .fault _ => s
  | .refused _ => s

theorem wit_ProgrammeStepTakesEffect :
    (caseOfTile tRun 5 = some (3, tCase) ∧ tCase.st = .running ∧ tCase.pwr = .run ∧
     (getTile tRun 5).ctl.failSilent = false ∧ clkSteps (getTile tRun 5).cyc.clk = true ∧
     (getTile tRun 5).cyc.phase = .stepping ∧ importAwaited (getTile tRun 5) (getTile tRun 5).cyc.step = none ∧
     stepFinds { getTile tRun 5 with bp := readsDue (getTile tRun 5).bp 0 } 0 (.corrected (.instruction 0 0)) = true) ∧
    (let s := tS (fun x => cfgWrite x 0x09 0 8 (2 ^ 49)) id; (caseOfTile s 5).isSome = true ∧
     (getTile s 5).cyc.phase = .stepping ∧ importAwaited (getTile s 5) (getTile s 5).cyc.step = some 0) ∧
    (let s := tCyc (fun y => { y with phase := .barrier, barrier := 7 }); (caseOfTile s 5).isSome = true ∧
     (getTile s 5).cyc.phase = .barrier ∧ (getTile s 5).cyc.barrier < 8 ∧ (getTile s 5).cyc.barrier = 7) := by
  refine ⟨?_, ?_, ?_⟩ <;> decide +kernel

theorem wit_ProgrammeStepFrame :
    (caseOfTile tRun 5 = some (3, tCase) ∧ (getTile tRun 5).cyc.phase = .stepping ∧
     importAwaited (getTile tRun 5) 0 = none ∧ (getTile (tAfter (.programmeStep 5 []) tRun) 5).cyc.step = 1) ∧
    (stepAccesses (getTile tRun 5) 0 (stepResults (getTile tRun 5) 0) = []) := by
  refine ⟨?_, ?_⟩ <;> decide +kernel

theorem wit_BarrierEventsTakeEffect :
    (let s := tCyc (fun y => { y with phase := .barrier }); getCase s 3 = some tCase ∧
     sectorOf 5 = (0 : SectorId).val ∧ tCase.chan.mask.getLsbD 5 = true ∧ (getTile s 5).cyc.phase = .barrier ∧
     (getTile s 5).cyc.closeSig = false) ∧
    (sectorOf 23 = (0 : SectorId).val ∧ tCase.chan.mask.getLsbD 23 = false) ∧
    (let k := { tCase with region := 1#96 <<< 5 ||| 1#96 <<< 29, chan := { Chan.clear with mask := 1#96 <<< 5 ||| 1#96 <<< 29, done := setBit 0 (doneBit 1 1) true } };
     let s := { State.reset with tiles := [(5, tTile), (29, tTile)], cases := [(3, k)] }; (1 : SectorId) ≠ 0 ∧
     sectorDoneNow s k 0 1 = true) ∧
    (24 ≤ (24 : BitVec 16).toNat ∧ (47 : BitVec 16).toNat < 48) ∧
    ((getCase (tS id (fun k => { k with st := .paused })) 3).any (fun k => k.st == .paused)) := by
  refine ⟨?_, ?_, ?_, ?_, ?_⟩ <;> decide +kernel

theorem wit_LintelsTakeEffect :
    (let s := tCyc (fun y => { y with phase := .barrier, closeSig := true, barrier := 8, closeEdges := 2 });
     tileIn s 5 .barrier = true ∧ 8 ≤ (getTile s 5).cyc.barrier ∧ 2 ≤ (getTile s 5).cyc.closeEdges ∧
     (getTile s 5).cyc.closeSig = true ∧ clkSteps (getTile s 5).cyc.clk = true ∧ (caseOfTile s 5).isSome = true) ∧
    (let s := tCyc (fun y => { y with phase := .closed }); tileIn s 5 .closed = true ∧ heldAt s tCase 5 0 = false ∧
     tCase.replay = none ∧ newRate tCase (getTile s 5) 1 = none ∧ paceWait s tCase 5 1 = false ∧
     firstToRelease s tCase 5 1 = true ∧ caseOfTile s 5 = some (3, tCase)) ∧
    (let k := { tCase with chan := { tCase.chan with mask := 1#96 <<< 5 ||| 1#96 <<< 6 } };
     let x := { tTile with cyc := { tTile.cyc with phase := .closed } };
     let s := { State.reset with tiles := [(5, x), (6, { tTile with cyc := { tTile.cyc with cycle := 1 } })], cases := [(3, { k with region := 0x60 })] };
     firstToRelease s { k with region := 0x60 } 5 1 = false ∧ paceWait s { k with region := 0x60 } 5 1 = false) ∧
    (let k := { tCase with rates := [{ req := tq 0x38 3 0 [(28, 16)], cyc := 1 }] };
     let s := tS (fun x => { x with cyc := { x.cyc with phase := .closed } }) (fun _ => k);
     tileIn s 5 .closed = true ∧ caseOfTile s 5 = some (3, k) ∧ heldAt s k 5 0 = false ∧
     newRate k (getTile s 5) 1 = some 16) ∧
    (let k := { tCase with chan := { tCase.chan with epochHold := true } };
     heldAt (tS id (fun _ => k)) k 5 0 = true ∧ caseOfTile (tS id (fun _ => k)) 5 = some (3, k)) ∧
    (let k := { tCase with pace := 1000 }; paceWait (tS id (fun _ => k)) k 5 1 = true ∧
     heldAt (tS id (fun _ => k)) k 5 0 = false) ∧
    (getCase tRun 3 = some tCase ∧ tRun.hub.epoch = none ∧ tRun.hub.promo = none ∧
     (getTile (releaseTile tRun 3 5 1) 5).cyc.cycle = 1) := by
  refine ⟨?_, ?_, ?_, ?_, ?_, ?_, ?_⟩ <;> decide +kernel

theorem wit_BundlesAreCheckedAndBuffered :
    (let p : Packet := { hdr := 0, data := [0, 4, 1, 0] ++ List.replicate 60 0 };
     let s := tS (fun x => { x with net := { x.net with ejectQ := [p] } }) id;
     (getTile s 5).net.ejectQ.contains p = true ∧ bundleRoom (getTile s 5).cyc = true ∧
     (parseBundle p).isSome = true ∧
     bothLive (roleEntry (rtBank (getTile s 5).net (p.hdr.getLsbD 50)) (bitsOf p.hdr.toNat 24 8)) = false) ∧
    (parseBundle { hdr := 0, data := [0, 96, 1, 0] ++ List.replicate 60 0 } = none) ∧
    (let x := getTile (tS (fun x => cfgWrite x 0x09 0 8 (2 ^ 49 + 2 ^ 18 + 7 * 2 ^ 41)) id) 5;
     let w := importWord x 0; x.cyc.phase ≠ .idle ∧ w.testBit 49 = true ∧ recBits w 18 9 = 1 ∧
     recBits w 41 8 = 7 ∧ (1 : BitVec 32).toNat = (x.cyc.cycle.toNat + 1) % 2 ^ 32 ∧ x.cyc.bundles = [] ∧
     x.cyc.landed = []) ∧
    ((importWord (getTile tRun 5) 127).testBit 49 = false) := by
  refine ⟨?_, ?_, ?_, ?_⟩ <;> decide +kernel

theorem wit_TileClockEventsTakeEffect :
    (let s := { tCyc (fun y => { y with phase := .stepping, stallSince := some 0 }) with dev := { Device.cold with now := 2 ^ 40 } };
     stallOver s 5 = true ∧ (getTile s 5).cyc.stallPosted = false) ∧
    (State.reset.dev.sysref = true ∧ (getTile tRun 5).dom.tk = .on ∧ clkSteps (getTile tRun 5).cyc.clk = true) ∧
    (let s := tCyc (fun y => { y with clk := .unlocked }); (getTile s 5).cyc.clk = .unlocked ∧
     unlockedFor s 5 ≤ 1000000) ∧
    (let s := { tCyc (fun y => { y with clk := .unlocked }) with dev := { Device.cold with now := 1000000 } };
     1000000 ≤ unlockedFor s 5) ∧
    ((getTile tRun 5).dom.lf = .on ∧ (getTile tRun 5).ctl.restarting = false ∧ (getTile tRun 5).ctl.watchdog = none) ∧
    (let s := { tS (fun x => { x with ctl := { x.ctl with watchdog := some 7 } }) id with dev := { Device.cold with now := 1000000007 } };
     (getTile s 5).ctl.watchdog = some 7 ∧ (s.dev.now - 7).toNat ≤ 1000000000) ∧
    (let x := { Ctl.cold with restarting := true, activate := some (tq 0x2C 0 0 []) }; x.restarting = true ∧
     x.activate = some (tq 0x2C 0 0 []) ∧ { x with activate := none }.activate = none) ∧
    (let b : Bank := { roles := [(7, mkEntry 5 true 6 true 1 3 1)], avoid := 0 };
     let s := { tS (fun x => { x with ctl := { x.ctl with failSilent := true } }) (fun k => { k with region := 0x60 }) with hub := { Hub.cold with copy0 := b } };
     (caseOfTile s 5).isSome = true ∧ roleIn (hubBank s) 5 = some 7 ∧ (getTile s 5).ctl.failSilent = true ∧
     retiring s 5 = false ∧
     (liveTiles (roleEntry (hubBank s) 7)).filter (fun u => u != 5 && !(getTile s u).ctl.failSilent) = [6]) := by
  refine ⟨?_, ?_, ?_, ?_, ?_, ?_, ?_, ?_⟩ <;> decide +kernel

theorem wit_PeeksAndPokesTakeEffect :
    (let q := tq 0x30 3 3 [(28, 5), (29, 31), (30, 31), (31, 1), (32, 511), (34, 1), (40, nextCycle)];
     let s0 := tOpen q (tRun); let s := begun q s0; starts q s0 = true ∧ q.d.op = 0x30 ∧ NamesTile q tCase ∧
     (getTile s (dByte q.d 28)).ctl.failSilent = false ∧ Serves q .peek (some (dByte q.d 28)) tCase s ∧
     pausedTile s (dByte q.d 28) = false ∧ dW64 q.d 40 = nextCycle ∧ badBpFields q 512 = false) ∧
    (let q := tq 0x32 3 4 [(28, 5), (29, 7), (32, 2047), (34, 1), (40, nextCycle)]; let s0 := tOpen q (tRun);
     let s := begun q s0; starts q s0 = true ∧ q.d.op = 0x32 ∧ badMemFields q = false ∧
     Serves q .peek (some (dByte q.d 28)) tCase s) ∧
    (let q := tq 0x3B 3 64 [(28, 5), (40, nextCycle)]; let s0 := tOpen q (tRun); let s := begun q s0;
     starts q s0 = true ∧ q.d.op = 0x3B ∧ dirty shBoundary q = false ∧ 64 ≤ q.d.length.toNat ∧
     Serves q .peek (some (dByte q.d 28)) tCase s) ∧
    (let k := { tCase with st := .paused };
     let q := tq 0x32 3 4 [(28, 5), (29, 7), (32, 2047), (34, 1), (40, nextCycle)];
     let s0 := tOpen q (tS (fun x => { x with cyc := { x.cyc with phase := .closed } }) (fun _ => k));
     let s := begun q s0; starts q s0 = true ∧ NamesTile q k ∧ Serves q .peek (some (dByte q.d 28)) k s ∧
     pausedTile s (dByte q.d 28) = true ∧ badMemFields q = false) ∧
    (let q := tq 0x31 3 1 [(28, 5), (29, 0), (30, 0), (31, 1), (32, 0), (34, 1), (40, nextCycle)];
     let s0 := tOpen q (tRun); let s := begun q s0; starts q s0 = true ∧ q.d.op = 0x31 ∧
     Serves q .poke (some (dByte q.d 28)) tCase s ∧ tCase.isolated = false ∧
     partnerOf s (dByte q.d 28) = none ∧ badBpFields q 384 = false ∧
     pokesFfs (cfgWrite tTile 0x01 0 8 64) 4 q = true) ∧
    (let q := tq 0x33 3 4 [(28, 5), (29, 7), (32, 2047), (34, 1), (40, nextCycle)]; let s0 := tOpen q (tRun);
     let s := begun q s0; starts q s0 = true ∧ q.d.op = 0x33 ∧ Serves q .poke (some (dByte q.d 28)) tCase s ∧
     badMemFields q = false ∧ q.io.bufOk = true) ∧
    (let p : Poke := { req := tData [1, 2, 3, 4] (tq 0x33 3 4 [(28, 5), (29, 7), (32, 2047), (34, 1)]), mem := true, cyc := 0, completes := true };
     let e := (applyPoke BpState.cold p).emem; Memory.wf zeroes BpState.cold.emem = true ∧
     memGet zeroes e 65535 = 4 ∧ memGet zeroes e 65531 = 0) ∧
    (firstOf (r62 nextCycle 5 4 64) = none ∧ firstOf (r62 4 5 4 0) = some .overrun ∧
     firstOf (r62 (5 + 2 ^ 24) 5 4 64) = some .badField ∧ firstOf (r62 (4 + 2 ^ 24) 5 4 64) = some .queueFull ∧
     firstOf (r62 5 5 4 63) = none) := by
  refine ⟨?_, ?_, ?_, ?_, ?_, ?_, ?_, ?_⟩ <;> decide +kernel

theorem wit_CycleDescriptorsTakeEffect :
    (let q := tq 0x38 3 0 [(28, 36), (32, 1), (36, 1000000000), (40, nextCycle)]; let s0 := tOpen q (tRun);
     let s := begun q s0; starts q s0 = true ∧ q.d.op = 0x38 ∧ Serves q .poke none tCase s ∧
     badRate q = false ∧ dW64 q.d 40 = nextCycle) ∧
    (let q := tq 0x39 3 0 [(40, nextCycle)]; let s0 := tOpen q (tRun); let s := begun q s0; starts q s0 = true ∧
     q.d.op = 0x39 ∧ dirty shPause q = false ∧ tCase.pause = none ∧ Serves q .poke none tCase s ∧
     dW64 q.d 40 = nextCycle) ∧
    (let k := { tCase with st := .paused }; let q := tq 0x3A 3 0 []; let s0 := tOpen q (tS id (fun _ => k));
     let s := begun q s0; starts q s0 = true ∧ Serves q .poke none k s ∧ dirty shStep q = false ∧
     k.pwr = .run ∧ dW32 q.d 32 = 0) ∧
    (let q := tq 0x3A 3 0 [(32, 2 ^ 32 - 1)]; dirty shStep q = false ∧ dW32 q.d 32 ≠ 0) ∧
    (let q := tq 0x34 3 64 [(28, 5)]; let s0 := tOpen q (tRun); let s := begun q s0; starts q s0 = true ∧
     q.d.op = 0x34 ∧ NamesTile q tCase ∧ Serves q .peek (some (dByte q.d 28)) tCase s ∧ 64 ≤ q.d.length.toNat ∧
     dirty shTileStatus q = false) ∧
    (let q := tq 0x35 3 64 [(28, 5)]; let s0 := tOpen q (tRun); let s := begun q s0; starts q s0 = true ∧
     q.d.op = 0x35 ∧ Serves q .peek (some (dByte q.d 28)) tCase s ∧ dirty shTileClear q = false ∧
     (dByte q.d 29).testBit 0 = false) ∧
    (let q := tq 0x35 3 64 [(28, 5), (29, 1)]; let s0 := tOpen q (tRun); let s := begun q s0; starts q s0 = true ∧
     q.d.op = 0x35 ∧ dirty shTileClear q = false ∧ (dByte q.d 29).testBit 0 = true ∧
     Serves q .peek (some (dByte q.d 28)) tCase s) ∧
    (let q := tq 0x3C 3 64 [(28, 5)]; let s0 := tOpen q (tRun); let s := begun q s0; starts q s0 = true ∧
     q.d.op = 0x3C ∧ Serves q .peek (some (dByte q.d 28)) tCase s ∧ dirty shTileStatus q = false) := by
  refine ⟨?_, ?_, ?_, ?_, ?_, ?_, ?_, ?_⟩ <;> decide +kernel

theorem wit_CycleStateIsCleared :
    ((mget 0 (ffSlots (cfgWrite tTile 0x01 0 8 64) 4) 0).getLsbD 383 = false ∧
     (mget 0 (ffSlots (cfgWrite tTile 0x01 0 8 64) 4) 0).getLsbD 0 = true) := by
  decide +kernel


def tF (f : Tile → Tile) : State := tS f id

/-- Pins of tile 5 lie in casement 3. -/
def tPins (locks : BitVec 1728) : State :=
  { tRun with dev := { Device.cold with pinCase := [(60, 3), (71, 3), (1182, 3), (1187, 3)], locks := locks } }

/-- A cell of configuration 1 with its output on net 30, and net 31 with a tap. -/
def tCell : Nat := 1 + 14630 * 2 ^ 8 + 0xFFF * 2 ^ 32 + 31 * 2 ^ 64 + 63 * 2 ^ 72 + 30 * 2 ^ 80

theorem wit_FabricEventsTakeEffect :
    (let s := tF (fun x => cfgWrite x 0x13 12 4 (2 ^ 16)); fclkRuns s 5 3 = true ∧ edgeClocks s 5 8 true = [3]) ∧
    (let s := tF (fun x => { x with fab := { x.fab with portA := [(15, { addr := 3, din := 0, we := true })] } });
     (mfind (getTile (modFab s 5 (fun y => ramUpset y 15 [(4095, 1)])) 5).fab.portA 15).isSome = true) ∧
    (let s := tF (fun x => { x with fab := { x.fab with clkHold := [(3, tq 0x7B 3 0 [])] } });
     (mfind (getTile s 5).fab.clkHold 3).isSome = true) := by
  refine ⟨?_, ?_, ?_⟩ <;> decide +kernel

theorem wit_FabricRamPorts :
    ((getTile tRun 5).ctl.restarting = false ∧ (PortA.mk 5 0 false).we = false) ∧
    (let p : PortB := { req := none, write := true, block := 15, pos := 4095, left := 1, data := [7] };
     let s := (portBRow tRun 5 p).1; Memory.wf zeroes (getTile tRun 5).fab.ram = true ∧
     memGet zeroes (getTile s 5).fab.ram 65535 = 7 ∧ memGet zeroes (getTile s 5).fab.ram 65534 = 0) ∧
    (let q := tq 0x78 3 5 [(28, 5), (29, 0), (32, 3), (34, 5)];
     let p : PortB := { req := some q, write := false, block := 0, pos := 3, left := 5, data := [] };
     let s := tF (fun x => { x with fab := { x.fab with portB := [p] } }); (getTile s 5).fab.portB = [p] ∧
     4 - p.pos % 4 < p.left ∧ (portBRow s 5 p).2.left ≤ 4 - (portBRow s 5 p).2.pos % 4) := by
  refine ⟨?_, ?_, ?_⟩ <;> decide +kernel

theorem wit_FabricDescriptorsTakeEffect :
    (let q := tq 0x78 3 4096 [(28, 5), (29, 15), (32, 0), (34, 4096)]; let s0 := tOpen q (tRun);
     let s := begun q s0; starts q s0 = true ∧ q.d.op = 0x78 ∧ NamesTile q tCase ∧
     Serves q .peek (some (dByte q.d 28)) tCase s ∧ badRamFields q = false) ∧
    (let q := tData [1] (tq 0x79 3 1 [(28, 5), (29, 0), (32, 4095), (34, 1)]); let s0 := tOpen q (tRun);
     let s := begun q s0; starts q s0 = true ∧ q.d.op = 0x79 ∧ Serves q .poke (some (dByte q.d 28)) tCase s ∧
     badRamFields q = false ∧ q.io.bufOk = true) ∧
    (let q := tq 0x7A 3 64 [(28, 5)]; let s0 := tOpen q (tRun); let s := begun q s0; starts q s0 = true ∧
     q.d.op = 0x7A ∧ Serves q .peek (some (dByte q.d 28)) tCase s ∧ dirty shFabStatus q = false ∧
     (dByte q.d 29).testBit 0 = false) ∧
    (let q := tq 0x7A 3 64 [(28, 5), (29, 1)]; let s0 := tOpen q (tRun); let s := begun q s0; starts q s0 = true ∧
     q.d.op = 0x7A ∧ dirty shFabStatus q = false ∧ (dByte q.d 29).testBit 0 = true ∧ 64 ≤ q.d.length.toNat ∧
     Serves q .peek (some (dByte q.d 28)) tCase s) ∧
    (let q := tq 0x7B 3 0 [(28, 5), (29, 3), (30, 40), (31, 64)];
     let s0 := tOpen q (tF (fun x => cfgWrite x 0x13 12 4 (2 ^ 16))); let s := begun q s0; starts q s0 = true ∧
     q.d.op = 0x7B ∧ Serves q .poke (some (dByte q.d 28)) tCase s ∧ dirty shFabClock q = false ∧
     dByte q.d 29 ≤ 3 ∧ badFclk (dByte q.d 30) (dByte q.d 31) = false ∧
     (fclkWord (getTile s 5) 3).testBit 16 = true ∧ (getTile s (dByte q.d 28)).fab.clkHold = []) ∧
    (let q := tq 0x7B 3 0 [(28, 5), (29, 0), (30, 4), (31, 1)];
     let s0 := tOpen q (tF (fun x => cfgWrite { x with fab := { x.fab with clkHold := [(1, tq 0x7B 3 0 [])] } } 0x13 0 4 (2 ^ 16)));
     let s := begun q s0; starts q s0 = true ∧ q.d.op = 0x7B ∧ Serves q .poke (some (dByte q.d 28)) tCase s ∧
     dirty shFabClock q = false ∧ badFclk (dByte q.d 30) (dByte q.d 31) = false ∧
     (fclkWord (getTile s 5) 0).testBit 16 = true ∧ (getTile s (dByte q.d 28)).fab.clkHold ≠ []) := by
  refine ⟨?_, ?_, ?_, ?_, ?_, ?_⟩ <;> decide +kernel

theorem wit_PinEventsTakeEffect :
    (let w : BitVec 32 := BitVec.ofNat 32 (0x5A5A + 60 * 65536); w.toNat % 2 ^ 16 = 0x5A5A ∧
     bitsOf w.toNat 16 11 = (60 : BitVec 11).toNat ∧ pinTile (60 : BitVec 11).toNat = (5 : TileId).val) ∧
    (let s := tF (fun x => { x with pin := { x.pin with lockSeq := some 1187 } });
     let w : BitVec 32 := BitVec.ofNat 32 (0xA5A5 + 1187 * 65536); w.toNat % 2 ^ 16 = 0xA5A5 ∧
     bitsOf w.toNat 16 11 = (1187 : BitVec 11).toNat ∧ (1187 : BitVec 11).toNat < 1728 ∧ pinTile 1187 = 5 ∧
     (getTile s 5).pin.lockSeq = some 1187 ∧ pinLocked s 1187 = false ∧
     pinLocked (tAfter (.pinLockWrite 5 w) s) 1187 = true) ∧
    (let w : BitVec 32 := BitVec.ofNat 32 (0xA5A5 + 60 * 65536); w.toNat % 2 ^ 16 ≠ 0x5A5A ∧
     (getTile tRun 5).pin.lockSeq ≠ some (BitVec.ofNat 11 (bitsOf w.toNat 16 11))) := by
  refine ⟨?_, ?_, ?_⟩ <;> decide +kernel

theorem wit_PinDescriptorsTakeEffect :
    (let q := tq 0x40 3 0 [(28, 5), (30, 0x801), (32, 0x88010801)]; let s0 := tOpen q (tPins 0);
     let s := begun q s0; starts q s0 = true ∧ q.d.op = 0x40 ∧ dByte q.d 28 < 96 ∧
     Serves q .poke (some (dByte q.d 28)) tCase s ∧ mineMask q s = true ∧ pinWriteBad q = false) ∧
    (let q := tq 0x41 3 0 [(28, 5)]; let s0 := tOpen q (tRun); let s := begun q s0; starts q s0 = true ∧
     q.d.op = 0x41 ∧ Serves q .peek (some (dByte q.d 28)) tCase s ∧ mineTile q s = true ∧
     dirty shPinRead q = false) ∧
    (let q := tq 0x42 3 0 [(28, 5), (29, 11), (32, 0x10), (36, 0xFFFFFF + 95 * 2 ^ 24), (40, 0xFFFFFF)];
     let s0 := tOpen q (tPins 0); let s := begun q s0; starts q s0 = true ∧ q.d.op = 0x42 ∧
     Serves q .poke (some (dByte q.d 28)) tCase s ∧ dByte q.d 29 < 12 ∧
     pinOf s (12 * dByte q.d 28 + dByte q.d 29) (dCase q.d) = true ∧ dirty shPinSetup q = false ∧
     badPinRecord (dW32 q.d 32) (dW32 q.d 36) (dW32 q.d 40) = false ∧
     slotConflict (pairNow s) (dW32 q.d 32) (dW32 q.d 36) (dW32 q.d 40) = none ∧
     pinLocked s (12 * dByte q.d 28 + dByte q.d 29) = false) ∧
    (let q := tq 0x43 3 0 [(28, 5), (29, 15), (30, 31), (32, 2 ^ 28 + 60)]; let s0 := tOpen q (tPins 0);
     let s := begun q s0; starts q s0 = true ∧ q.d.op = 0x43 ∧ Serves q .poke (some (dByte q.d 28)) tCase s ∧
     mineLine q s = true ∧ dirty shPinLine q = false ∧ dByte q.d 29 ≤ 15 ∧ dByte q.d 30 ≤ 31 ∧
     badLineWord (dByte q.d 28) (dW32 q.d 32) = false) ∧
    (let q := tq 0x44 3 0 [(28, 5), (29, 0)]; let s0 := tOpen q (tPins (1 <<< 60)); let s := begun q s0;
     starts q s0 = true ∧ q.d.op = 0x44 ∧ Serves q .peek (some (dByte q.d 28)) tCase s ∧
     pinOf s 60 (dCase q.d) = true ∧ dirty shPinLock q = false ∧ lockClosed s 60 = false ∧
     pinLocked s (12 * dByte q.d 28 + dByte q.d 29) = true) ∧
    (let q := tq 0x44 3 0 [(28, 5), (29, 0)]; let s0 := tOpen q (tPins 0); let s := begun q s0; starts q s0 = true ∧
     q.d.op = 0x44 ∧ lockClosed s 60 = false ∧ pinLocked s 60 = false ∧ pinOf s 60 (dCase q.d) = true) ∧
    (let q := tq 0x45 3 64 [(28, 5)]; let s0 := tOpen q (tRun); let s := begun q s0; starts q s0 = true ∧
     q.d.op = 0x45 ∧ mineTile q s = true ∧ dirty shTileCopy q = false ∧ 64 ≤ q.d.length.toNat ∧
     q.io.bufOk = true ∧ Serves q .peek (some (dByte q.d 28)) tCase s) ∧
    (let q := tq 0x42 3 0 [(28, 5), (29, 0), (32, 0x10)]; let s0 := tOpen q (tPins (1 <<< 60)); let s := begun q s0;
     starts q s0 = true ∧ q.d.op = 0x42 ∧ Serves q .poke (some (dByte q.d 28)) tCase s ∧
     dirty shPinSetup q = false ∧ badPinRecord (dW32 q.d 32) (dW32 q.d 36) (dW32 q.d 40) = false ∧
     slotConflict (pairNow s) (dW32 q.d 32) (dW32 q.d 36) (dW32 q.d 40) = none ∧
     pinLocked s (12 * dByte q.d 28 + dByte q.d 29) = true) := by
  refine ⟨?_, ?_, ?_, ?_, ?_, ?_, ?_, ?_⟩ <;> decide +kernel

theorem wit_AnalogEventsTakeEffect :
    (let s := tF (fun x => cfgWrite x 0x20 0 12 (1 + 3 * 2 ^ 80)); switchClosed s 5 (outputSwitch (.cell 0)) = true) ∧
    (let s := tF (fun x => cfgWrite { x with an := { x.an with vrefInt := true } } 0x20 (96 + 4 * 31) 4 1);
     switchClosed s 5 (outputSwitch (.refTap 31)) = true) ∧
    (let s := { tRun with dev := { Device.cold with aref := 1 } }; (getTile s 5).dom.an = .on ∧
     s.dev.aref.getLsbD (sectorOf 5) = true ∧ refOfCode (recBits (getTile s 5).cv.ctrl.toNat 2 2) = .vrefInt) ∧
    (let s := { tRun with dev := { Device.cold with aref := 8 } }; s.dev.aref.getLsbD (3 : SectorId) = true) ∧
    (let c : AnChange := { req := tq 0x50 3 0 [], cells := [], adds := [], atE := 0, closed := false };
     (getTile (tF (fun x => { x with an := { x.an with changes := [c] } })) 5).an.changes = c :: [] ∧
     c.closed = false ∧ { c with closed := true }.closed = true) := by
  refine ⟨?_, ?_, ?_, ?_, ?_⟩ <;> decide +kernel

theorem wit_AnalogDescriptorsTakeEffect :
    (let q := tq 0x50 3 0 [(28, 5), (29, 7), (32, tCell)]; let s0 := tOpen q (tRun); let s := begun q s0;
     starts q s0 = true ∧ q.d.op = 0x50 ∧ dByte q.d 28 < 96 ∧ tCase.region.getLsbD 5 = true ∧
     Serves q .poke (some (dByte q.d 28)) tCase s ∧ dirty shAnCell q = false ∧ dByte q.d 29 ≤ 7 ∧
     badCellRecord (dByte q.d 29) (dBits q.d 32 12) = false ∧
     driverConflict s (dByte q.d 28) (writeCell (getTile s 5) (dByte q.d 29) (dBits q.d 32 12)) = false) ∧
    (let q := tq 0x51 3 0 [(28, 5), (29, 31), (32, 3)]; let s0 := tOpen q (tRun); let s := begun q s0;
     starts q s0 = true ∧ q.d.op = 0x51 ∧ Serves q .poke (some (dByte q.d 28)) tCase s ∧
     dirty shAnNet q = false ∧ dW32 q.d 32 < 64 ∧
     driverConflict s 5 (cfgWrite (getTile s 5) 0x20 (96 + 4 * dByte q.d 29) 4 (dW32 q.d 32)) = false ∧
     (dW32 q.d 32).testBit 2 = false) ∧
    (let q := tq 0x51 3 0 [(28, 5), (29, 31), (32, 60)]; let s0 := tOpen q (tRun); let s := begun q s0;
     starts q s0 = true ∧ q.d.op = 0x51 ∧ Serves q .poke (some (dByte q.d 28)) tCase s ∧
     dirty shAnNet q = false ∧
     driverConflict s 5 (cfgWrite (getTile s 5) 0x20 (96 + 4 * dByte q.d 29) 4 (dW32 q.d 32)) = false ∧
     (dW32 q.d 32).testBit 2 = true ∧
     trunkOther s (4 * sectorOf 5 + recBits (dW32 q.d 32) 3 2) (dCase q.d) = false) ∧
    (let q := tq 0x52 3 0 [(28, 5), (29, 5), (32, 31)]; let s0 := tOpen q (tPins 0); let s := begun q s0;
     starts q s0 = true ∧ q.d.op = 0x52 ∧ Serves q .poke (some (dByte q.d 28)) tCase s ∧ dByte q.d 29 < 6 ∧
     pinOf s (1152 + 6 * dByte q.d 28 + dByte q.d 29) (dCase q.d) = true ∧ dirty shAnPin q = false ∧
     badNetField (dByte q.d 32) = false ∧ pinLocked s (1152 + 6 * dByte q.d 28 + dByte q.d 29) = false) ∧
    (let q := tq 0x53 3 256 [(28, 5)]; let s0 := tOpen q (tRun); let s := begun q s0; starts q s0 = true ∧
     q.d.op = 0x53 ∧ dirty shTileCopy q = false ∧ 256 ≤ q.d.length.toNat ∧
     Serves q .peek (some (dByte q.d 28)) tCase s) := by
  refine ⟨?_, ?_, ?_, ?_, ?_⟩ <;> decide +kernel


/-- Comparator 15 of tile 5: enabled by mode, code 512 against the internal reference, which has settled, of pin AIN_5_5, with
CMP_TICK 1, 60 ns after a multiple of its tick. -/
def tCmp (mode : Nat) (c : Cmp) : State :=
  { tF (fun x => cfgWrite { x with an := { x.an with vrefInt := true }, ct := { x.ct with cmps := [(15, c)] } } 0x22 (8 * 15) 8
      (mode + 512 * 16 + 37 * 2 ^ 16 + 2 ^ 32)) with dev := { Device.cold with now := 1000060 } }

/-- 1 V at AIN_5_5. -/
def tVolt : AnalogIn :=
  { van := 1800000000, vrefInt := 1250000000, aref := 0, pins := [(1187, 1000000000)], past := [], err := 0, hystErr := 0 }

/-- Timer 7 of tile 5, running, with these record words. -/
def tTmr (w0 period compare : Nat) : State :=
  { tF (fun x => cfgWrite { x with ct := { x.ct with tmrs := [(7, { Tmr.cold with running := true })] } } 0x22 (128 + 16 * 7) 12
      (w0 + period * 2 ^ 32 + compare * 2 ^ 64)) with dev := { Device.cold with now := 100 } }

/-- An edge that waits at a sink of tile 5. -/
def tEdge (k : EdgeSink) (s : State) : State :=
  modTile { s with dev := { s.dev with now := 100 } } 5 (fun x => { x with edges := [{ sink := k, at_ := 0 }] })

/-- A converter entry: both inputs on nets, sampling time code 4, last of the table. -/
def tEntry : Nat := 63 * 64 + 4 * 2 ^ 12 + 2 ^ 57

def tCv (f : CvState → CvState) : State :=
  tF (fun x => { x with an := { x.an with vrefInt := true }, cv := f { x.cv with table := [(0, BitVec.ofNat 64 tEntry)] } })

def tPoint (sum ideal : Nat) : CapPoint := { entry := 0, sum := sum, n := 16, min := 1, max := 16382, ideal := ideal }

def tCal (lo hi : CapPoint) : State := tF (fun x => { x with cal := { x.cal with points := [(38, lo), (39, hi)] } })

theorem wit_ComparatorDecidesAtThresholds :
    (let x := getTile (tCmp 1 Cmp.cold) 5; cmpDecide x 15 1000000001 2000000000 0 = some true ∧
     cmpDecide x 15 1000000000 2000000000 0 = none ∧ cmpDecide x 15 999999999 2000000000 0 = some false ∧
     cmpDecide x 15 1000000001 2000000000 8000000 = none) ∧
    (let x := getTile (tCmp 1 { Cmp.cold with decided := true, d := true }) 5; cmpMode x 15 ≠ 0 ∧
     x.fab.held = false ∧ (getCmp x 15).decided = true ∧ cmpWanted x 15 = true) := by
  refine ⟨?_, ?_⟩ <;> decide +kernel

theorem wit_ComparatorTimerEventsTakeEffect :
    (let s := tCmp 1 Cmp.cold; cmpRuns (getTile s 5) 15 = true ∧ cmpMode (getTile s 5) 15 = 1 ∧
     cmpRefOk (getTile s 5) 15 = true ∧
     cmpDecide (getTile s 5) 15 (cmpInput s tVolt 5 15) (refVolts tVolt .vrefInt) (cmpBand tVolt (getTile s 5) 15) = some true) ∧
    (let s := tCmp 2 Cmp.cold; cmpRuns (getTile s 5) 15 = true ∧ cmpTickDue s 5 15 = true ∧
     cmpMode (getTile s 5) 15 = 2) ∧
    (let s := tTmr 1 9 9; tmTicks s 5 7 = true ∧ compareDue s 5 7 = true) ∧
    (let s := tTmr 4 9 0; tmTicks s 5 7 = true ∧ compareDue s 5 7 = false ∧
     tmReached s 5 7 (tmPeriod (getTile s 5) 7 + 1) = true ∧ tmMode (getTile s 5) 7 = 4 ∧
     (getTmr (getTile s 5) 7).next = none) ∧
    (let s := tF (fun x => cfgWrite { x with ct := { x.ct with tmrs := [(7, { Tmr.cold with running := true, hit := true, count := 10 })] } } 0x22 240 12 (3 + 9 * 2 ^ 32 + 2 ^ 64));
     tmTicks s 5 7 = true ∧ compareDue s 5 7 = false ∧ tmReached s 5 7 10 = true ∧ tmMode (getTile s 5) 7 = 3 ∧
     tmCmp (getTile s 5) 7 ≠ 0) ∧
    (let s := tF (fun x => cfgWrite { x with ct := { x.ct with tmrs := [(7, { Tmr.cold with running := true, hit := true, count := 10 })] } } 0x22 240 12 (1 + 9 * 2 ^ 32 + 2 ^ 64));
     compareDue s 5 7 = false ∧ tmReached s 5 7 10 = true ∧ tmMode (getTile s 5) 7 = 1 ∧
     tmCmp (getTile s 5) 7 ≠ 0) ∧
    (let s := tTmr 1 9 0; compareDue s 5 7 = false ∧ tmReached s 5 7 10 = true ∧ tmMode (getTile s 5) 7 = 1 ∧
     tmCmp (getTile s 5) 7 = 0) ∧
    (let s := tTmr 2 9 0; tmTicks s 5 7 = true ∧ compareDue s 5 7 = false ∧ tmMode (getTile s 5) 7 = 2 ∧
     tmReached s 5 7 (tmPeriod (getTile s 5) 7) = true) ∧
    (let s := tEdge (.timer 7 3) (tTmr 2 9 0);
     dueEdge s 5 true (toTimer 7) = some { sink := .timer 7 3, at_ := 0 } ∧ tmMode (getTile s 5) 7 = 2 ∧
     (getTile s 5).dom.lf = .on ∧ dozed s 5 = false) ∧
    (let s := tEdge (.timer 7 3) (tTmr 4 9 0); (dueEdge s 5 true (toTimer 7)).isSome = true ∧
     tmMode (getTile s 5) 7 = 4 ∧ (getTmr (getTile s 5) 7).running = true) ∧
    (let q := tq 0x5A 3 0 [(28, 5), (29, 15), (30, 3)];
     (getCmp (getTile (tCmp 1 { Cmp.cold with check := some (q, false) }) 5) 15).check = some (q, false) ∧
     dByte q.d 30 = (if true then 3 else 2)) ∧
    (let q := tq 0x5A 3 0 [(28, 5), (29, 15), (30, 2)];
     (getCmp (getTile (tCmp 1 { Cmp.cold with check := some (q, false) }) 5) 15).check = some (q, false) ∧
     dByte q.d 30 = (if false then 3 else 2)) ∧
    (let q := tq 0x5A 3 0 [(28, 5), (29, 15), (30, 1)];
     let c := getCmp (getTile (tCmp 1 { Cmp.cold with check := some (q, true), decided := true, d := true }) 5) 15;
     c.check = some (q, true) ∧ dByte q.d 30 = 1 ∧ false = !true ∧ c.d = true ∧ c.decided = true) := by
  refine ⟨?_, ?_, ?_, ?_, ?_, ?_, ?_, ?_, ?_, ?_, ?_, ?_, ?_⟩ <;> decide +kernel

theorem wit_ComparatorTimerDescriptorsTakeEffect :
    (let q := tq 0x58 3 0 [(28, 5), (29, 15), (32, 2 + 37 * 2 ^ 16), (36, 1000000)]; let s0 := tOpen q (tPins 0);
     let s := begun q s0; starts q s0 = true ∧ q.d.op = 0x58 ∧ NamesTile q tCase ∧
     Serves q .poke (some (dByte q.d 28)) tCase s ∧ cmpInputOk q (dW32 q.d 32) s = true ∧
     dirty shCmpSet q = false ∧ badCmpRecord (dW32 q.d 32) (dW32 q.d 36) = false) ∧
    (let q := tq 0x59 3 0 [(28, 5), (29, 15), (30, 1), (32, 12)];
     let s0 := tOpen q ({ tRun with hif := tRings.hif }); let s := begun q s0; starts q s0 = true ∧
     q.d.op = 0x59 ∧ Serves q .poke (some (dByte q.d 28)) tCase s ∧ dirty shCmpEv q = false ∧
     (mfind s.hif.rings (dW16 q.d 32)).any (fun r => r.owner == q.host && r.kind == .event)) ∧
    (let q := tq 0x5A 3 0 [(28, 5), (29, 15), (30, 2)]; let s0 := tOpen q (tCmp 1 Cmp.cold); let s := begun q s0;
     starts q s0 = true ∧ q.d.op = 0x5A ∧ Serves q .poke (some (dByte q.d 28)) tCase s ∧
     dirty shCmpCheck q = false ∧ badCheck (getTile s 5) 15 (dByte q.d 30) = false ∧
     (getCmp (getTile s 5) 15).check = none) ∧
    (let q := tq 0x5B 3 0 [(28, 5), (29, 7), (32, 4 + 30 * 16), (36, 5), (40, 6)]; let s0 := tOpen q (tRun);
     let s := begun q s0; starts q s0 = true ∧ q.d.op = 0x5B ∧ Serves q .poke (some (dByte q.d 28)) tCase s ∧
     dByte q.d 29 < 8 ∧ dirty shTmSet q = false ∧ badTmRecord (dByte q.d 29) (dW32 q.d 32) = false) ∧
    (let q := tq 0x5C 3 0 [(28, 5), (29, 7), (30, 1)]; let s0 := tOpen q (tRun); let s := begun q s0;
     starts q s0 = true ∧ q.d.op = 0x5C ∧ dirty shTmArm q = false ∧ dByte q.d 29 < 8 ∧
     Serves q .poke (some (dByte q.d 28)) tCase s) ∧
    (let q := tq 0x5D 3 128 [(28, 5), (29, 0), (30, 8)]; let s0 := tOpen q (tRun); let s := begun q s0;
     starts q s0 = true ∧ q.d.op = 0x5D ∧ Serves q .peek (some (dByte q.d 28)) tCase s ∧
     dirty shTmRead q = false ∧ 1 ≤ dByte q.d 30 ∧ dByte q.d 29 + dByte q.d 30 ≤ 8 ∧
     16 * dByte q.d 30 ≤ q.d.length.toNat) ∧
    (let q := tq 0x5E 3 64 [(28, 5)]; let s0 := tOpen q (tRun); let s := begun q s0; starts q s0 = true ∧
     q.d.op = 0x5E ∧ dirty shTileCopy q = false ∧ Serves q .peek (some (dByte q.d 28)) tCase s) := by
  refine ⟨?_, ?_, ?_, ?_, ?_, ?_, ?_⟩ <;> decide +kernel

theorem wit_ConverterEventsTakeEffect :
    (let s := tCv (fun v => { v with delay := true }); (getTile s 5).cv.delay = true ∧ dozed s 5 = false) ∧
    (let s := tCv (fun v => { v with seq := some (0, 0) }); (getTile s 5).cv.on = true ∧
     nextConv (getTile s 5) = some (.entry 0, tEntry, 0) ∧ sliceFor (getTile s 5) tEntry 0 = some 0) ∧
    (let c : Conv := { slice := 3, for_ := .entry 0, refOk := true };
     let s := tCv (fun v => { v with inFlight := [c] });
     (getTile s 5).cv.inFlight.find? (fun c => c.slice = (3 : Fin 4).val) = some c ∧
     cvRefOk (getTile s 5) = true) ∧
    (let s := tEdge (.slot 3) (tF (fun x => cfgWrite x 0x21 (144 + 48) 2 0x1FFE));
     dueEdge s 5 true (· == .slot 3) = some { sink := .slot 3, at_ := 0 } ∧
     (cvSlotSource (getTile s 5) 3).testBit 12 = true ∧ (getTile s 5).cv.injPending.getLsbD 3 = false ∧
     (getTile s 5).cv.inj = none ∧ (getTile s 5).cv.on = true) ∧
    (let s := tEdge (.snap 31) (tF (fun x => cfgWrite x 0x21 (200 + 248) 8 0x1FFE));
     dueEdge s 5 false (· == .snap 31) = some { sink := .snap 31, at_ := 0 } ∧
     (accRec (getTile s 5) 31).testBit 12 = true ∧ dozed s 5 = false) := by
  refine ⟨?_, ?_, ?_, ?_, ?_⟩ <;> decide +kernel

theorem wit_ResultsMergeAndSnap :
    (let a := { AccSet.empty with count := 16777214 }; a.full = false ∧ (16383 : Nat) < 16384 ∧
     (accMerge a 16383).full = true) ∧
    ({ AccSet.empty with full := true }.full = true) ∧
    ((getTile tRun 5).cv.expMask.getLsbD 31 = false ∧ (getAcc (getTile tRun 5) 31).snapAt ≠ some 0) := by
  refine ⟨?_, ?_, ?_⟩ <;> decide +kernel

theorem wit_ConverterDescriptorsTakeEffect :
    (let q := tq 0x60 3 0 [(28, 5), (32, 2 + 2 * 4 + 16 * 16)]; let s0 := tOpen q (tRun); let s := begun q s0;
     starts q s0 = true ∧ q.d.op = 0x60 ∧ NamesTile q tCase ∧ Serves q .poke (some (dByte q.d 28)) tCase s ∧
     dirty shCvSetup q = false ∧ badCvCtrl (dW32 q.d 32) = false) ∧
    (let q := tData (leBytes 8 tEntry) (tq 0x61 3 8 [(28, 5), (29, 0), (30, 1)]); let s0 := tOpen q (tRun);
     let s := begun q s0; starts q s0 = true ∧ q.d.op = 0x61 ∧ Serves q .poke (some (dByte q.d 28)) tCase s ∧
     dirty shCvSeq q = false ∧ 1 ≤ dByte q.d 30 ∧ dByte q.d 29 + dByte q.d 30 ≤ 16 ∧
     dirtyEntry (cvShadowEntry (cfgWrite (getTile s 5) 0x21 (8 + 8 * dByte q.d 29) (8 * dByte q.d 30) (leNat (q.io.dataA.take (8 * dByte q.d 30)))) 0) = false ∧
     badCvTable (cvShadowEntry (cfgWrite (getTile s 5) 0x21 (8 + 8 * dByte q.d 29) (8 * dByte q.d 30) (leNat (q.io.dataA.take (8 * dByte q.d 30))))) = false) ∧
    (let q := tq 0x62 3 0 [(28, 5), (29, 3), (32, tEntry), (40, 0x1FFF)]; let s0 := tOpen q (tRun);
     let s := begun q s0; starts q s0 = true ∧ q.d.op = 0x62 ∧ Serves q .poke (some (dByte q.d 28)) tCase s ∧
     dirty shCvInjSet q = false ∧ badCvSlot (dW64 q.d 32) (dW16 q.d 40) = false ∧
     (getTile s 5).cv.injPending.getLsbD 3 = false ∧ (getTile s 5).cv.inj = none) ∧
    (let q := tq 0x62 3 0 [(28, 5), (29, 3), (32, tEntry), (40, 0x1FFF)];
     let s0 := tOpen q (tF (fun x => { x with cv := { x.cv with injPending := 8 } })); let s := begun q s0;
     starts q s0 = true ∧ q.d.op = 0x62 ∧ Serves q .poke (some (dByte q.d 28)) tCase s ∧
     (getTile s 5).cv.injPending.getLsbD 3 = true ∧ (getTile s 5).cv.inj = none) ∧
    (let q := tq 0x63 3 0 [(28, 5)]; let s0 := tOpen q (tCv (fun v => { v with ctrl := 1 })); let s := begun q s0;
     starts q s0 = true ∧ q.d.op = 0x63 ∧ Serves q .poke (some (dByte q.d 28)) tCase s ∧
     dirty shCvStart q = false ∧ (getTile s 5).cv.on = true ∧ cvMode (getTile s 5) = 1 ∧
     capturing (getTile s 5) = false ∧ (getTile s 5).cv.latched = false ∧ (getTile s 5).cv.delay = false ∧
     (getTile s 5).cv.seq = none) ∧
    (let q := tq 0x64 3 0 [(28, 5), (29, 3)]; let s0 := tOpen q (tF (fun x => cfgWrite x 0x21 (144 + 48) 2 0x1FFF));
     let s := begun q s0; starts q s0 = true ∧ q.d.op = 0x64 ∧ Serves q .poke (some (dByte q.d 28)) tCase s ∧
     dirty shCvInject q = false ∧ (cvSlotSource (getTile s 5) 3).testBit 12 = true ∧
     capturing (getTile s 5) = false ∧ (getTile s 5).cv.injPending.getLsbD 3 = false ∧
     (getTile s 5).cv.inj = none) ∧
    (let q := tq 0x65 3 0 [(28, 5), (29, 31), (32, 0xFFF)]; let s0 := tOpen q (tRun); let s := begun q s0;
     starts q s0 = true ∧ q.d.op = 0x65 ∧ Serves q .poke (some (dByte q.d 28)) tCase s ∧
     dirty shCvAccSet q = false ∧ badAccRecord (dW64 q.d 32) = false) ∧
    (let q := tq 0x66 3 1024 [(28, 5), (29, 0), (30, 32), (31, 1)]; let s0 := tOpen q (tRun); let s := begun q s0;
     starts q s0 = true ∧ q.d.op = 0x66 ∧ Serves q .peek (some (dByte q.d 28)) tCase s ∧
     badCvRead q 32 = false ∧ dByte q.d 31 = 1) ∧
    (let q := tq 0x67 3 1024 [(28, 5), (29, 0), (30, 32), (31, 1)]; let s0 := tOpen q (tRun); let s := begun q s0;
     starts q s0 = true ∧ q.d.op = 0x67 ∧ Serves q .peek (some (dByte q.d 28)) tCase s ∧
     badCvRead q 16 = false ∧ dByte q.d 31 = 1) ∧
    (let q := tq 0x68 3 0 [(28, 5), (32, 2 ^ 32 - 1)]; let s0 := tOpen q (tRun); let s := begun q s0;
     starts q s0 = true ∧ q.d.op = 0x68 ∧ dirty shCvSnap q = false ∧
     Serves q .poke (some (dByte q.d 28)) tCase s) ∧
    (let q := tq 0x69 3 64 [(28, 5)]; let s0 := tOpen q (tRun); let s := begun q s0; starts q s0 = true ∧
     q.d.op = 0x69 ∧ dirty shTileCopy q = false ∧ 64 ≤ q.d.length.toNat ∧
     Serves q .peek (some (dByte q.d 28)) tCase s) := by
  refine ⟨?_, ?_, ?_, ?_, ?_, ?_, ?_, ?_, ?_, ?_, ?_⟩ <;> decide +kernel

theorem wit_CalibrationTakesEffect :
    (let q := tq 0x70 3 0 [(28, 5), (29, 0), (30, 1), (32, 65536), (36, 16383)]; let s0 := tOpen q (tCv id);
     let s := begun q s0; starts q s0 = true ∧ q.d.op = 0x70 ∧ NamesTile q tCase ∧
     Serves q .poke (some (dByte q.d 28)) tCase s ∧ dirty shCalCapture q = false ∧ dByte q.d 30 ≤ 1 ∧
     16 ≤ dW32 q.d 32 ∧ dW32 q.d 32 ≤ 65536 ∧ dW16 q.d 36 ≤ 16383 ∧
     badCvEntry (setRecord (getTile s 5) 0) = false ∧ calBusy (getTile s 5) = false) ∧
    (let lo := tPoint 16384 1024; let hi := tPoint 245760 15360; let q := tq 0x71 3 0 [(28, 5), (29, 19)];
     let s0 := tOpen q (tCal lo hi); let s := begun q s0; starts q s0 = true ∧
     Serves q .poke (some (dByte q.d 28)) tCase s ∧ dirty shCalSet q = false ∧ dByte q.d 29 ≤ 19 ∧
     calBusy (getTile s 5) = false ∧ calPoints (getTile s 5) 19 = some (lo, hi) ∧
     (calJudge (calBlock (getTile s 5)) lo hi).1 = 0) ∧
    (let lo := tPoint 16384 1024; calPoints (getTile (tCal lo lo) 5) 19 = some (lo, lo) ∧
     (calJudge (calBlock (getTile (tCal lo lo) 5)) lo lo).1 = 3) ∧
    (let q := tq 0x72 3 0 [(28, 5), (29, 7)]; let s0 := tOpen q (tF (fun x => cfgWrite x 0x20 84 12 1));
     let s := begun q s0; starts q s0 = true ∧ q.d.op = 0x72 ∧ Serves q .poke (some (dByte q.d 28)) tCase s ∧
     dirty shCalSet q = false ∧ acConfig (acRecord (getTile s 5) 7) = 1 ∧ calBusy (getTile s 5) = false) ∧
    (let q := tq 0x73 3 0 [(28, 5)]; let s0 := tOpen q (tRun); let s := begun q s0; starts q s0 = true ∧
     q.d.op = 0x73 ∧ Serves q .poke (some (dByte q.d 28)) tCase s ∧ dirty shCalTile q = false ∧
     calBusy (getTile s 5) = false) ∧
    (let q := tq 0x74 3 0 [(28, 5), (32, 5242), (34, 6553)]; let s0 := tOpen q (tRun); let s := begun q s0;
     starts q s0 = true ∧ q.d.op = 0x74 ∧ Serves q .poke (some (dByte q.d 28)) tCase s ∧
     dirty shCalLimits q = false ∧ dW16 q.d 32 ≤ 5242 ∧ dW16 q.d 34 ≤ 6553) ∧
    (let q := tq 0x75 3 512 [(28, 5)]; let s0 := tOpen q (tRun); let s := begun q s0; starts q s0 = true ∧
     q.d.op = 0x75 ∧ dirty shTileCopy q = false ∧ 512 ≤ q.d.length.toNat ∧
     Serves q .peek (some (dByte q.d 28)) tCase s) ∧
    (let c : Capture := { req := tq 0x72 3 0 [(28, 5), (29, 7)], kind := .cellZero 7 7 0x7E 0, entry := 0, waiting := false, want := 64, tried := 64, got := 64, sum := 0, min := 0, max := 0, done := true };
     (getTile (tCv (fun v => { v with capture := some c })) 5).cv.capture = some c ∧ (0x7E : BitVec 8) ≠ 0x80 ∧
     (0x7E : BitVec 8) ≠ 0x7F) ∧
    (let c : CalCommit := { req := tq 0x74 3 0 [], what := .limits, block := CalBlock.factory, steps := 3 };
     (getTile (tF (fun x => { x with cal := { x.cal with commit := some c } })) 5).cal.commit = some c ∧
     c.steps = 3 ∧ c.what = .limits) ∧
    ((calJudge CalBlock.factory (tPoint 16384 1024) { tPoint 245760 15360 with max := 16383 }).1 = 4 ∧
     (calJudge CalBlock.factory (tPoint 32768 1024) (tPoint 262144 15360)).1 = 1) ∧
    ((calJudge CalBlock.factory (tPoint 16384 1024) (tPoint 205760 15360)).1 = 2) ∧
    (let y := commitNext CalState.cold { req := tq 0x74 3 0 [], what := .limits, block := CalBlock.factory, steps := 0 };
     y.commit.any (fun c => c.steps == 1) ∧ copyGood y.copyA = false) := by
  refine ⟨?_, ?_, ?_, ?_, ?_, ?_, ?_, ?_, ?_, ?_, ?_, ?_⟩ <;> decide +kernel


def tLoad (f : Load → Load) (g : Casement → Casement) : State := { tS id g with load := f Load.idle }

def tKey (rev : Bool) : KeySlot := { programmed := true, revoked := rev, hash := List.replicate 48 0 }

/-- A key record: action, slot, and the key hash where it programmes one. -/
def tKeyRec (action slot : Nat) : List Byte := padTo 272 ([BitVec.ofNat 8 action, BitVec.ofNat 8 slot] ++ List.replicate 6 0 ++
  leBytes 8 Config.serial.toNat)

/-- Role 7 held by tiles 5 and 6 of casement 3, both live or the first alone. -/
def tRole (both : Bool) (f : Tile → Tile) (g : Casement → Casement) : State :=
  let b : Bank := { roles := [(7, mkEntry 5 true 6 both 1 3 1)], avoid := 0 }
  { State.reset with
    tiles := [(5, tTile), (6, f tTile)], cases := [(3, g { tCase with region := 0x60 })], hub := { Hub.cold with copy0 := b } }

def tCtl (f : Ctl → Ctl) : State := tF (fun x => { x with ctl := f x.ctl })

/-- A loader in pass 2 with these bytes waiting. -/
def tPass2 (stage : Stage) (head buf hash : List Byte) : State := tLoad (fun l => { l with
  phase := .pass2, stage := stage, req := some (tq 0x10 3 0 []), head := head, buf := buf, headHash := hash, hashes := [hash] }) id

theorem wit_LoaderEventsTakeEffect :
    (let s := tLoad (fun l => { l with phase := .pass1 }) id; s.load.phase = .pass1 ∧ s.load.fromBsp = false ∧
     s.load.stage ≠ .complete ∧
     (loadStep (modLoad s (fun l => { l with buf := List.replicate 63 0 }))).isNone = true) ∧
    (let h : List Byte := List.replicate 20 0 ++ [1]; let s := tPass2 .header h h ((sha384 h).take 16);
     s.load.fromBsp = false ∧
     (loadStep s).any (fun s2 => s2.load.phase == .pass2 && (loadStep s2).isNone) = true) ∧
    (let s := tLoad (fun l => { l with phase := .pass1, req := some (tq 0x10 3 0 []), fetch := some 256, fromBsp := true }) id;
     s.load.fetch = some 256 ∧ (getStream s 12).part = none ∧ s.load.purpose = .load) ∧
    (let s := tPass2 .header [] [] []; s.load.phase = .pass2 ∧ s.load.stage = .header ∧
     s.load.head.length ≤ s.load.buf.length ∧
     (sha384 (s.load.buf.take s.load.head.length)).take 16 ≠ s.load.headHash) ∧
    (let s := tPass2 .header [] [] ((sha384 []).take 16);
     (sha384 (s.load.buf.take s.load.head.length)).take 16 = s.load.headHash) ∧
    (let s := tPass2 .frames (List.replicate 20 0 ++ [1]) (List.replicate 24 0) [];
     s.load.frameIx ≠ hdrFrames s.load.head ∧
     24 + fieldAt (s.load.buf.take 24) 16 4 + tagSize s.load.head ≤ s.load.buf.length ∧
     s.load.hashes[s.load.frameIx]? ≠ some ((sha384 (s.load.buf.take 24)).take 16)) ∧
    (let s := tPass2 .frames (List.replicate 20 0 ++ [1]) (List.replicate 24 0) ((sha384 (List.replicate 24 0)).take 16);
     s.load.hashes[s.load.frameIx]? = some ((sha384 (s.load.buf.take 24)).take 16) ∧
     openFrame s.load.head s.load.frameIx (s.load.buf.take 24) [] [] = some []) ∧
    (let s := tLoad (fun l => { l with phase := .takeover, case_ := 3 }) (fun k => { k with stop := some .load });
     (getCase s 3).any (fun k => k.stop == some .load && k.st == .running) ∧ s.load.phase = .takeover ∧
     s.load.full = false ∧ s.load.case_ = 3) ∧
    (let q := tq 0x23 3 0 [];
     (getCase (tS id (fun k => { k with stop := some (.reset q) })) 3).any (fun k => k.stop == some (.reset q) && k.st == .running)) ∧
    (let q := tq 0x21 3 0 [];
     (getCase (tS id (fun k => { k with stop := some (.dissolve q) })) 3).any (fun k => k.stop == some (.dissolve q))) ∧
    (let s := { tLoad (fun l => { l with phase := .takeover, case_ := 3, req := some (tq 0x10 3 0 []), fromBsp := true }) (fun k => { k with st := .loading }) with tiles := [] };
     s.load.purpose = .load ∧ s.load.phase = .takeover ∧ targetClear s = true ∧ s.load.fromBsp = true) := by
  refine ⟨?_, ?_, ?_, ?_, ?_, ?_, ?_, ?_, ?_, ?_, ?_⟩ <;> decide +kernel

theorem wit_StartUpTakesEffect :
    (let s := tLoad (fun l => { l with phase := .startUp }) (fun k => { k with st := .loading, startUp := some 0 });
     s.load.purpose = .load ∧ (getCase s 3).any (fun k => k.st == .loading && k.startUp == some 0) ∧
     ((startSteps tCase.startOrder.toNat)[0]?).getD 0 = 0 ∧ allLocked s (liveTilesOf s tCase) = true) ∧
    (((startSteps tCase.startOrder.toNat)[2]?).getD 0 ≠ 0 ∧ ((startSteps tCase.startOrder.toNat)[3]?).getD 0 = 1) ∧
    (let s := { tCyc (fun y => { y with clk := .locking }) with load := { Load.idle with phase := .startUp } };
     allLocked s (liveTilesOf s tCase) = false ∧
     (liveTilesOf s tCase).find? (fun t => (getTile s t).cyc.clk != .locked) = some 5 ∧ s.hub.promo = none) ∧
    (((startSteps 0xE4)[3]?).getD 0 = 3 ∧ ((startSteps 0xE4)[0]?).getD 0 = 0) ∧
    (let s := { tCyc (fun y => { y with clk := .locking }) with cases := [] }; (getTile s 5).cyc.clk = .locking ∧
     s.dev.sysref = true ∧ (getTile s 5).dom.tk = .on ∧ caseOfTile s 5 = none ∧ s.hub.promo = none) := by
  refine ⟨?_, ?_, ?_, ?_, ?_⟩ <;> decide +kernel

theorem wit_LoaderDescriptorsTakeEffect :
    (let q := tq 0x10 3 (16 * 65536) [(28, 0), (32, 65536)]; let s0 := tOpen q (tRun); let s := begun q s0;
     starts q s0 = true ∧ q.d.op = 0x10 ∧ isSteward q s = true ∧ dirty shCfgLoad q = false ∧
     cfgFull q = false ∧ badSource q true = false ∧ cfgLoadBusy q s = false) ∧
    (let q := tq 0x10 0x8000 0 [(28, 1)]; let s0 := tOpen q (State.reset); let s := begun q s0; starts q s0 = true ∧
     q.d.op = 0x10 ∧ isSteward q s = true ∧ dirty shCfgLoad q = false ∧ cfgFull q = true ∧ dCase q.d = 0 ∧
     badSource q true = false ∧ cfgLoadBusy q s = false) ∧
    (let q := { tq 0x10 0x8000 0 [(28, 1)] with host := 1 }; let s0 := tOpen q (tRun); let s := begun q s0;
     starts q s0 = true ∧ q.d.op = 0x10 ∧ isSteward q s = false ∧ cfgFull q = true ∧
     isOwner { q with d := tDesc 0x10 3 0 [] } s = false) ∧
    (let q := tq 0x10 3 16 [(28, 0), (32, 1)]; let s0 := tOpen q (tLoad (fun l => { l with phase := .startUp }) id);
     let s := begun q s0; starts q s0 = true ∧ q.d.op = 0x10 ∧ isSteward q s = true ∧
     badSource q true = false ∧ s.load.phase ≠ .idle) ∧
    (let q := tq 0x11 0 256 []; let s0 := tOpen q (State.reset); starts q s0 = true ∧ q.d.op = 0x11 ∧
     dirty shCfgStatus q = false ∧ 256 ≤ q.d.length.toNat) ∧
    (let q := tq 0x12 0 272 []; let s0 := tOpen q (State.reset); let s := begun q s0; starts q s0 = true ∧
     q.d.op = 0x12 ∧ dirty shCfgKey q = false ∧ 272 ≤ q.d.length.toNat ∧ isSteward q s = true ∧
     ∀ n : Nat, n < 4 → (keySlot s n).programmed = false) ∧
    (let q := tq 0x13 0 272 [];
     let s0 := tOpen q ({ State.reset with dev := { Device.cold with keys := [(2, tKey false), (3, tKey false)] } });
     let s := begun q s0; starts q s0 = true ∧ q.d.op = 0x13 ∧ isSteward q s = true ∧
     (keySlot s 3).programmed = true ∧ (keySlot s 3).revoked = false ∧ liveSlots s ≠ [3] ∧
     (liveSlots s).length = 2) := by
  refine ⟨?_, ?_, ?_, ?_, ?_, ?_, ?_⟩ <;> decide +kernel

theorem wit_CasementDescriptorsTakeEffect :
    (let q := tq 0x20 31 0 [(28, 7), (32, 2 ^ 95)]; let s0 := tOpen q (State.reset); let s := begun q s0;
     starts q s0 = true ∧ q.d.op = 0x20 ∧ isSteward q s = true ∧ dirty shCaseCreate q = false ∧
     getCase s (dCase q.d) = none ∧ createRegion q ≠ 0 ∧ dByte q.d 28 ≤ 7 ∧ placementBusy s = false ∧
     ∀ t ∈ tilesOf (createRegion q), inPool s t = true) ∧
    (let q := tq 0x21 3 0 []; let s0 := tOpen q (tRun); let s := begun q s0; starts q s0 = true ∧ q.d.op = 0x21 ∧
     isSteward q s = true ∧ dirty shCaseOnly q = false ∧ getCase s (dCase q.d) = some tCase ∧
     loadTouches s (dCase q.d) = false ∧ caseClosed s (dCase q.d) = false ∧ tCase.stop = none ∧
     tCase.st = .running) ∧
    (let q := tq 0x21 3 0 []; let s0 := tOpen q (tS id (fun k => { k with st := .stopped })); let s := begun q s0;
     starts q s0 = true ∧ q.d.op = 0x21 ∧ caseClosed s 3 = false ∧
     (getCase s 3).any (fun k => k.st == .stopped && k.stop.isNone)) ∧
    (let q := tq 0x22 3 0 [(28, 7)]; let s0 := tOpen q (tRun); let s := begun q s0; starts q s0 = true ∧
     q.d.op = 0x22 ∧ dirty shCaseOwner q = false ∧ dByte q.d 28 ≤ 7 ∧ loadTouches s (dCase q.d) = false ∧
     caseClosed s (dCase q.d) = false) ∧
    (let q := tq 0x23 3 0 []; let s0 := tOpen q (tS id (fun k => { k with st := .paused, pwr := .hold }));
     let s := begun q s0; starts q s0 = true ∧ q.d.op = 0x23 ∧ notAllowed q .peek s = false ∧
     (getCase s 3).any (fun k => k.stop.isNone && k.pwr == .hold && k.st != .stopped)) ∧
    (let q := tq 0x23 3 0 []; let s0 := tOpen q (tRun); let s := begun q s0; starts q s0 = true ∧ q.d.op = 0x23 ∧
     notAllowed q .peek s = false ∧ caseClosed s 3 = false ∧ tCase.pwr = .run ∧ tCase.entering = false ∧
     tCase.stop = none) ∧
    (let q := tq 0x23 3 0 []; let s0 := tOpen q (tS id (fun k => { k with st := .held })); let s := begun q s0;
     starts q s0 = true ∧ q.d.op = 0x23 ∧ caseClosed s 3 = false) ∧
    (let q := tq 0x24 3 0 [(28, 1)]; let s0 := tOpen q (tRun); let s := begun q s0; starts q s0 = true ∧
     q.d.op = 0x24 ∧ notAllowed q .poke s = false ∧ dirty shCasePolicy q = false ∧ caseClosed s 3 = false) ∧
    (let q := tq 0x25 3 0 [(28, 1), (32, 1727)]; let s0 := tOpen q (tRun); let s := begun q s0; starts q s0 = true ∧
     q.d.op = 0x25 ∧ isSteward q s = true ∧ pinAssignBad q s = false ∧ pinMoveBusy q s = false ∧
     pinLocked s (dW16 q.d 32) = false ∧ (dByte q.d 28).testBit 0 = true ∧ caseClosed s (dCase q.d) = false) ∧
    (let q := tq 0x25 0 0 [(32, 60)]; let s0 := tOpen q (tPins 0); let s := begun q s0; starts q s0 = true ∧
     q.d.op = 0x25 ∧ isSteward q s = true ∧ pinAssignBad q s = false ∧ (dByte q.d 28).testBit 0 = false ∧
     pinMoveBusy q s = false ∧ pinLocked s (dW16 q.d 32) = false) ∧
    (let q := tq 0x2C 3 64 []; let s0 := tOpen q (tRun); let s := begun q s0; starts q s0 = true ∧ q.d.op = 0x2C ∧
     dirty shCaseStatus q = false ∧ notAllowed q .peek s = false ∧ caseClosed s 3 = false) ∧
    (let q := tq 0x2D 0 768 []; let s0 := tOpen q (tRun); starts q s0 = true ∧ q.d.op = 0x2D ∧
     dirty shTileStatusAll q = false ∧ 768 ≤ q.d.length.toNat) := by
  refine ⟨?_, ?_, ?_, ?_, ?_, ?_, ?_, ?_, ?_, ?_, ?_, ?_⟩ <;> decide +kernel

theorem wit_RolesAndTilesTakeEffect :
    (let q := tq 0x26 3 0 [(29, 239), (30, 95), (28, 1), (36, 7)]; let s0 := tOpen q (tRun); let s := begun q s0;
     starts q s0 = true ∧ q.d.op = 0x26 ∧ isSteward q s = true ∧ caseClosed s (dCase q.d) = false ∧
     dirty shRolePromote q = false ∧ badSource q false = false ∧ rtTenure (namedEntry q s) ≠ dW16 q.d 36) ∧
    (let q := tq 0x26 3 0 [(29, 7), (30, 30), (28, 1), (36, 1)];
     let s0 := tOpen q (tRole false id (fun k => { k with lost := [(7, 6)] })); let s := begun q s0;
     starts q s0 = true ∧ q.d.op = 0x26 ∧ isSteward q s = true ∧ rtTenure (namedEntry q s) = dW16 q.d 36 ∧
     promotable q s = true ∧ badSpare q s = false ∧ overRoutes q s = false ∧ placementBusy s = false ∧
     badSource q false = false ∧ caseClosed s (dCase q.d) = false) ∧
    (let q := tq 0x27 3 0 [(29, 7), (30, 6), (36, 2)]; let s0 := tOpen q (tRole true id id); let s := begun q s0;
     starts q s0 = true ∧ q.d.op = 0x27 ∧ isSteward q s = true ∧ caseClosed s (dCase q.d) = false ∧
     dirty shRoleRetire q = false ∧ rtTenure (namedEntry q s) ≠ dW16 q.d 36) ∧
    (let q := tq 0x27 3 0 [(29, 7), (30, 6), (36, 1)]; let s0 := tOpen q (tRole true id id); let s := begun q s0;
     starts q s0 = true ∧ q.d.op = 0x27 ∧ rtTenure (namedEntry q s) = dW16 q.d 36 ∧ retirable q s = true ∧
     loadTouches s (dCase q.d) = false ∧ epochBusy s = false) ∧
    (let q := tq 0x28 0 0 [(30, 5)];
     let s0 := tOpen q (tF (fun x => { x with net := { x.net with localSt := .retired } }));
     let s := begun q s0; starts q s0 = true ∧ q.d.op = 0x28 ∧ isSteward q s = true ∧
     dirty shTileOnly q = false ∧ retiredTile s (dByte q.d 30) = true ∧ testBusy s (dByte q.d 30) = false ∧
     roleIn (hubBank s) (dByte q.d 30) = none) ∧
    (let q := tq 0x29 0 0 [(30, 5)];
     let s0 := tOpen q (tF (fun x => { x with net := { x.net with localSt := .retired } }));
     let s := begun q s0; starts q s0 = true ∧ q.d.op = 0x29 ∧ isSteward q s = true ∧
     dirty shTileOnly q = false ∧ retiredTile s (dByte q.d 30) = true ∧ testBusy s (dByte q.d 30) = false) ∧
    (let q := tq 0x2A 0 524288 []; let s0 := tOpen q (State.reset); let s := begun q s0; starts q s0 = true ∧
     q.d.op = 0x2A ∧ isSteward q s = true ∧ dirty shFwLoad q = false ∧ 64 ≤ q.d.length.toNat ∧
     q.d.length.toNat ≤ 524288 ∧ slotRun s true = false) ∧
    (slotRun (tCtl (fun c => { c with slotB := true })) true = true ∧
     slotRun (tCtl (fun c => { c with slotB := true })) false = true) ∧
    (let s := { State.reset with tiles := allTiles.map (fun t => (t, { Tile.cold with ctl := { Ctl.cold with slotB := true } })) };
     slotRun s true = true ∧ slotRun s false = false) ∧
    (let q := tq 0x2B 0 0 [(30, 95), (31, 1)]; let s0 := tOpen q (State.reset); let s := begun q s0;
     starts q s0 = true ∧ q.d.op = 0x2B ∧ isSteward q s = true ∧ dirty shFwActivate q = false ∧
     dByte q.d 30 ≤ 95 ∧ dByte q.d 31 ≤ 1 ∧ tilePlaced s (dByte q.d 30) = false ∧
     ∀ t : Nat, t < 96 → (getTile s t).ctl.restarting = false) ∧
    (let p : Promo := { req := tq 0x26 3 0 [], case_ := 3, role := 7, survivor := 5, former := 6, spare := 30, stage := .copying, dirty := [], atCycle := 0 };
     let s := { tRun with hub := { Hub.cold with promo := some p } }; s.hub.promo = some p ∧
     p.stage = .copying ∧ (getCase s p.case_).any (fun k => k.st == .running)) ∧
    (let q := tq 0x28 0 0 [(30, 5)]; let s := tCtl (fun c => { c with test := some (false, q) });
     (getTile s 5).ctl.test = some (false, q) ∧ (getTile s 5).net.condemned = false ∧
     (getTile s 5).ctl.restarting = false) ∧
    (let q := tq 0x29 0 0 [(30, 5)]; let s := tCtl (fun c => { c with test := some (true, q) });
     (getTile s 5).ctl.test = some (true, q) ∧ (repairOf (getTile s 5).ctl).seqNo ≠ 0xFFFFFFFF) := by
  refine ⟨?_, ?_, ?_, ?_, ?_, ?_, ?_, ?_, ?_, ?_, ?_, ?_, ?_⟩ <;> decide +kernel


def tBsp (f : Bsp → Bsp) : State := { tRun with bsp := f { Bsp.cold with up := true, training := false } }

def tJnl (f : JnlCase → JnlCase) : State := tS id (fun k => { k with jnl := f { k.jnl with on := true } })

/-- A journal with a LOAD record, and a checkpoint of number 1 begun at cycle 4 and ended, of an image with one tile. -/
def tLog : List Byte :=
  jnlBytes 0x02 3 0 (List.replicate 16 0 ++ [1] ++ List.replicate 23 0) ++
    jnlBytes 0x0A 3 4 (leBytes 8 4 ++ leBytes 4 1 ++ [1, 0, 0, 0]) ++ jnlBytes 0x0C 3 4 (leBytes 4 1 ++ leBytes 4 0)

def tReplay (last : Nat) : Req := let q := tq 0x97 3 0 [(28, 1), (32, tLog.length), (40, last), (48, 1)]
  tData tLog { q with d := { q.d with addrA := 0x10000 } }

def tCkpt (k : Casement) (q : Req) (s : State) : Option Found :=
  chooseCkpt k (searchJournal s (dW32 q.d 48) (replayFuel s (newReplay q)) (newReplay q) { loads := [], found := [] })

def tHolds (k : Casement) : State := { tS id (fun _ => k) with tiles := [(5, { tTile with cyc := { tTile.cyc with phase := .closed } })] }

def tEpoch (stage : EpochStage) (f : Epoch → Epoch) : State :=
  let e : Epoch := { why := .link, newEpoch := true, stage := stage, bank := Bank.cold, written := 0, acked := 0, switched := 0,
                      switchAcked := 0, flipped := 0, reports := [], asked := 0 }
  { State.reset with hub := { Hub.cold with epoch := some (f e) } }

def tPacket (type src dst : Nat) (data : List Byte) : Packet := mkPacket type false 3 0 src 0 dst data

def tNet (t : Nat) (f : Router → Router) : State := modNet tRun t f

/-- A block of the link as its peer scrambles it after these bits. -/
def tBlock (r : BitVec 58) (sync : BitVec 2) (x : BitVec 64) : LinkBlock := { sync := sync, bits := scramble r x }

/-- A PROBE from tile 4 to tile 10, offered to the link from tile 4 to tile 5. -/
def tPacketAt : State := tAfter (.packetInject 4 (mkPacket 0x27 false 3 4 255 0 10 (List.replicate 64 0))) tRun

theorem wit_StreamPortEventsTakeEffect :
    (let good : List LinkBlock := List.replicate 64 { sync := 1, bits := 0 };
     let s := { State.reset with bsp := Bsp.cold }; s.bsp.training = true ∧ s.dev.bspDom = .on ∧
     s.dev.vsd = true ∧ s.bsp.linkReq = none ∧
     trainedWidth (linkSet s.bsp).2 (([good, good, good, good, [], [], [], []].zip (List.range 8)).foldl (fun v q => if hasLocked q.1 then setBit v q.2 true else v) (0 : BitVec 8)) = some 4) ∧
    (let s := { State.reset with bsp := { Bsp.cold with linkReq := some (tq 0x80 0 0 []) } };
     s.bsp.linkReq = some (tq 0x80 0 0 []) ∧ s.bsp.up = false) ∧
    (let s := tBsp (fun b => { b with locked := 0x80 }); s.bsp.up = true ∧ s.bsp.locked.getLsbD (7 : Fin 8) = true) ∧
    (let s := tBsp (fun b => { b with outEn := 1, exports := [{ bytes := [1] }], credits := [(13, 1)] });
     s.bsp.replay.length < 64 ∧ s.bsp.outEn.getLsbD 0 = true ∧ 0 < s.bsp.exports.length ∧
     0 < mget 0 s.bsp.credits 13) ∧
    (let s := { tBsp id with load := { Load.idle with phase := .pass1, fromBsp := true } }; s.bsp.up = true ∧
     s.load.fromBsp = true ∧ s.load.fetch = none ∧ s.load.phase = .pass1 ∧ s.load.stage = .header ∧
     s.load.head = []) ∧
    (let s := tBsp id; let b := tBlock 0 2 (ctlBlock 0x03 (13 + 256 * 7)); s.bsp.up = true ∧ s.dev.bspDom = .on ∧
     b.sync = 2 ∧
     descramble (mget 0 s.bsp.rxScr s.bsp.rxLane) b.bits = ctlBlock 0x03 ((13 : Fin 16).val + 256 * (7 : BitVec 16).toNat)) ∧
    (let p : SentSeg := { seqNo := 4095, stream := 13, data := [], upTo := 0 };
     let s := tBsp (fun b => { b with replay := [p], rxScr := [(0, 5)] }); s.bsp.replay = p :: [] ∧
     s.jnl.mode ≠ 1 ∧
     descramble (mget 0 s.bsp.rxScr s.bsp.rxLane) (tBlock 5 2 (ctlBlock 0x04 4095)).bits = ctlBlock 0x04 (4095 : BitVec 12).toNat) ∧
    (let p : SentSeg := { seqNo := 5, stream := 13, data := [], upTo := 0 };
     let s := tBsp (fun b => { b with replay := [p] }); s.bsp.txFails = none ∧
     descramble (mget 0 s.bsp.rxScr s.bsp.rxLane) (tBlock 0 2 (ctlBlock 0x05 5)).bits = ctlBlock 0x05 (5 : BitVec 12).toNat ∧
     (tBsp (fun b => { b with replay := [p], txFails := some (5, 2) })).bsp.txFails = some (5, 2)) ∧
    (let s := tBsp id; (7 : Fin 8).val < s.bsp.width ∧ s.bsp.width ≤ 8 ∧ s.bsp.rate ≤ 3 ∧
     descramble (mget 0 s.bsp.rxScr (7 : Fin 8)) (tBlock 0 2 (ctlBlock 0x06 (7 + 256 * s.bsp.width + 65536 * s.bsp.rate))).bits = ctlBlock 0x06 ((7 : Fin 8).val + 256 * s.bsp.width + 65536 * s.bsp.rate)) ∧
    (8 ≤ (descramble 0 (tBlock 0 2 (ctlBlock 0x08 0)).bits).toNat % 256 ∧
     (descramble 0 (tBlock 0 2 (ctlBlock 0 1)).bits).toNat % 256 = 0) ∧
    (let hdr : BitVec 64 := 11 + 2 ^ 16 * 4; let s := tBsp (fun b => { b with rxSeg := .body hdr [] });
     s.bsp.rxSeg = .body hdr [] ∧ bitsOf hdr.toNat 16 16 + 4 ≤ (([] : List Byte) ++ leBytes 8 9).length) ∧
    ((0 : BitVec 32) ≠ crc32 (leBytes 8 0 ++ [1]) ∧ (tBsp id).bsp.rxFails < 2) ∧
    (let s := tBsp (fun b => { b with streams := [(11, { Stream.unbound with granted := 8 })] }); (11 : Nat) < 12 ∧
     creditsOf (List.replicate 2048 (0 : Byte)).length ≤ (getStream s 11).granted) := by
  refine ⟨?_, ?_, ?_, ?_, ?_, ?_, ?_, ?_, ?_, ?_, ?_, ?_, ?_⟩ <;> decide +kernel

theorem wit_PatternFramesDecode :
    (let b : Bind := { case_ := 3, tile := 5, fabric := true, primary := 15, alternate := 0, offset := 4095 };
     let x := { Stream.unbound with bind := some b, ref := some [7] }; x.bind = some b ∧ x.ref = some [7] ∧
     4096 * b.primary + b.offset + [7].length ≤ 65536) ∧
    (let b : Bind := { case_ := 3, tile := 5, fabric := false, primary := 7, alternate := 0, offset := 2047 };
     4 * b.offset + [1, 2, 3, 4].length ≤ 8192 ∧ [1, 2, 3, 4].length % 4 = 0) := by
  refine ⟨?_, ?_⟩ <;> decide +kernel

theorem wit_StreamPortDescriptorsTakeEffect :
    (let q := tq 0x80 0 0 [(28, 3), (29, 8)]; let s0 := tOpen q (tBsp id); let s := begun q s0; starts q s0 = true ∧
     q.d.op = 0x80 ∧ isSteward q s = true ∧ dirty shBspLink q = false ∧ dByte q.d 28 ≤ 3 ∧
     dByte q.d 29 ∈ [1, 2, 4, 8] ∧ s.bsp.linkReq = none ∧ dByte q.d 28 ≠ 0) ∧
    (let q := tq 0x80 0 0 [(28, 0), (29, 1)]; let s0 := tOpen q (tBsp id); let s := begun q s0; starts q s0 = true ∧
     q.d.op = 0x80 ∧ dirty shBspLink q = false ∧ dByte q.d 29 ∈ [1, 2, 4, 8] ∧ dByte q.d 28 = 0 ∧
     s.bsp.linkReq = none) ∧
    (let q := tq 0x81 0 64 []; let s0 := tOpen q (tRun); starts q s0 = true ∧ q.d.op = 0x81 ∧
     dirty shBspStatus q = false ∧ 64 ≤ q.d.length.toNat ∧ q.io.bufOk = true) ∧
    (let q := tq 0x82 3 0 [(28, 5), (29, 11), (30, 1), (31, 1), (32, 15), (33, 15), (34, 4095)];
     let s0 := tOpen q (tRun); let s := begun q s0; starts q s0 = true ∧ q.d.op = 0x82 ∧ NamesTile q tCase ∧
     dirty shStreamBind q = false ∧ dByte q.d 29 ≤ 11 ∧ bound2Other q (dByte q.d 29) s = false ∧
     Serves q .poke (some (dByte q.d 28)) tCase s ∧ (dByte q.d 30).testBit 0 = true ∧ badBind q = false) ∧
    (let q := tq 0x82 3 0 [(28, 5), (29, 0)]; let s0 := tOpen q (tRun); let s := begun q s0; starts q s0 = true ∧
     q.d.op = 0x82 ∧ NamesTile q tCase ∧ dirty shStreamBind q = false ∧ (dByte q.d 30).testBit 0 = false ∧
     badBind q = false ∧ Serves q .peek (some (dByte q.d 28)) tCase s) ∧
    (let q := tq 0x83 3 0 [(28, 5), (32, 2 ^ 32 - 1)]; let s0 := tOpen q (tRun); let s := begun q s0;
     starts q s0 = true ∧ q.d.op = 0x83 ∧ NamesTile q tCase ∧ dirty shExportSet q = false ∧
     Serves q .poke (some (dByte q.d 28)) tCase s) ∧
    (let q := tq 0x84 3 0 [(29, 11)]; let s0 := tOpen q (tRun); let s := begun q s0; starts q s0 = true ∧
     q.d.op = 0x84 ∧ dirty shStreamReset q = false ∧ Serves q .poke none tCase s ∧ dByte q.d 29 ≤ 11 ∧
     bound2Other q (dByte q.d 29) s = false) ∧
    (let q := tq 0x85 0 0 [(28, 7)]; let s0 := tOpen q (tRun); let s := begun q s0; starts q s0 = true ∧
     q.d.op = 0x85 ∧ dirty shOutSet q = false ∧ isSteward q s = true) := by
  refine ⟨?_, ?_, ?_, ?_, ?_, ?_, ?_, ?_⟩ <;> decide +kernel

theorem wit_JournalCommandsTakeEffect :
    (let q := tq 0x90 3 0 [(28, 1), (29, 40), (30, 20)]; let s0 := tOpen q (tRun); let s := begun q s0;
     starts q s0 = true ∧ q.d.op = 0x90 ∧ Serves q .poke none tCase s ∧ badControl q = false) ∧
    (let q := tq 0x95 3 0 [(32, 5)]; let s0 := tOpen q (tJnl id); let s := begun q s0; starts q s0 = true ∧
     q.d.op = 0x95 ∧ dirty shJnlMark q = false ∧ (getCase s 3).any jnlOn ∧ ∃ k, Serves q .poke none k s) ∧
    (let q := tq 0x94 3 0 []; let s0 := tOpen q (tJnl id); let s := begun q s0; starts q s0 = true ∧ q.d.op = 0x94 ∧
     dirty shCaseOnly q = false ∧ (getCase s 3).any (fun k => jnlOn k && k.jnl.asked.isNone)) ∧
    (let q := tq 0x94 3 0 []; let s0 := tOpen q (tRun); starts q s0 = true ∧ q.d.op = 0x94 ∧
     dirty shCaseOnly q = false ∧ jnlOn tCase = false) ∧
    (let q := tq 0x91 0 0 [(28, 2)]; let s0 := tOpen q (tRun); let s := begun q s0; starts q s0 = true ∧
     q.d.op = 0x91 ∧ isSteward q s = true ∧ dirty shJnlExport q = false ∧ dByte q.d 28 ≤ 2) ∧
    (let q := tq 0x92 0 8 [(29, 1), (32, 0)];
     let s0 := tOpen q ({ State.reset with jnl := { Journal.cold with head := 16, mode := 2 } });
     let s := begun q s0; starts q s0 = true ∧ q.d.op = 0x92 ∧ isSteward q s = true ∧
     dirty shJnlRead q = false ∧ q.io.bufOk = true ∧ jnlOldest s.jnl ≤ dW64 q.d 32 ∧
     (dByte q.d 29).testBit 0 = true ∧ s.jnl.mode = 2) ∧
    (let q := tq 0x92 0 8 [(32, 0)];
     let s0 := tOpen q ({ State.reset with jnl := { Journal.cold with head := 67108865 } });
     let s := begun q s0; starts q s0 = true ∧ q.d.op = 0x92 ∧ dirty shJnlRead q = false ∧
     (dByte q.d 29).testBit 0 = false ∧ jnlOldest Journal.cold ≤ dW64 q.d 32 ∧ dW64 q.d 32 < jnlOldest s.jnl) ∧
    (let q := tq 0x93 0 64 []; let s0 := tOpen q (tRun); starts q s0 = true ∧ q.d.op = 0x93 ∧
     dirty shJnlStatus q = false ∧ 64 ≤ q.d.length.toNat) ∧
    (let s := { tJnl (fun j => { j with drain := some (4, 1, none) }) with tiles := [(5, { tTile with ctl := { Ctl.cold with failSilent := true } })] };
     (getCase s 3).any (fun k => k.jnl.drain == some (4, 1, none) && k.jnl.gapFrom.isNone && jnlUnits k s == []) ∧
     s.jnl.stopped = false ∧ (jnlRecord s 3 0x0C 4 (leBytes 4 1 ++ leBytes 4 0)).jnl.stopped = false) := by
  refine ⟨?_, ?_, ?_, ?_, ?_, ?_, ?_, ?_, ?_⟩ <;> decide +kernel

theorem wit_JournalRecordsAreAppended :
    ((List.replicate 17 (0 : Byte)).length < 524000 ∧ (0x0E : Nat) < 256 ∧
     fieldAt (jnlBytes 0x0E 31 5 (List.replicate 17 0)) 2 2 = 4) ∧
    (Journal.cold.stopped = false ∧ jnlFits Journal.cold windowSize = true ∧
     (jnlAppend State.reset [1, 2]).jnl.head = 2 ∧ Memory.wf zeroes Journal.cold.window = true) := by
  refine ⟨?_, ?_⟩ <;> decide +kernel

theorem wit_ReplayAndShadowTakeEffect :
    (let k := { tCase with st := .paused }; let q := tReplay 4; let s0 := tOpen q (tHolds k); let s := begun q s0;
     starts q s0 = true ∧ q.d.op = 0x97 ∧ Serves q .poke none k s ∧ badReplayFields q = false ∧
     q.io.bufOk = true ∧ (tCkpt k q s).any (fun p => sameImage k p && p.n ≤ dW64 q.d 40)) ∧
    (let k := { tCase with st := .paused }; let q := tReplay 3; let s := begun q (tOpen q (tHolds k));
     badReplayFields q = false ∧ (tCkpt k q s).any (fun p => sameImage k p && dW64 q.d 40 < p.n) ∧
     (tCkpt { k with digest := List.replicate 16 1 } q s).any (fun p => !sameImage { k with digest := List.replicate 16 1 } p)) ∧
    (let q := { tq 0x96 30 0 [(28, 1), (29, 3), (30, 100)] with io := { dataA := [], dataB := 40 :: List.replicate 95 0xFF, bufOk := true, srcOk := true, recOk := true } };
     let s0 := tOpen q tRun; let s := begun q s0; starts q s0 = true ∧ isSteward q s = true ∧
     badShadow q s = false ∧ badShadowMap q s = false ∧ getCase s (dCase q.d) = none ∧
     (∀ m ∈ shadowMap q, inPool s m.2 = true) ∧
     (∀ r ∈ shadowRoles q s, rtState (roleEntry (hubBank s) r) = 0) ∧ placementBusy s = false) := by
  refine ⟨?_, ?_, ?_⟩ <;> decide +kernel

theorem wit_RecorderEventsTakeEffect :
    (let e : Ev := { time := 0, code := 0xC00, src := 6, arg := 0, held := false, kind := .plain };
     let s := { State.reset with rcd := { Recorder.blank with posted := [e] } };
     mayPost s.rcd.posted 0 = true ∧ s.dev.inReset = .none ∧ s.rcd.posted[0]? = some e ∧ e.kind = .plain ∧
     queueRoom s e = true ∧ neverLimited e.code.toNat = false ∧ 0 < (getBucket s e.code.toNat).tokens) ∧
    (neverLimited 0x0FF = true ∧ neverLimited 0xB00 = true ∧
     (getBucket { State.reset with rcd := { Recorder.blank with buckets := [(0xC00, { Bucket.start with tokens := 0 })] } } 0xC00).tokens = 0) ∧
    (let e : Ev := { time := 0, code := 0xC00, src := 6, arg := 0, held := false, kind := .plain };
     let s := { State.reset with rcd := { Recorder.blank with queue := [{ ev := e, writeOk := true }], free := 1 } };
     e.kind = .plain ∧ s.dev.inReset = .none ∧ s.dev.now.toNat < s.rcd.free.toNat ∧
     (modDev s (fun d => { d with now := 1 })).rcd.free.toNat ≤ 1) ∧
    ((∀ p ∈ Recorder.blank.notify, p.2.getLsbD 5 = false) ∧ Recorder.blank.next + 1 < 524288 ∧
     Recorder.blank.counts.wrap = 0) ∧
    (let s := { State.reset with dev := { Device.cold with now := 2 ^ 40 }, rcd := { Recorder.blank with buckets := [(0xC00, { Bucket.start with running := true, tokens := 31 })] } };
     (getBucket s 0xC00).running = true ∧ (getBucket s 0xC00).suppressed = 0 ∧
     (getBucket s 0xC00).since.toNat + (getBucket s 0xC00).period * 1000000 ≤ s.dev.now.toNat) ∧
    (let s := { State.reset with dev := { Device.cold with now := 2 ^ 20 }, rcd := { Recorder.blank with ringDue := 2 ^ 20 } };
     s.dev.inReset ≠ .cold ∧ s.rcd.ringDue.toNat ≤ s.dev.now.toNat) ∧
    (let b : DesignBind := { case_ := 3, tile := 5, src := 7, code := 0xC00 };
     let n : EdgeNote := { sink := .design 7, at_ := 0 };
     let s := { tS (fun x => { x with edges := [n] }) id with dev := { Device.cold with now := 11 }, rcd := { Recorder.blank with design := [b] } };
     dueEdge s 5 true (· == .design (7 : BitVec 12).toNat) = some n ∧ s.rcd.design = [b] ∧ b.tile = 5 ∧
     b.src = 7) := by
  refine ⟨?_, ?_, ?_, ?_, ?_, ?_, ?_⟩ <;> decide +kernel

theorem wit_RecorderDescriptorsTakeEffect :
    (let q := tq 0xA0 0 16 [(32, 0), (40, 1)];
     let s0 := tOpen q ({ State.reset with rcd := { Recorder.blank with next := 1 } }); let s := begun q s0;
     starts q s0 = true ∧ q.d.op = 0xA0 ∧ dirty shRecRead q = false ∧ 1 ≤ dW32 q.d 40 ∧ dW32 q.d 40 ≤ 524288 ∧
     16 * dW32 q.d 40 ≤ q.d.length.toNat ∧ recSeq s.rcd ≠ 0) ∧
    (let q := tq 0xA1 0 64 []; let s0 := tOpen q ({ State.reset with rcd := { Recorder.blank with next := 1 } });
     let s := begun q s0; starts q s0 = true ∧ q.d.op = 0xA1 ∧ dirty shCopy q = false ∧ 64 ≤ q.d.length.toNat ∧
     recSeq s.rcd ≠ 0) ∧
    (let q := tq 0xA2 0 0 [(32, 2 ^ 64 - 1)]; let s0 := tOpen q (State.reset); let s := begun q s0;
     starts q s0 = true ∧ q.d.op = 0xA2 ∧ dirty shRecTime q = false ∧ isSteward q s = true) ∧
    (let q := tq 0xA3 0 0 [(28, 0xE00), (32, 5)]; let s0 := tOpen q (State.reset); starts q s0 = true ∧
     q.d.op = 0xA3 ∧ dirty shRecPost q = false ∧ 0xE00 ≤ dW16 q.d 28 ∧ dW16 q.d 28 ≤ 0xFFF) ∧
    (let q := tq 0xA4 0 0 [(28, 0xFFF), (30, 1), (32, 1)]; let s0 := tOpen q (State.reset); let s := begun q s0;
     starts q s0 = true ∧ q.d.op = 0xA4 ∧ isSteward q s = true ∧ dirty shRecLimit q = false ∧
     dW16 q.d 28 ≤ 0xFFF ∧ neverLimited (dW16 q.d 28) = false ∧ dByte q.d 30 ≠ 0 ∧ dW16 q.d 32 ≠ 0) ∧
    (let q := tq 0xA5 0 0 [(28, 0), (30, 0xFFF), (32, 12), (34, 1)]; let s0 := tOpen q (tRings);
     let s := begun q s0; starts q s0 = true ∧ q.d.op = 0xA5 ∧ dirty shRecNotify q = false ∧
     dW16 q.d 28 ≤ dW16 q.d 30 ∧ dW16 q.d 30 ≤ 0xFFF ∧ (dByte q.d 34).testBit 0 = true ∧
     (mfind s.hif.rings (dW16 q.d 32)).any (fun r => r.owner == q.host && r.kind == .event)) ∧
    (let q := tq 0xA6 3 0 [(28, 5), (30, 0xDFF), (32, 0xFFF)]; let s0 := tOpen q (tRun); let s := begun q s0;
     starts q s0 = true ∧ q.d.op = 0xA6 ∧ NamesTile q tCase ∧ Serves q .poke (some (dByte q.d 28)) tCase s ∧
     dirty shRecDesign q = false ∧ 0xC00 ≤ dW16 q.d 30 ∧ dW16 q.d 30 ≤ 0xDFF ∧ dW16 q.d 32 ≤ 0xFFF ∧
     badSrcCode (dW16 q.d 32) = false ∧ s.rcd.design = []) := by
  refine ⟨?_, ?_, ?_, ?_, ?_, ?_, ?_⟩ <;> decide +kernel

theorem wit_PacketEventsTakeEffect :
    (let p := tPacket 0x10 255 9 []; senderOk tRun 0 (stampEpoch (getTile tRun 0).net p).hdr = true ∧
     (getTile tRun 0).dom.tk = .on) ∧
    (let p := tPacket 0x10 7 9 []; senderOk tRun 5 (stampEpoch (getTile tRun 5).net p).hdr = false ∧
     (getTile tRun 5).net.staleAt = none) ∧
    (let s := tRun; (getTile s 95).dom.tk = .on ∧ (getTile s (neighbour 95 (3 : Fin 4))).dom.tk = .on ∧
     (getTile s 95).net.down.getLsbD 3 = false ∧ arriving s 95 3 = none) ∧
    (let s := tPacketAt; (arriving s 5 1).isSome = true ∧ (getTile s 5).dom.tk = .on ∧
     (getTile s (neighbour 5 1)).dom.tk = .on ∧ (getTile s 5).net.down.getLsbD 1 = false ∧
     (mget (0, 0) (getTile s 5).net.crcFails 1).1 < 2) ∧
    (let s := modNet tPacketAt 5 (fun r => { r with crcFails := [(1, (2, ((arriving tPacketAt 5 1).map (·.key)).getD 0))] });
     (arriving s 5 1).isSome = true ∧ 2 ≤ (mget (0, 0) (getTile s 5).net.crcFails 1).1) ∧
    (hasService 95 = true ∧ (getTile tRun 95).dom.tk = .on ∧ (getTile tRun 95).net.down.getLsbD 4 = false) ∧
    (let p := tPacket 0x26 255 9 (BitVec.ofNat 8 (statusCode .shuttered) :: List.replicate 63 0);
     hdrType p.hdr = 0x26 ∧ byteAt p.data 0 = statusCode .shuttered) ∧
    (let p := tPacket 0x26 255 9 (BitVec.ofNat 8 (statusCode .roleMoved) :: List.replicate 63 0);
     hdrType p.hdr = 0x26 ∧ byteAt p.data 0 = statusCode .roleMoved ∧
     State.reset.hif.retried.contains 0 = false ∧ [0].contains 0 = true ∧
     keptOk (BitVec.ofNat 64 (fieldAt p.data 8 8)) p (List.replicate 64 0) = true) ∧
    (let p := tPacket 0x27 255 5 []; hdrType p.hdr = 0x27 ∧ hdrDst p.hdr = (5 : TileId).val ∧
     (getTile tRun 5).dom.tk = .on) ∧
    (let q := tq 0xB2 5 0 [(28, 9), (30, 1)]; let p := tPacket 0x28 9 255 (List.replicate 64 0);
     let s := modHub tRun (fun h => { h with probes := [q] }); hdrType p.hdr = 0x28 ∧ s.hub.probes = q :: [] ∧
     q.seq = fieldAt p.data 0 8) := by
  refine ⟨?_, ?_, ?_, ?_, ?_, ?_, ?_, ?_, ?_, ?_⟩ <;> decide +kernel

theorem wit_PortsAndRoutes :
    (Shut.closing ≠ .open_ ∧ (0 : Fin 96) ≠ 95 ∧ routePort (fun _ => false) 0 95 = some 1) := by
  decide +kernel

theorem wit_EpochAndShutterEventsTakeEffect :
    (let s := tEpoch .updating id; s.hub.epoch.any (fun e => e.stage == .updating && !e.written.getLsbD 95) ∧
     (getTile s 95).dom.tk = .on) ∧
    ((tEpoch .updating (fun e => { e with written := 1 })).hub.epoch.any (fun e => e.stage == .updating && e.written.getLsbD 0 && !e.acked.getLsbD 0)) ∧
    ((tEpoch .switching id).hub.epoch.any (fun e => e.stage == .switching && !e.switched.getLsbD 0)) ∧
    (let s := tEpoch .switching (fun e => { e with switched := 1 });
     s.hub.epoch.any (fun e => e.stage == .switching && e.switched.getLsbD 0 && !e.switchAcked.getLsbD 0) ∧
     s.cases = []) ∧
    ((tEpoch .draining id).hub.epoch.any (fun e => e.stage == .draining && (mfind e.reports 0).isNone)) ∧
    (let s := tEpoch .draining (fun e => { e with reports := [(0, (1, 1))] });
     s.hub.epoch.any (fun e => (mfind e.reports 0).isSome && !e.asked.getLsbD 0 && !allIn (poweredRouters s) (setBit e.asked 0 true))) ∧
    (let s := tEpoch .draining (fun e => { e with asked := BitVec.allOnes 96 - 1, reports := [(0, (1, 1))] });
     s.hub.epoch.any (fun e => !e.asked.getLsbD 0 && allIn (poweredRouters s) (setBit e.asked 0 true) && reportsEqual e)) ∧
    (let s := tEpoch .draining (fun e => { e with asked := BitVec.allOnes 96 - 1, reports := [(0, (1, 2))] });
     s.hub.epoch.any (fun e => allIn (poweredRouters s) (setBit e.asked 0 true) && !reportsEqual e)) ∧
    (getShut tRun (.tile 5) = .open_ ∧ getShut tRun (.service 3) = .open_ ∧ getShut State.reset (.tile 0) = .shut) ∧
    (let s := tF (fun x => { x with net := { x.net with shut := .closing } }); getShut s (.tile 5) = .closing ∧
     shutterFence s (.tile 5) = true ∧ (getTile s 5).net.stalled = false) ∧
    (let s := tF (fun x => { x with net := { x.net with shut := .closing, injectQ := [tPacket 0 0 0 []] } });
     getShut s (.tile 5) = .closing ∧ shutterFence s (.tile 5) = false) ∧
    (getShut (tF (fun x => { x with net := { x.net with shut := .opening } })) (.tile 5) = .opening) ∧
    (let s := tNet (svcTile 3) (fun r => { r with svcShut := .closing }); getShut s (.service 3) = .closing ∧
     shutterFence s (.service 3) = true ∧ (getTile s (svcTile 3)).net.svcStalled = false) := by
  refine ⟨?_, ?_, ?_, ?_, ?_, ?_, ?_, ?_, ?_, ?_, ?_, ?_, ?_⟩ <;> decide +kernel

theorem wit_NetworkDescriptorsTakeEffect :
    (let q := tq 0xB0 95 64 []; let s0 := tOpen q (tRun); let s := begun q s0; starts q s0 = true ∧ q.d.op = 0xB0 ∧
     netTile q ≤ 95 ∧ netBusy q s = false ∧ dirty shRouterStatus q = false ∧ 64 ≤ q.d.length.toNat ∧
     (dByte q.d 29).testBit 0 = false) ∧
    (let q := tq 0xB0 0 64 [(29, 1)]; let s0 := tOpen q (tRun); let s := begun q s0; starts q s0 = true ∧
     q.d.op = 0xB0 ∧ netBusy q s = false ∧ dirty shRouterStatus q = false ∧ (dByte q.d 29).testBit 0 = true ∧
     isSteward q s = true ∧ isSteward { q with host := 7 } s = false) ∧
    (let q := tq 0xB1 5 2048 [(29, 1), (30, 0), (32, 256)]; let s0 := tOpen q (tRun); let s := begun q s0;
     starts q s0 = true ∧ q.d.op = 0xB1 ∧ netBusy q s = false ∧ dirty shRoleRead q = false ∧ dByte q.d 29 ≤ 1 ∧
     1 ≤ dW16 q.d 32 ∧ dByte q.d 30 + dW16 q.d 32 ≤ 256 ∧ 8 * dW16 q.d 32 ≤ q.d.length.toNat) ∧
    (let q := tq 0xB2 5 0 [(28, 95), (30, 3)]; let s0 := tOpen q (tRun); let s := begun q s0; starts q s0 = true ∧
     q.d.op = 0xB2 ∧ isSteward q s = true ∧ netBusy q s = false ∧
     dirty (netShape false false [(28, 1), (30, 1)]) q = false ∧ dByte q.d 28 ≤ 95 ∧ 1 ≤ dByte q.d 30 ∧
     dByte q.d 30 ≤ 3) ∧
    (let q := tq 0xB3 5 0 [(29, 3)]; let s0 := tOpen q (tRun); let s := begun q s0; starts q s0 = true ∧
     q.d.op = 0xB3 ∧ isSteward q s = true ∧ netBusy q s = false ∧
     dirty (netShape false false [(29, 1)]) q = false ∧ dByte q.d 29 ≤ 3) := by
  refine ⟨?_, ?_, ?_, ?_, ?_⟩ <;> decide +kernel

theorem wit_PowerDescriptorsTakeEffect :
    (let q := tq 0xA8 3 0 []; let s0 := tOpen q (tRun); let s := begun q s0; starts q s0 = true ∧ q.d.op = 0xA8 ∧
     notAllowed q .poke s = false ∧ dirty shPwrState q = false ∧ dByte q.d 28 ≤ 2 ∧ pwrBusy q s = false ∧
     pwrShut q s = false ∧ pwrTarget q = tCase.pwr ∧ tCase.pwrWant = []) ∧
    (let q := tq 0xA8 3 0 [(28, 2)]; let s0 := tOpen q (tRun); let s := begun q s0; starts q s0 = true ∧
     q.d.op = 0xA8 ∧ dirty shPwrState q = false ∧ pwrBusy q s = false ∧ pwrShut q s = false ∧
     pwrTarget q ≠ .run ∧ pwrTarget q ≠ tCase.pwr ∧ tCase.pwr ≠ .hold ∧ tCase.st = .running) ∧
    (let q := tq 0xA8 3 0 [(28, 1)]; let s0 := tOpen q (tS id (fun k => { k with st := .paused }));
     let s := begun q s0; starts q s0 = true ∧ q.d.op = 0xA8 ∧ pwrBusy q s = false ∧ pwrShut q s = false ∧
     pwrTarget q = .doze ∧ (getCase s 3).any (fun k => k.pwr == .run && k.pwrWant.isEmpty && k.st != .running)) ∧
    (let q := tq 0xA8 3 0 [(28, 2)]; let s0 := tOpen q (tS id (fun k => { k with st := .paused }));
     let s := begun q s0; starts q s0 = true ∧ q.d.op = 0xA8 ∧ pwrBusy q s = false ∧ pwrShut q s = false ∧
     pwrTarget q = .hold) ∧
    (let q := tq 0xA8 3 0 []; let s0 := tOpen q (tS id (fun k => { k with pwr := .hold, st := .paused }));
     let s := begun q s0; starts q s0 = true ∧ q.d.op = 0xA8 ∧ pwrBusy q s = false ∧ pwrShut q s = false ∧
     pwrTarget q = .run ∧ (getCase s 3).any (fun k => k.pwr == .hold && !k.wake)) ∧
    (let q := tq 0xA9 0 0 [(32, 5)]; let s0 := tOpen q (tRun); let s := begun q s0; starts q s0 = true ∧
     q.d.op = 0xA9 ∧ isSteward q s = true ∧ dirty shPwrSleep q = false ∧ placementBusy s = false ∧
     (∀ p ∈ s.cases, p.2.isolated = false) ∧ (∃ p ∈ s.cases, p.2.st = .running) ∧
     (∀ p ∈ State.reset.cases, p.2.st ≠ .running)) ∧
    (let q := tq 0xAA 0 0 [(28, 2)]; let s0 := tOpen q (State.reset); let s := begun q s0; starts q s0 = true ∧
     q.d.op = 0xAA ∧ isSteward q s = true ∧ dirty shPwrReset q = false ∧ dByte q.d 28 = 2 ∧ dByte q.d 30 = 0) ∧
    (let q := tq 0xAA 0 0 [(28, 6), (30, 95)]; let s0 := tOpen q (State.reset); let s := begun q s0;
     starts q s0 = true ∧ q.d.op = 0xAA ∧ dirty shPwrReset q = false ∧ dByte q.d 28 = 6 ∧
     resettable s (dByte q.d 30) = true ∧ testBusy s (dByte q.d 30) = false) ∧
    (let q := tq 0xAB 0 128 []; let s0 := tOpen q (tRun); starts q s0 = true ∧ q.d.op = 0xAB ∧
     dirty shPwrStatus q = false ∧ 128 ≤ q.d.length.toNat) := by
  refine ⟨?_, ?_, ?_, ?_, ?_, ?_, ?_, ?_, ?_⟩ <;> decide +kernel

theorem wit_LowPowerEventsTakeEffect :
    ((getCase (tS id (fun k => { k with pwr := .doze, wake := true, pwrFrom := .running, st := .paused })) 3).any (fun k => k.pwr == .doze && k.wake && !holdNext k && k.pwrFrom == .running) ∧
     tRun.dev.sleep = .awake) ∧
    (let s := tS id (fun k => { k with st := .paused, pwrWant := [(.hold, tq 0xA8 3 0 [(28, 2)])] });
     (getCase s 3).any (fun k => !k.entering && holdNext k && k.st == .paused && k.pwr != .hold && allShut (holdBegin s 3 k) (tilesOf k.region))) ∧
    (let s := tS (fun x => { x with net := { x.net with injectQ := [tPacket 0 0 0 []] } }) (fun k => { k with st := .paused, pwrWant := [(.hold, tq 0xA8 3 0 [(28, 2)])] });
     (getCase s 3).any (fun k => holdNext k && !allShut (holdBegin s 3 k) (tilesOf k.region))) ∧
    (let s := tS (fun x => { x with net := { x.net with shut := .shut } }) (fun k => { k with st := .paused, entering := true });
     (getCase s 3).any (fun k => k.entering && allShut s (tilesOf k.region)) ∧
     allShut (tS (fun x => { x with net := { x.net with injectQ := [tPacket 0 0 0 []] } }) id) [5] = false) ∧
    ((getCase (tS id (fun k => { k with pwr := .hold, wake := true })) 3).any (fun k => k.pwr == .hold && k.wake && k.startUp.isNone) ∧
     (getCase (tS id (fun k => { k with pwr := .hold, wake := true, startUp := some 0 })) 3).any (fun k => k.pwr == .hold && k.startUp == some 0)) ∧
    (routesThrough (tS id (fun k => { k with st := .paused })) 5 = false) ∧
    (let s := { State.reset with dev := { Device.cold with sleep := .entering, alarm := 9, now := 100000 } };
     s.dev.sleep = .entering ∧ s.dev.sleep ≠ .awake ∧ s.dev.sleepAt.toNat + 100000 ≤ s.dev.now.toNat ∧
     s.dev.wake = false ∧ s.dev.alarm ≠ 0 ∧ s.dev.alarm.toNat ≤ s.dev.now.toNat) ∧
    (let s := { State.reset with dev := { Device.cold with sleep := .asleep, wake := true } };
     s.dev.sleep = .asleep ∧ s.dev.wake = true) ∧
    ((getTile tRun 5).dom.io = .on ∧ (getTile tRun 5).pin.vioLost = false) := by
  refine ⟨?_, ?_, ?_, ?_, ?_, ?_, ?_, ?_, ?_⟩ <;> decide +kernel

theorem wit_DeviceResetsTakeEffect :
    (let s := { State.reset with dev := { Device.cold with resetDue := some 7, now := 7 } }; s.dev.inReset ≠ .cold ∧
     s.dev.resetDue = some 7 ∧ (7 : Time).toNat ≤ s.dev.now.toNat ∧ s.dev.inReset = .none) ∧
    (brownOutAt .vaux ≤ 5000 ∧ 0 < brownOutAt .vaux ∧ (Supply.vaux = .vaux) ∧ 0 < brownOutAt .vcore ∧
     Supply.vcore ≠ .vaux ∧ State.reset.dev.inReset ≠ .cold) ∧
    ({ Device.cold with inReset := .pin }.inReset = .pin ∧ { Device.cold with inReset := .cold }.inReset = .cold ∧
     { Device.cold with inReset := .device }.resetUntil.toNat ≤ Device.cold.now.toNat) := by
  refine ⟨?_, ?_, ?_⟩ <;> decide +kernel

theorem wit_CommandsLeaveTheQueue :
    (let q := tq 0x00 0 0 []; (tAfter (.nop q) (tOpen q tRun)).pending = (tOpen q tRun).pending) := by
  decide +kernel

theorem wit_LocksLastUntilReset :
    ((tPins (1 <<< 60)).dev.locks.getLsbD 60 = true) := by
  decide +kernel

theorem wit_KeySlotsOnlyGrow :
    (let s := { State.reset with dev := { Device.cold with keys := [(3, tKey true)] } };
     (keySlot s 3).programmed = true ∧ (keySlot s 3).revoked = true) := by
  decide +kernel

theorem wit_StoresStayCanonical : storesOk tRun := by
  refine ⟨?_, by decide +kernel⟩
  intro p hp
  obtain rfl : p = (5, tTile) := by simpa [tRun, tS] using hp
  exact ⟨by decide +kernel, by decide +kernel, by decide +kernel, by decide +kernel, by decide +kernel, by decide +kernel,
    by rintro z (h | h) <;> cases h⟩

/-- The records name this device, whatever its serial number is (LoaderDescriptorsTakeEffect, the key descriptors). -/
theorem wit_key_records :
    badKeyRecord 1 (tKeyRec 1 3) = false ∧ badKeyRecord 2 (tKeyRec 2 3) = false ∧
    fieldAt (tKeyRec 1 3) 64 200 = 0 ∧ byteAt (tKeyRec 2 3) 1 = 3 := by
  have e : ∀ v : Nat, v < 2 ^ 64 → leNat (leBytes 8 v) = v := by
    intro v hv
    simp only [leBytes, leNat, BitVec.toNat_ofNat]
    omega
  have f : ∀ r : List Byte, slice r 8 8 = leBytes 8 Config.serial.toNat → fieldAt r 8 8 = Config.serial.toNat := by
    intro r h
    rw [fieldAt, h, e _ Config.serial.isLt]
  have g1 := f (tKeyRec 1 3) rfl
  have g2 := f (tKeyRec 2 3) rfl
  refine ⟨?_, ?_, by decide +kernel, by decide +kernel⟩
  · simp only [badKeyRecord, g1, bne_self_eq_false]; decide +kernel
  · simp only [badKeyRecord, g2, bne_self_eq_false]; decide +kernel

/-! ### Well-formed commands -/

def tShort : Packet := { hdr := 0, data := [0] }

/-- Each check of Instr.wellFormed refuses an ill-formed command. -/
theorem test_ill_formed_refused :
    [Instr.bundleArrival 0 tShort, .packetInject 0 tShort, .bounce 0 tShort none [], .probe 0 tShort, .probeReply tShort 0,
     .probe 0 { hdr := 0, data := List.replicate 576 0 },
     .flitReceive 0 (.service { hdr := 0, data := [0], vc := 0, cls := 0, last := true }) true,
     .registerWrite 0 4 true 0, .registerWrite 0 2 false 0,
     .doorbellPoll 0 { mem := [(0, List.replicate 1025 0)], noFetch := [], noWrite := [] },
     .reservedOpcode 0xB3 (tq 0xB3 0 0 []), .reservedOpcode 0xB4 (tq 0xB5 0 0 []), .nop (tq 0x01 0 0 []),
     .resetEnd 0 [], .sleepWake [], .holdExit 0 [], .bspLinkUp [],
     .fabricRamPortAAccess 0 0 [(4096, 0)] false none].all (fun i => !i.wellFormed) = true := by decide +kernel

theorem test_well_formed :
    [Instr.bundleArrival 0 { hdr := 0, data := List.replicate 512 0 }, .registerWrite 0 4 false 0, .nop (tq 0x00 0 0 []),
     .doorbellPoll 0 { mem := [(0, List.replicate 8 0), (0x400, List.replicate 1024 0)], noFetch := [none], noWrite := [] },
     .reservedOpcode 0xB4 (tq 0xB4 0 0 []), .resetEnd 0 (List.replicate 96 1), .bspLinkUp (List.replicate 8 []),
     .fabricRamPortAAccess 0 0 [(4095, 0)] false none].all Instr.wellFormed = true := by decide +kernel

/-- The operation table gives no row any bits, so no word spells a command. -/
theorem test_no_word_spells_a_command :
    Sys2Proof.decodeTableWord 64 0 = none ∧ State.reset.withFetchWord 8 0xFF = State.reset := ⟨rfl, rfl⟩

/-! ### Examples of the manual -/

/-- Opcodes at the ends of the ranges that the chapters list (R294). -/
theorem test_reserved_opcodes : reservedOp 0x08 = true ∧ reservedOp 0x07 = false ∧ reservedOp 0xB3 = false ∧ reservedOp 0xB4 = true := by
  decide +kernel

/-- spec/05_pins.md after R141: word 0x28 with mask 0x038 sets pins 3 and 5 and clears pin 4 of tile 20, and no other. -/
theorem test_pin_window_store :
    let s := modPin State.reset 20 (fun y => { y with outLatch := 0xF10 })
    (getTile (tAfter (.pinWindowStore 20 0x038 0x28) s) 20).pin.outLatch = 0xF28 := by decide +kernel

/-- spec/05_pins.md after R142: the two writes that lock DIO_17_6, pin index 210. -/
theorem test_pin_lock_example :
    let s := tAfter (.pinLockWrite 17 0x00D2A5A5) (tAfter (.pinLockWrite 17 0x00D25A5A) State.reset)
    s.dev.locks = 1 <<< 210 := by decide +kernel

/-- spec/08_comparators_timers.md after R202: with word 0 of 0x0487_B851, CMP3 rises above 1.10785 V and falls below 1.09185 V
against 1.250 V. -/
theorem test_comparator_example :
    let x := cfgWrite Tile.cold 0x22 24 4 0x0487B851
    cmpDecide x 3 1107860000 1250000000 (cmpHyst x 3) = some true ∧ cmpDecide x 3 1107840000 1250000000 (cmpHyst x 3) = none ∧
    cmpDecide x 3 1091840000 1250000000 (cmpHyst x 3) = some false := by decide +kernel

/-- spec/09_calibration.md after R226: the coefficient word 0x014C_05DB of the terry loom, and the corrected codes. -/
theorem test_calibration_example :
    let lo : CapPoint := { entry := 0, sum := 48456704, n := 4096, min := 11800, max := 11860, ideal := 11796 }
    let hi : CapPoint := { entry := 0, sum := 61811712, n := 4096, min := 15060, max := 15120, ideal := 15073 }
    calJudge CalBlock.factory lo hi = (0, 0x014C05DB) := by decide +kernel

/-- spec/10_network.md after R237: 7 hops from tile 5 to tile 95, and in X the tie goes to +X. -/
theorem test_route_example :
    hopsTo Bank.cold 95 18 5 = 7 ∧ neighbour 5 ((routePort (fun _ => false) 5 95).getD 4) = 6 := by decide +kernel

/-- spec/12_bulk_stream.md after R313: the tokens of the pick frame. -/
theorem test_pattern_example :
    (match decodeTokens 2560 [0x63, 0x83, 0x10, 0x00, 0x0F, 0x00, 0xC0, 0x97, 0x09] with
    | .ok l => l == List.replicate 100 0 ++ [0x10, 0x00, 0x0F, 0x00] ++ List.replicate 2456 0
    | .error _ => false) = true := by decide +kernel

/-- spec/15_replay.md after R385: the input record of the pick index pulse. -/
theorem test_journal_example :
    jnlBytes 0x04 3 0x4C4B40 [0x11, 0x02, 0, 0, 0, 0, 0, 0, 2, 0, 0, 0, 0, 0, 0, 0] =
      [0x04, 0x03, 0x03, 0x00, 0x40, 0x4B, 0x4C, 0x00, 0x11, 0x02, 0, 0, 0, 0, 0, 0, 0x02, 0, 0, 0, 0, 0, 0, 0] := by
  decide +kernel

/-- spec/16_event_recorder.md after R404: wrap count 37 and slot 120,000. -/
theorem test_sequence_number_example :
    recSeq { Recorder.blank with next := 120000, counts := { RecBlock.zero with wrap := 37 } } = 19518656 := by decide +kernel

/-- R281, R295: NOP completes with status OK and the device time at once, in the admin completion ring. -/
theorem test_nop_completes :
    let s := modHost State.reset 0 (fun x => { x with
      active := true, adminSq := some { Ring.fresh .submission 0 4 0x1000 0 with inflight := [0] },
      adminCq := some { Ring.fresh .completion 0 4 0x2000 1 with reserved := 1 } })
    (tAfter (.nop (tq 0x00 0 0 [])) (tOpen (tq 0x00 0 0 []) (modDev s (fun d => { d with now := 5 })))).hif.writes =
      [HostWrite.mk 0 0x2000 [9, 0, 0, 0, 0, 1, 0xFF, 0xFF, 5, 0, 0, 0, 0, 0, 0, 0]] := by decide +kernel

/-- spec/18_electrical_package.md after R446 and R451: the ball names of the text's examples, and the number of VSS balls. -/
theorem test_package_example :
    ballAt 10 25 = .dio 17 6 ∧ ballName 10 25 = "K25" ∧ ballAt 19 29 = .ain 30 2 ∧ ballName 19 29 = "Y29" ∧
    ballCount (· == .vss) = 267 := by decide +kernel


end Sys2Proof.Tests
end

section
/-! ### Corrected codes (R221, R222)

The model reads OFS16 and GQ as two's-complement fields of a natural number and clamps to natural codes; R222 is over the
integers. Each of those two readings is one lemma, and the formula follows by rewriting with them. -/

namespace Sys2Proof.Calibration

open Sys2Proof Sys2Proof.Machine

/-- A two's-complement field of a number is the signed value of the word that holds its bits. -/
theorem signed_toNat {n : Nat} (x : BitVec (n + 1)) : signed (n + 1) x.toNat = x.toInt := by
  have sign_clear_iff : x.toNat < 2 ^ n ↔ 2 * x.toNat < 2 ^ (n + 1) := by omega
  simp only [signed, Nat.add_sub_cancel, BitVec.toInt_eq_toNat_cond, sign_clear_iff, Nat.cast_pow, Nat.cast_ofNat]

/-- A record's field of `n` bits from bit `lo` of a word, as a word of its own. -/
theorem recBits_toNat {k : Nat} (w : BitVec k) (lo n : Nat) :
    recBits w.toNat lo n = (BitVec.setWidth n (w >>> lo)).toNat := by
  simp only [recBits, bitsOf, BitVec.toNat_setWidth, BitVec.toNat_ushiftRight, Nat.shiftRight_eq_div_pow]

/-- The signed field of a coefficient word at bit `lo` (R221). -/
theorem signed_recBits_toNat {k : Nat} (w : BitVec k) (lo n : Nat) :
    signed (n + 1) (recBits w.toNat lo (n + 1)) = (BitVec.setWidth (n + 1) (w >>> lo)).toInt := by
  rw [recBits_toNat, signed_toNat]

/-- The clamp to the 14-bit codes, as R169 and R222 write it over the integers. -/
theorem coe_clampCode (v : Int) : (clampCode v : Int) = max 0 (min 16383 v) := by
  unfold clampCode
  split
  case isTrue negative => omega
  case isFalse nonneg => omega

/-- Settles O31: both fields of the coefficient word and the clamp, read over the integers. -/
theorem correctedCodeFormula : Obligations.CorrectedCodeFormula := by
  intro w r
  have offset : signed 16 (recBits w.toNat 0 16) = (BitVec.setWidth 16 w).toInt := by
    rw [signed_recBits_toNat w 0 15, BitVec.ushiftRight_zero]
  have gain : signed 16 (recBits w.toNat 16 16) = (BitVec.setWidth 16 (w >>> 16)).toInt :=
    signed_recBits_toNat w 16 15
  simp only [correctedCode, coe_clampCode, offset, gain, Nat.cast_ofNat]

end Sys2Proof.Calibration
end

section
/-! ### What every operation of the model keeps

The queue, the canonical form of the stores, the growth of the key slots and, resets of the device apart, the pin locks.
One lemma per operation, in the order of the model, each from those of the operations that it uses. -/

namespace Sys2Proof.Frame

open Sys2Proof Sys2Proof.Machine

-- Hundreds of short proofs, each waiting for a thread of its own, are too many threads for the check.
set_option Elab.async false

/-- A key slot that is programmed keeps its hash and stays programmed; one that is revoked stays revoked. -/
def SlotGrows (k l : KeySlot) : Prop :=
  k.programmed = true → l.programmed = true ∧ l.hash = k.hash ∧ (k.revoked = true → l.revoked = true)

/-- What leads from `s` to `t` keeps the queue and the canonical form of the stores, lets key slots only grow, and, where
`lk` holds, keeps the pin locks. -/
structure Keeps (lk : Prop) (s t : State) : Prop where
  pending : t.pending = s.pending
  locks : lk → ∀ n, s.dev.locks.getLsbD n = true → t.dev.locks.getLsbD n = true
  keys : ∀ n, SlotGrows (keySlot s n) (keySlot t n)
  stores : storesOk s → storesOk t

variable {lk : Prop} {a s : State}

theorem SlotGrows.refl (k : KeySlot) : SlotGrows k k := fun h => ⟨h, rfl, id⟩

theorem SlotGrows.trans {k l m : KeySlot} (h : SlotGrows k l) (g : SlotGrows l m) : SlotGrows k m := by
  intro hk
  obtain ⟨hl, hhash, hrev⟩ := h hk
  obtain ⟨hm, ghash, grev⟩ := g hl
  exact ⟨hm, ghash.trans hhash, grev ∘ hrev⟩

theorem Keeps.refl (lk : Prop) (s : State) : Keeps lk s s := ⟨rfl, fun _ _ h => h, fun _ => .refl _, id⟩

theorem Keeps.trans {b : State} (h : Keeps lk a s) (g : Keeps lk s b) : Keeps lk a b :=
  ⟨g.pending.trans h.pending, fun l n x => g.locks l n (h.locks l n x), fun n => (h.keys n).trans (g.keys n),
    fun x => g.stores (h.stores x)⟩

/-- Changes of casements, the host interface, the stream port, the loader, the hub and the recorder. -/
theorem Keeps.of_same {t : State} (h : Keeps lk a s) (hp : t.pending = s.pending) (hd : t.dev = s.dev)
    (ht : t.tiles = s.tiles) (hj : t.jnl = s.jnl) : Keeps lk a t :=
  h.trans ⟨hp, fun _ _ h => hd ▸ h, fun _ => by simp only [keySlot, hd]; exact .refl _,
    fun ⟨tiles, window⟩ => ⟨ht ▸ tiles, hj ▸ window⟩⟩

/-- The stores of a Boolean-processor state are in canonical form. -/
def bpStoresOk (b : BpState) : Prop :=
  Memory.wf zeroes b.emem = true ∧ Memory.wf zeroes b.initBank.emem = true ∧ Memory.wf zeroes b.initRam = true ∧
  (∀ z : Snap, b.holdBank = some z ∨ b.ckptBank = some z → Memory.wf zeroes z.emem = true)

theorem tileStoresOk_iff (x : Tile) : tileStoresOk x ↔
    Memory.wf cfgCold x.cfg = true ∧ Memory.wf cfgCold x.img = true ∧ bpStoresOk x.bp ∧ Memory.wf zeroes x.fab.ram = true := by
  unfold tileStoresOk bpStoresOk; tauto

theorem mem_mset {α : Type} {m : Map α} {k : Nat} {v : α} {p : Nat × α} (h : p ∈ mset m k v) : p ∈ m ∨ p = (k, v) := by
  induction m with
  | nil => simpa [mset] using h
  | cons q r ih => grind [mset]

theorem tileStoresOk_cold : tileStoresOk Tile.cold := by
  simp [tileStoresOk, Tile.cold, BpState.cold, FabState.cold, Snap.empty, Memory.wf, memWfFrom]

theorem tileStoresOk_getTile (h : storesOk s) (t : Nat) : tileStoresOk (getTile s t) := by
  obtain ⟨h, -⟩ := h
  unfold getTile
  generalize s.tiles = m at h
  induction m with
  | nil => exact tileStoresOk_cold
  | cons q r ih => grind [mget]

theorem Keeps.tile (h : Keeps lk a s) (t : Nat) (ok : storesOk a) : tileStoresOk (getTile s t) :=
  tileStoresOk_getTile (h.stores ok) t

/-- Setting one tile to a tile whose stores are canonical wherever all stores of the machine are. -/
theorem keeps_setTile (h : Keeps lk a s) (t : Nat) (x : Tile) (hx : storesOk a → tileStoresOk x) :
    Keeps lk a (setTile s t x) :=
  ⟨h.pending, h.locks, h.keys, fun ok => ⟨fun p hp => (mem_mset hp).elim ((h.stores ok).1 p) (fun e => e ▸ hx ok), (h.stores ok).2⟩⟩

theorem keeps_modTile (h : Keeps lk a s) (t : Nat) (f : Tile → Tile) (hf : ∀ x, tileStoresOk x → tileStoresOk (f x)) :
    Keeps lk a (modTile s t f) := keeps_setTile h t _ fun ok => hf _ (h.tile t ok)

theorem keeps_modBp (h : Keeps lk a s) (t : Nat) (f : BpState → BpState) (hf : ∀ b, bpStoresOk b → bpStoresOk (f b)) :
    Keeps lk a (modBp s t f) :=
  keeps_modTile h t _ fun x hx => by
    rw [tileStoresOk_iff] at hx ⊢
    exact ⟨hx.1, hx.2.1, hf _ hx.2.2.1, hx.2.2.2⟩

theorem keeps_modFab (h : Keeps lk a s) (t : Nat) (f : FabState → FabState)
    (hf : ∀ b : FabState, Memory.wf zeroes b.ram = true → Memory.wf zeroes (f b).ram = true) :
    Keeps lk a (modFab s t f) :=
  keeps_modTile h t _ fun x hx => by
    rw [tileStoresOk_iff] at hx ⊢
    exact ⟨hx.1, hx.2.1, hx.2.2.1, hf _ hx.2.2.2⟩

theorem keeps_modCyc (h : Keeps lk a s) (t : Nat) (f : CycState → CycState) : Keeps lk a (modCyc s t f) := keeps_modTile h t _ fun _ h => h

theorem keeps_modPin (h : Keeps lk a s) (t : Nat) (f : PinState → PinState) : Keeps lk a (modPin s t f) := keeps_modTile h t _ fun _ h => h

theorem keeps_modAn (h : Keeps lk a s) (t : Nat) (f : AnState → AnState) : Keeps lk a (modAn s t f) := keeps_modTile h t _ fun _ h => h

theorem keeps_modCv (h : Keeps lk a s) (t : Nat) (f : CvState → CvState) : Keeps lk a (modCv s t f) := keeps_modTile h t _ fun _ h => h

theorem keeps_modCt (h : Keeps lk a s) (t : Nat) (f : CtState → CtState) : Keeps lk a (modCt s t f) := keeps_modTile h t _ fun _ h => h

theorem keeps_modCal (h : Keeps lk a s) (t : Nat) (f : CalState → CalState) : Keeps lk a (modCal s t f) := keeps_modTile h t _ fun _ h => h

theorem keeps_modNet (h : Keeps lk a s) (t : Nat) (f : Router → Router) : Keeps lk a (modNet s t f) := keeps_modTile h t _ fun _ h => h

theorem keeps_modCtl (h : Keeps lk a s) (t : Nat) (f : Ctl → Ctl) : Keeps lk a (modCtl s t f) := keeps_modTile h t _ fun _ h => h

theorem keeps_modDev (h : Keeps lk a s) (f : Device → Device)
    (hl : ∀ n, s.dev.locks.getLsbD n = true → (f s.dev).locks.getLsbD n = true) (hk : (f s.dev).keys = s.dev.keys) :
    Keeps lk a (modDev s f) :=
  h.trans ⟨rfl, fun _ => hl, fun n => by simp only [keySlot, modDev, hk]; exact .refl _, id⟩

theorem keeps_modJnl (h : Keeps lk a s) (f : Journal → Journal)
    (hf : ∀ b : Journal, Memory.wf zeroes b.window = true → Memory.wf zeroes (f b).window = true) :
    Keeps lk a (modJnl s f) :=
  h.trans ⟨rfl, fun _ _ h => h, fun _ => .refl _, fun ⟨tiles, window⟩ => ⟨tiles, hf _ window⟩⟩

theorem keeps_modHif (h : Keeps lk a s) (f : HostIf → HostIf) : Keeps lk a (modHif s f) := h.of_same rfl rfl rfl rfl

theorem keeps_modHub (h : Keeps lk a s) (f : Hub → Hub) : Keeps lk a (modHub s f) := h.of_same rfl rfl rfl rfl

theorem keeps_modRcd (h : Keeps lk a s) (f : Recorder → Recorder) : Keeps lk a (modRcd s f) := h.of_same rfl rfl rfl rfl

theorem keeps_modLoad (h : Keeps lk a s) (f : Load → Load) : Keeps lk a (modLoad s f) := h.of_same rfl rfl rfl rfl

theorem keeps_modBsp (h : Keeps lk a s) (f : Bsp → Bsp) : Keeps lk a (modBsp s f) := h.of_same rfl rfl rfl rfl

theorem keeps_setCase (h : Keeps lk a s) (c : Nat) (k : Casement) : Keeps lk a (setCase s c k) := h.of_same rfl rfl rfl rfl

theorem keeps_modCase (h : Keeps lk a s) (c : Nat) (f : Casement → Casement) : Keeps lk a (modCase s c f) := by
  unfold modCase
  split
  · exact keeps_setCase h c _
  · exact h

theorem keeps_setHost (h : Keeps lk a s) (c : Nat) (k : HostSt) : Keeps lk a (setHost s c k) := h.of_same rfl rfl rfl rfl

theorem keeps_fresh (h : Keeps lk a s) (n : Nat) : Keeps lk a { s with fresh := n } := h.of_same rfl rfl rfl rfl

theorem keeps_cases (h : Keeps lk a s) (m : Map Casement) : Keeps lk a { s with cases := m } := h.of_same rfl rfl rfl rfl

theorem keeps_foldl {α : Type} (f : State → α → State) (l : List α) (h : Keeps lk a s)
    (hf : ∀ u x, Keeps lk a u → Keeps lk a (f u x)) : Keeps lk a (l.foldl f s) := by
  induction l generalizing s with
  | nil => exact h
  | cons x r ih => exact ih (hf _ _ h)

theorem keeps_modTiles (h : Keeps lk a s) (ts : List Nat) (f : Nat → Tile → Tile)
    (hf : ∀ t x, tileStoresOk x → tileStoresOk (f t x)) : Keeps lk a (modTiles s ts f) :=
  keeps_foldl _ _ h fun _ t hu => keeps_modTile hu t _ (hf t)

/-- A change of device fields other than the pin locks and the key slots. -/
theorem keeps_modDev_same (h : Keeps lk a s) (f : Device → Device)
    (hf : ∀ d, (f d).locks = d.locks ∧ (f d).keys = d.keys := by exact fun _ => ⟨rfl, rfl⟩) : Keeps lk a (modDev s f) :=
  keeps_modDev h f (fun _ hn => (hf s.dev).1 ▸ hn) (hf s.dev).2

/-- A change of tile fields other than the stores. -/
theorem keeps_modTile_same (h : Keeps lk a s) (t : Nat) (f : Tile → Tile)
    (hf : ∀ x, tileStoresOk x → tileStoresOk (f x) := by exact fun _ hx => hx) : Keeps lk a (modTile s t f) := keeps_modTile h t f hf

theorem keeps_modTiles_same (h : Keeps lk a s) (ts : List Nat) (f : Nat → Tile → Tile)
    (hf : ∀ t x, tileStoresOk x → tileStoresOk (f t x) := by exact fun _ _ hx => hx) : Keeps lk a (modTiles s ts f) :=
  keeps_modTiles h ts f hf

theorem keeps_modFab_same (h : Keeps lk a s) (t : Nat) (f : FabState → FabState)
    (hf : ∀ b : FabState, Memory.wf zeroes b.ram = true → Memory.wf zeroes (f b).ram = true := by exact fun _ hw => hw) :
    Keeps lk a (modFab s t f) := keeps_modFab h t f hf

theorem keeps_modHost (h : Keeps lk a s) (g2 : ℕ) (f : HostSt → HostSt) :
    Keeps lk a (modHost s g2 f) := by
  grind [modHost, keeps_setHost]

theorem keeps_modJnlCase (h : Keeps lk a s) (c : ℕ) (f : JnlCase → JnlCase) :
    Keeps lk a (modJnlCase s c f) := by
  grind [modJnlCase, keeps_modCase]

theorem stores_cfgWrite (x : Tile) (cls : ℕ) (off : ℕ) (n : ℕ) (v : ℕ) (h : tileStoresOk x) :
    tileStoresOk (cfgWrite x cls off n v) := by
  grind [cfgWrite, = tileStoresOk_iff, memPuts_wf]

theorem keeps_drawBit (h : Keeps lk a s) (site : ℕ) :
    Keeps lk a (drawBit s site).2 := by
  grind [drawBit, keeps_fresh]

theorem keeps_drawNat (h : Keeps lk a s) (site : ℕ) :
    Keeps lk a (drawNat s site).2 := by
  grind [drawNat, keeps_fresh]

theorem keeps_edgeTime (h : Keeps lk a s) :
    Keeps lk a (edgeTime s).2 := by
  grind [edgeTime, keeps_drawNat]

theorem keeps_setBucket (h : Keeps lk a s) (code : ℕ) (b : Bucket) :
    Keeps lk a (setBucket s code b) := by
  grind [setBucket, keeps_modRcd]

theorem keeps_suppress (h : Keeps lk a s) (code : ℕ) (src : BitVec 4) :
    Keeps lk a (suppress s code src) := by
  grind [suppress, keeps_modRcd, keeps_setBucket]

theorem keeps_postEv (h : Keeps lk a s) (e : Ev) :
    Keeps lk a (postEv s e) := by
  grind [postEv, keeps_modRcd]

theorem keeps_postArg (h : Keeps lk a s) (code : ℕ) (src : ℕ) (arg : BitVec 32) :
    Keeps lk a (postArg s code src arg) := by
  grind [postArg, keeps_postEv]

theorem keeps_post (h : Keeps lk a s) (code : ℕ) (src : ℕ) (b0 : ℕ) (b1 : ℕ) (w : ℕ) :
    Keeps lk a (post s code src b0 b1 w) := by
  grind [post, keeps_postArg]

theorem keeps_postTile (h : Keeps lk a s) (t : ℕ) (code : ℕ) (src : ℕ) (b0 : ℕ) (b1 : ℕ) (w : ℕ) :
    Keeps lk a (postTile s t code src b0 b1 w) := by
  grind [postTile, keeps_modCtl, keeps_suppress, keeps_post]

theorem keeps_hostWrite (h : Keeps lk a s) (g2 : HostId) (addr : BitVec 64) (data : List Byte) :
    Keeps lk a (hostWrite s g2 addr data) := by
  grind [hostWrite, keeps_modHif]

theorem keeps_signalVector (h : Keeps lk a s) (g2 : HostId) (v : ℕ) :
    Keeps lk a (signalVector s g2 v) := by
  grind [signalVector, keeps_modHost, keeps_hostWrite]

theorem keeps_signalFault (h : Keeps lk a s) (g2 : HostId) :
    Keeps lk a (signalFault s g2) := by
  grind [signalFault, keeps_signalVector]

theorem keeps_raiseFault (h : Keeps lk a s) (g2 : HostId) (bit : ℕ) :
    Keeps lk a (raiseFault s g2 bit) := by
  grind [raiseFault, keeps_signalFault, keeps_modHost]

theorem keeps_signalDeviceFault (h : Keeps lk a s) :
    Keeps lk a (signalDeviceFault s) := by
  grind [signalDeviceFault, keeps_signalFault, keeps_foldl]

theorem keeps_settleFaultN (h : Keeps lk a s) :
    Keeps lk a (settleFaultN s) := by
  grind [settleFaultN, keeps_modDev, keeps_signalDeviceFault, keeps_post]

theorem keeps_markChanged (h : Keeps lk a s) (c : ℕ) :
    Keeps lk a (markChanged s c) := by
  grind [markChanged, keeps_modDev]

theorem keeps_postPwr (h : Keeps lk a s) (c : ℕ) (new : Pwr) (old : Pwr) :
    Keeps lk a (postPwr s c new old) := by
  grind [postPwr, keeps_post]

theorem keeps_countIn (h : Keeps lk a s) (t : ℕ) (e : Bool) :
    Keeps lk a (countIn s t e) := by
  grind [countIn, keeps_modNet]

theorem keeps_countOut (h : Keeps lk a s) (t : ℕ) (e : Bool) :
    Keeps lk a (countOut s t e) := by
  grind [countOut, keeps_modNet]

theorem keeps_dropPacket (h : Keeps lk a s) (t : ℕ) (g2 : BitVec 64) :
    Keeps lk a (dropPacket s t g2) := by
  grind [dropPacket, keeps_postTile, keeps_modNet, keeps_countOut]

theorem keeps_countShut (h : Keeps lk a s) (t : ℕ) :
    Keeps lk a (countShut s t) := by
  grind [countShut, keeps_modNet]

theorem keeps_setRing (h : Keeps lk a s) (r : RingRef) (x : Ring) :
    Keeps lk a (setRing s r x) := by
  unfold setRing
  grind [keeps_modHost, keeps_modHif]

theorem keeps_modRing (h : Keeps lk a s) (r : RingRef) (f : Ring → Ring) :
    Keeps lk a (modRing s r f) := by
  grind [modRing, keeps_setRing]

theorem keeps_signalRing (h : Keeps lk a s) (r : RingRef) :
    Keeps lk a (signalRing s r) := by
  grind [signalRing, keeps_signalVector, keeps_setRing]

theorem keeps_signalDue (h : Keeps lk a s) (r : RingRef) :
    Keeps lk a (signalDue s r) := by
  grind [signalDue, keeps_signalRing]

theorem keeps_writeEntry (h : Keeps lk a s) (r : RingRef) (counts : Bool) (e : List Byte) :
    Keeps lk a (writeEntry s r counts e) := by
  grind [writeEntry, keeps_hostWrite, keeps_signalDue, keeps_setRing]

theorem keeps_putEntry (h : Keeps lk a s) (c : ℕ) (key : ℕ) (e : List Byte) :
    Keeps lk a (putEntry s c key e).2 := by
  grind [putEntry, keeps_setRing, keeps_writeEntry]

theorem keeps_failRing (h : Keeps lk a s) (r : RingRef) (reason : ℕ) :
    Keeps lk a (failRing s r reason) := by
  grind [failRing, keeps_post, keeps_raiseFault, keeps_setRing]

theorem keeps_sendNotice (h : Keeps lk a s) (g2 : HostId) (key : ℕ) (e : List Byte) :
    Keeps lk a (sendNotice s g2 key e) := by
  grind [sendNotice, keeps_failRing, keeps_putEntry]

theorem keeps_ringError (h : Keeps lk a s) (r : RingRef) (reason : ℕ) :
    Keeps lk a (ringError s r reason) := by
  grind [ringError, keeps_failRing, keeps_sendNotice]

theorem keeps_flushEntries (h : Keeps lk a s) (x1 : ℕ) (x3 : ℕ) :
    Keeps lk a (flushEntries x1 s x3) := by
  fun_induction flushEntries <;> grind [keeps_setRing, keeps_ringError, keeps_writeEntry]

theorem keeps_putEntryIo (h : Keeps lk a s) (writeOk : Bool) (c : ℕ) (key : ℕ) (e : List Byte) :
    Keeps lk a (putEntryIo s writeOk c key e).2 := by
  grind [putEntryIo, keeps_ringError, keeps_putEntry]

theorem keeps_settleQuiesced (h : Keeps lk a s) (g2 : HostId) :
    Keeps lk a (settleQuiesced s g2) := by
  grind [settleQuiesced, keeps_setHost]

theorem keeps_closeDesc (h : Keeps lk a s) (q : Req) :
    Keeps lk a (closeDesc s q) := by
  grind [closeDesc, keeps_settleQuiesced, keeps_modHif]

theorem keeps_complete1 (h : Keeps lk a s) (q : Req) (st : Status) (res : ℕ) :
    Keeps lk a (complete1 q st res s) := by
  unfold complete1
  grind [keeps_closeDesc, keeps_setRing, keeps_modRing, keeps_ringError, keeps_writeEntry]

theorem keeps_mmapTiles (h : Keeps lk a s) (f : Nat → Tile → Tile) (hf : ∀ t x, tileStoresOk x → tileStoresOk (f t x)) :
    Keeps lk a { s with tiles := mmap f s.tiles } :=
  h.trans ⟨rfl, fun _ _ h => h, fun _ => .refl _, fun ⟨tiles, window⟩ => ⟨fun p hp => by
    obtain ⟨q, hq, rfl⟩ := List.mem_map.mp hp
    exact hf _ _ (tiles q hq), window⟩⟩

theorem keeps_clearContext (h : Keeps lk a s) (c : Nat) : Keeps lk a (clearContext s c) := by
  unfold clearContext
  refine keeps_mmapTiles (keeps_modRcd (keeps_modHif ?_ _) _) _ fun _ _ hx => hx
  grind [keeps_complete1, keeps_modRing]

theorem keeps_sweepDeletes (h : Keeps lk a s) (n : Nat) : Keeps lk a (sweepDeletes n s) := by
  induction n generalizing s with
  | zero => exact h
  | succ n ih => grind [sweepDeletes, keeps_clearContext]

theorem keeps_complete (h : Keeps lk a s) (q : Req) (st : Status) (res : ℕ) :
    Keeps lk a (complete q st res s) := by
  grind [complete, keeps_complete1, keeps_sweepDeletes]

theorem keeps_dmaFail (h : Keeps lk a s) (op : ℕ) (q : Req) :
    Keeps lk a (dmaFail op q s) := by
  grind [dmaFail, keeps_complete, keeps_post, keeps_raiseFault]

theorem keeps_answer (op : Nat) (q : Req) (p : Reply × State) (h : Keeps lk a p.2) : Keeps lk a (answer op q p) := by
  unfold answer
  grind [keeps_complete, keeps_dmaFail]

theorem keeps_markStarted (h : Keeps lk a s) (q : Req) :
    Keeps lk a (markStarted q s) := by
  grind [markStarted, keeps_modHif]

theorem keeps_countBounce (q : Req) (p : Reply × State) (h : Keeps lk a p.2) : Keeps lk a (countBounce q p) := by
  unfold countBounce
  grind [keeps_countShut]

theorem keeps_parkDesc (h : Keeps lk a s) (i : Instr) :
    Keeps lk a (parkDesc i s) := by
  grind [parkDesc, keeps_modHif]

/-- The state that a way ends in. -/
def sentState : Sent → State
  | .arrived u | .bounced u | .lost u => u

theorem keeps_sendDesc (h : Keeps lk a s) (q : Req) : Keeps lk a (sentState (sendDesc q s)) := by
  unfold sendDesc
  grind [sentState, keeps_countIn, keeps_countOut, keeps_countShut, keeps_dropPacket]

theorem keeps_runDesc (h : Keeps lk a s) (i : Instr) (op : Nat) (q : Req) (body : State → Reply × State)
    (hb : ∀ u, Keeps lk a u → Keeps lk a (body u).2) : Keeps lk a (runDesc i op q body s) := by
  have sent := keeps_sendDesc (keeps_markStarted h q) q
  unfold runDesc
  grind [sentState, keeps_parkDesc, keeps_complete, keeps_markStarted, keeps_answer, keeps_countBounce]

theorem keeps_checked (h : Keeps lk a s) (cs : List (Bool × Status)) (act : State → Reply × State)
    (ha : Keeps lk a (act s).2) : Keeps lk a (checked cs act s).2 := by
  grind [checked]

theorem keeps_replyCopy (h : Keeps lk a s) (q : Req) (bytes : List Byte) (res : ℕ) :
    Keeps lk a (replyCopy q bytes res s).2 := by
  grind [replyCopy, keeps_hostWrite]

theorem keeps_takeCells (h : Keeps lk a s) (t : ℕ) (new_ : List (ℕ × BitVec 2)) (open_ : Bool) :
    Keeps lk a (takeCells s t new_ open_) := by
  grind [takeCells, keeps_modFab, keeps_fresh]

theorem keeps_clockCells (h : Keeps lk a s) (before : State) (t : ℕ) (fires : ℕ → Bool) (broken : List ℕ) :
    Keeps lk a (clockCells before s t fires broken) := by
  grind [clockCells, keeps_takeCells]

theorem keeps_ramParityFail (h : Keeps lk a s) (t : ℕ) (q : ℕ) (row : ℕ) :
    Keeps lk a (ramParityFail s t q row) := by
  grind [ramParityFail, keeps_postTile, keeps_modFab]

theorem ramPutBits_wf (m : List Host.Cell) (q b n v : Nat) (h : Memory.wf zeroes m = true) :
    Memory.wf zeroes (ramPutBits m q b n v) = true := memPuts_wf _ _ _ _ h

theorem keeps_portAWrite (h : Keeps lk a s) (t q addr v : Nat) : Keeps lk a (portAWrite s t q addr v) := by
  unfold portAWrite
  exact keeps_modFab h t _ fun _ hb => ramPutBits_wf _ _ _ _ _ hb

theorem keeps_portARead (h : Keeps lk a s) (t : ℕ) (q : ℕ) (row : ℕ) (data : ℕ) (bad : Bool) :
    Keeps lk a (portARead s t q row data bad) := by
  grind [portARead, keeps_modFab, keeps_ramParityFail]

theorem keeps_portAAccess (h : Keeps lk a s) (t : ℕ) (q : ℕ) (p : PortA) (meets : Bool) :
    Keeps lk a (portAAccess s t q p meets) := by
  grind [portAAccess, keeps_drawBit, keeps_portARead, keeps_modFab, keeps_portAWrite]

theorem keeps_portABroken (h : Keeps lk a s) (t : ℕ) (q : ℕ) (p : PortA) (other : ℕ) :
    Keeps lk a (portABroken s t q p other) := by
  grind [portABroken, keeps_drawNat, keeps_portARead, keeps_portAWrite]

theorem keeps_portAEnd (h : Keeps lk a s) (t : ℕ) (q : ℕ) :
    Keeps lk a (portAEnd s t q) := by
  grind [portAEnd, keeps_modFab, keeps_portAAccess]

theorem keeps_clockRams (h : Keeps lk a s) (before : State) (t : ℕ) (fires : ℕ → ℕ → Bool) :
    Keeps lk a (clockRams before s t fires) := by
  grind [clockRams, keeps_modFab, keeps_portAEnd, keeps_foldl]

theorem keeps_asyncPass (h : Keeps lk a s) (t : ℕ) :
    Keeps lk a (asyncPass s t) := by
  grind [asyncPass, keeps_modFab, keeps_foldl]

theorem keeps_lineEdges (h : Keeps lk a s) (before : State) (after : State) (t : ℕ) :
    Keeps lk a (lineEdges before after t s) := by
  grind [lineEdges, keeps_clockRams, keeps_takeCells]

theorem keeps_settleRounds (h : Keeps lk a s) (n : Nat) (before : State) : Keeps lk a (settleRounds n before s) := by
  have lines : ∀ u (ts : List Nat), Keeps lk a (ts.foldl (fun v t => lineEdges u s t v) s) := fun u ts =>
    keeps_foldl _ _ h fun v t hv => keeps_lineEdges hv u s t
  induction n generalizing before s with
  | zero => exact h
  | succ n ih =>
    have async : Keeps lk a ((fabricTiles s).foldl asyncPass ((fabricTiles s).foldl (fun v t => lineEdges before s t v) s)) :=
      keeps_foldl _ _ (lines before _) fun v t hv => keeps_asyncPass hv t
    simp only [settleRounds]
    split
    · exact async
    · exact ih async _ fun u ts => keeps_foldl _ _ async fun v t hv => keeps_lineEdges hv u _ t

theorem keeps_noteEdges (h : Keeps lk a s) (before : State) :
    Keeps lk a (noteEdges before s) := by
  grind [noteEdges, keeps_modTile, keeps_foldl, = tileStoresOk_iff]

theorem keeps_settleFabric (h : Keeps lk a s) (before : State) :
    Keeps lk a (settleFabric before s) := by
  grind [settleFabric, keeps_noteEdges, keeps_settleRounds]

theorem keeps_dropEdge (h : Keeps lk a s) (t : ℕ) (n : EdgeNote) :
    Keeps lk a (dropEdge s t n) := by
  grind [dropEdge, keeps_modTile, = tileStoresOk_iff]

theorem keeps_settleTin (h : Keeps lk a s) (t : ℕ) (k : ℕ) (p : ℕ) :
    Keeps lk a (settleTin s t k p) := by
  grind [settleTin, keeps_postTile, keeps_modPin]

theorem keeps_changePin (h : Keeps lk a s) (p w0 w1 w2 : Nat) : Keeps lk a (changePin s p w0 w1 w2) := by
  unfold changePin
  lift_lets
  intro t n x old sw x1 y1 s1 s2 s3
  have set : Keeps lk a s1 := keeps_setTile h _ _ fun ok => stores_cfgWrite x _ _ _ _ (h.tile t ok)
  have left : Keeps lk a s2 := by
    unfold s2
    split
    · exact keeps_settleTin set _ _ _
    · exact set
  refine keeps_settleFabric ?_ _
  unfold s3
  split
  · exact keeps_settleTin left _ _ _
  · exact left

theorem keeps_windowStore (h : Keeps lk a s) (t : ℕ) (mask : ℕ) (word : ℕ) :
    Keeps lk a (windowStore s t mask word) := by
  grind [windowStore, keeps_settleFabric, keeps_modPin]

theorem locks_setBit {w : Nat} (v : BitVec w) (p n : Nat) (h : v.getLsbD n = true) : (setBit v p true).getLsbD n = true := by
  simp [setBit, h]

theorem keeps_lockPin (h : Keeps lk a s) (p : Nat) : Keeps lk a (lockPin s p) := by
  unfold lockPin
  exact keeps_postTile (keeps_modDev h _ (fun _ hn => locks_setBit _ _ _ hn) rfl) _ _ _ _ _ _

theorem keeps_pinWriteBody (h : Keeps lk a s) (q : Req) :
    Keeps lk a (pinWriteBody q s).2 := by
  grind [pinWriteBody, keeps_checked, keeps_edgeTime, keeps_windowStore]

theorem keeps_pinReadBody (h : Keeps lk a s) (q : Req) :
    Keeps lk a (pinReadBody q s).2 := by
  grind [pinReadBody, keeps_checked, keeps_fresh]

theorem keeps_pinSetupBody (h : Keeps lk a s) (q : Req) : Keeps lk a (pinSetupBody q s).2 := by
  unfold pinSetupBody
  exact keeps_checked h _ _ (keeps_markChanged (keeps_changePin (keeps_edgeTime h) _ _ _ _) _)

theorem keeps_pinLineBody (h : Keeps lk a s) (q : Req) :
    Keeps lk a (pinLineBody q s).2 := by
  unfold pinLineBody
  grind [keeps_checked, keeps_edgeTime, keeps_markChanged, keeps_settleFabric, keeps_modTile, stores_cfgWrite]

theorem keeps_pinLockBody (h : Keeps lk a s) (q : Req) :
    Keeps lk a (pinLockBody q s).2 := by
  grind [pinLockBody, keeps_checked, keeps_lockPin]

theorem keeps_pinStatusBody (h : Keeps lk a s) (q : Req) :
    Keeps lk a (pinStatusBody q s).2 := by
  grind [pinStatusBody, keeps_checked, keeps_replyCopy]

theorem stores_writeCell (x : Tile) (k : ℕ) (r : ℕ) (h : tileStoresOk x) :
    tileStoresOk (writeCell x k r) := by
  grind [writeCell, stores_cfgWrite]

theorem keeps_beginChange (h : Keeps lk a s) (q : Req) (x : Tile) (hx : storesOk a → tileStoresOk x) :
    Keeps lk a (beginChange q x s).2 := by
  refine keeps_markChanged (keeps_setTile (x := ?_) (keeps_edgeTime h) _ ?_) _
  exact hx

theorem keeps_anCellSetBody (h : Keeps lk a s) (q : Req) : Keeps lk a (anCellSetBody q s).2 :=
  keeps_checked (act := beginChange q (writeCell (getTile s (dByte q.d 28)) (dByte q.d 29) (dBits q.d 32 12))) h _ (keeps_beginChange h q _ fun ok => stores_writeCell _ _ _ (h.tile _ ok))

theorem keeps_anNetSetBody (h : Keeps lk a s) (q : Req) : Keeps lk a (anNetSetBody q s).2 := by
  have taken : Keeps lk a (if bitAt (dW32 q.d 32) 2
      then modDev s (fun d => { d with trunks := mset d.trunks (4 * sectorOf (dByte q.d 28) + recBits (dW32 q.d 32) 3 2) (dCase q.d) }) else s) := by
    split
    · exact keeps_modDev h _ (fun _ hn => hn) rfl
    · exact h
  unfold anNetSetBody
  exact keeps_checked h _ _ (keeps_beginChange taken q _ fun ok => stores_cfgWrite _ _ _ _ _ (h.tile _ ok))

theorem keeps_anPinSetBody (h : Keeps lk a s) (q : Req) : Keeps lk a (anPinSetBody q s).2 := by
  unfold anPinSetBody
  exact keeps_checked h _ _ (keeps_beginChange h q _ fun ok => stores_cfgWrite _ _ _ _ _ (h.tile _ ok))

theorem keeps_anStatusBody (h : Keeps lk a s) (q : Req) :
    Keeps lk a (anStatusBody q s).2 := by
  grind [anStatusBody, keeps_checked, keeps_replyCopy]

theorem stores_restoreSnap (b : BpState) (z : Snap) (h : bpStoresOk b) (hz : Memory.wf zeroes z.emem = true) :
    bpStoresOk (restoreSnap b z) := ⟨hz, h.2⟩

theorem keeps_jnlStop (h : Keeps lk a s) : Keeps lk a (jnlStop s) := by
  have k : Keeps lk a (modJnl s fun j => { j with stopped := true }) := keeps_modJnl h _ fun _ hw => hw
  exact k.of_same rfl rfl rfl rfl

theorem windowPut_wf (w : List Host.Cell) (off : Nat) (l : List Byte) (h : Memory.wf zeroes w = true) :
    Memory.wf zeroes (windowPut w off l) = true := by
  induction l generalizing w off with
  | nil => exact h
  | cons b r ih => exact ih _ _ (memPut_wf _ _ _ _ h)

theorem keeps_jnlAppend (h : Keeps lk a s) (bytes : List Byte) : Keeps lk a (jnlAppend s bytes) := by
  unfold jnlAppend
  split
  · exact h
  · split
    · exact keeps_modJnl h _ fun _ hw => windowPut_wf _ _ _ hw
    · exact keeps_jnlStop h

theorem keeps_jnlSync (h : Keeps lk a s) (c : ℕ) (cycle : ℕ) :
    Keeps lk a (jnlSync s c cycle) := by
  grind [jnlSync, keeps_modJnlCase, keeps_jnlAppend]

theorem keeps_jnlNeedSync (h : Keeps lk a s) (c : ℕ) (cycle : ℕ) :
    Keeps lk a (jnlNeedSync s c cycle) := by
  grind [jnlNeedSync, keeps_jnlSync]

theorem keeps_jnlRecord (h : Keeps lk a s) (c : ℕ) (type : ℕ) (cycle : ℕ) (body : List Byte) :
    Keeps lk a (jnlRecord s c type cycle body) := by
  grind [jnlRecord, keeps_jnlAppend, keeps_jnlNeedSync]

theorem keeps_jnlInputs (h : Keeps lk a s) (c : ℕ) (cycle : ℕ) (all : Bool) :
    Keeps lk a (jnlInputs s c cycle all) := by
  unfold jnlInputs
  (repeat' split) <;> grind [keeps_jnlRecord, keeps_modBp, keeps_foldl, = bpStoresOk]

theorem keeps_jnlOutputs (h : Keeps lk a s) (c : ℕ) (cycle : ℕ) (all : Bool) :
    Keeps lk a (jnlOutputs s c cycle all) := by
  unfold jnlOutputs
  (repeat' split) <;> grind [keeps_jnlRecord, keeps_modBp, keeps_foldl, = bpStoresOk]

theorem keeps_jnlDigests (h : Keeps lk a s) (c : ℕ) (cycle : ℕ) :
    Keeps lk a (jnlDigests s c cycle) := by
  grind [jnlDigests, keeps_jnlRecord, keeps_foldl]

theorem keeps_jnlZeroRefs (h : Keeps lk a s) (k : Casement) :
    Keeps lk a (jnlZeroRefs s k) := by
  grind [jnlZeroRefs, keeps_modTiles, = tileStoresOk_iff, = bpStoresOk]

theorem stores_noCkptBank (x : Tile) (h : tileStoresOk x) : tileStoresOk { x with bp := { x.bp with ckptBank := none } } := by
  grind [= tileStoresOk_iff, = bpStoresOk]

theorem keeps_abandonCkpt (h : Keeps lk a s) (c : Nat) : Keeps lk a (abandonCkpt s c) := by
  have bank : ∀ u ts, Keeps lk a u → Keeps lk a (modTiles u ts fun _ x => { x with bp := { x.bp with ckptBank := none } }) :=
    fun u ts hu => keeps_modTiles hu ts _ fun _ x hx => stores_noCkptBank x hx
  have counted : ∀ u, Keeps lk a u → Keeps lk a (modJnl u fun j => { j with abandoned := bump j.abandoned }) :=
    fun u hu => keeps_modJnl hu _ fun _ hw => hw
  unfold abandonCkpt
  grind [keeps_jnlRecord, keeps_modJnlCase, keeps_post, keeps_complete]

theorem keeps_decideCkpt (h : Keeps lk a s) (c : ℕ) (n : ℕ) :
    Keeps lk a (decideCkpt s c n) := by
  grind [decideCkpt, keeps_post, keeps_modJnl, keeps_modJnlCase]

theorem keeps_beginCkpt (h : Keeps lk a s) (c : ℕ) (n : ℕ) :
    Keeps lk a (beginCkpt s c n) := by
  grind [beginCkpt, keeps_jnlAppend, keeps_jnlSync, keeps_modJnlCase]

theorem keeps_resumeGap (h : Keeps lk a s) (c cycle : Nat) : Keeps lk a (resumeGap s c cycle) := by
  unfold resumeGap
  split
  · exact h
  · split
    · exact h
    · split
      · exact h
      · extract_lets s1 lost s2
        have counted : Keeps lk a s1 := keeps_modJnl h _ fun _ hw => hw
        have noted : Keeps lk a s2 := keeps_jnlAppend (keeps_jnlSync (keeps_modJnlCase counted _ _) _ _) _
        exact keeps_abandonCkpt (keeps_post (keeps_jnlZeroRefs noted _) _ _ _ _ _) _

theorem keeps_jnlLoadRecord (h : Keeps lk a s) (c : ℕ) :
    Keeps lk a (jnlLoadRecord s c) := by
  grind [jnlLoadRecord, keeps_jnlRecord, keeps_jnlSync]

theorem keeps_jnlResetRecord (h : Keeps lk a s) (c : ℕ) (last : ℕ) :
    Keeps lk a (jnlResetRecord s c last) := by
  grind [jnlResetRecord, keeps_jnlRecord, keeps_jnlSync]

theorem stores_applyResult (b : BpState) (p : ℕ × ℕ × Bool) (h : bpStoresOk b) :
    bpStoresOk (applyResult b p) := by
  grind [applyResult, = bpStoresOk]

theorem stores_readsDue (b : BpState) (st : ℕ) (h : bpStoresOk b) :
    bpStoresOk (readsDue b st) := by
  grind [readsDue, = bpStoresOk]

theorem foldl_keeps {α β : Type} (p : β → Prop) (f : β → α → β) (hf : ∀ b x, p b → p (f b x)) (l : List α) (b : β) (h : p b) :
    p (l.foldl f b) := by
  induction l generalizing b with
  | nil => exact h
  | cons x r ih => exact ih _ (hf _ _ h)

theorem stores_withBp (x : Tile) (b : BpState) (c : CycState) (h : tileStoresOk x) (hb : bpStoresOk b) :
    tileStoresOk { x with bp := b, cyc := c } := by
  obtain ⟨hcfg, himg, -, hram⟩ := (tileStoresOk_iff _).mp h
  exact (tileStoresOk_iff _).mpr ⟨hcfg, himg, hb, hram⟩

theorem stores_results (b : BpState) (rs : List (Nat × Nat × Bool)) (h : bpStoresOk b) : bpStoresOk (rs.foldl applyResult b) :=
  foldl_keeps bpStoresOk applyResult (fun b p hb => stores_applyResult b p hb) rs b h

theorem ememPuts_wf (accs : List Access32) (m : List Host.Cell) (h : Memory.wf zeroes m = true) :
    Memory.wf zeroes (accs.foldl (fun m a => ememPut m a.block a.word a.data) m) = true :=
  foldl_keeps (fun m => Memory.wf zeroes m = true) _ (fun m _ hm => memPuts_wf zeroes m _ _ hm) accs m h

theorem keeps_execStep (h : Keeps lk a s) (t : Nat) : Keeps lk a (execStep s t) := by
  unfold execStep
  extract_lets x0 st x rs accs wires b1 rd em dg ew e octs sends asm_ lane b2 y s1
  have results : storesOk a → bpStoresOk b1 := fun ok =>
    stores_results x.bp rs (stores_readsDue x0.bp st ((tileStoresOk_iff x0).mp (h.tile t ok)).2.2.1)
  clear_value b1 accs
  have set : Keeps lk a s1 := keeps_setTile h t _ fun ok =>
    stores_withBp x0 b2 y (h.tile t ok) ⟨ememPuts_wf (accs.filter (·.write)) b1.emem (results ok).1, (results ok).2⟩
  split
  · exact keeps_modNet set _ _
  · exact set

theorem stores_landBundle (x : Tile) (e : ℕ) (h : tileStoresOk x) :
    tileStoresOk (landBundle x e) := by
  grind [landBundle, = tileStoresOk_iff, = bpStoresOk]

theorem stores_landDue (x : Tile) (st : Nat) (h : tileStoresOk x) : tileStoresOk (landDue x st) :=
  foldl_keeps tileStoresOk _ (fun x e hx => stores_landBundle x e hx) _ _ h

theorem keeps_queueExport (h : Keeps lk a s) (t : ℕ) (x2 : ℕ) (time : Time) :
    Keeps lk a (queueExport s t x2 time) := by
  grind [queueExport, keeps_modBsp, keeps_post]

theorem stores_setAcc (x : Tile) (n : ℕ) (x1 : Machine.Acc) (h : tileStoresOk x) :
    tileStoresOk (setAcc x n x1) := by
  grind [setAcc, = tileStoresOk_iff]

theorem stores_setTrk (x : Tile) (n : ℕ) (k : Trk) (h : tileStoresOk x) :
    tileStoresOk (setTrk x n k) := by
  grind [setTrk, = tileStoresOk_iff]

theorem keeps_mergeResult (h : Keeps lk a s) (t : ℕ) (r : ℕ) (c : ℕ) :
    Keeps lk a (mergeResult s t r c) := by
  grind [mergeResult, stores_setAcc, stores_setTrk, keeps_setTile, keeps_postTile, Keeps.tile]

theorem keeps_excludeResult (h : Keeps lk a s) (t : ℕ) (r : ℕ) (src : ℕ) :
    Keeps lk a (excludeResult s t r src) := by
  grind [excludeResult, stores_setAcc, keeps_setTile, keeps_postTile, Keeps.tile, = tileStoresOk_iff]

theorem keeps_snapAcc (h : Keeps lk a s) (t : ℕ) (n : ℕ) (time : Time) :
    Keeps lk a (snapAcc s t n time) := by
  grind [snapAcc, stores_setTrk, stores_setAcc, keeps_setTile, keeps_queueExport, Keeps.tile]

theorem stores_beginCommit (q : Req) (what : CommitFor) (b : CalBlock) (x : Tile) (h : tileStoresOk x) :
    tileStoresOk (beginCommit q what b x) := by
  grind [beginCommit, = tileStoresOk_iff]

theorem keeps_calSelect (h : Keeps lk a s) (t : ℕ) :
    Keeps lk a (calSelect s t) := by
  grind [calSelect, keeps_modCal, keeps_postTile]

theorem keeps_calInUse (h : Keeps lk a s) (t : ℕ) :
    Keeps lk a (calInUse s t) := by
  grind [calInUse, keeps_modTile, = tileStoresOk_iff]

theorem keeps_copyShadow (h : Keeps lk a s) (t : ℕ) :
    Keeps lk a (copyShadow s t) := by
  grind [copyShadow, keeps_edgeTime, keeps_modCv, keeps_complete, keeps_foldl]

theorem keeps_applyOne (h : Keeps lk a s) (t : ℕ) (p : ℕ × Req) :
    Keeps lk a (applyOne t s p) := by
  grind [applyOne, keeps_modCal, keeps_complete, keeps_postTile]

theorem keeps_applyPending (h : Keeps lk a s) (t : ℕ) :
    Keeps lk a (applyPending s t) := by
  grind [applyPending, keeps_applyOne, keeps_modCal, keeps_foldl]

theorem keeps_startInserted (h : Keeps lk a s) (t : ℕ) :
    Keeps lk a (startInserted s t) := by
  grind [startInserted, keeps_modCv]

theorem keeps_atBoundary (h : Keeps lk a s) (t : ℕ) :
    Keeps lk a (atBoundary s t) := by
  grind [atBoundary, keeps_applyPending, keeps_copyShadow, keeps_modCv]

theorem keeps_cvPump (h : Keeps lk a s) (t : ℕ) :
    Keeps lk a (cvPump s t) := by
  grind [cvPump, keeps_atBoundary, keeps_startInserted]

theorem keeps_commitDone (h : Keeps lk a s) (t : ℕ) (c : CalCommit) :
    Keeps lk a (commitDone s t c) := by
  grind [commitDone, keeps_cvPump, keeps_modCal, keeps_complete, keeps_postTile]

theorem keeps_commitTick (h : Keeps lk a s) (t : ℕ) :
    Keeps lk a (commitTick s t) := by
  grind [commitTick, keeps_modCal, keeps_commitDone]

theorem keeps_commitTicks (h : Keeps lk a s) :
    Keeps lk a (commitTicks s) := by
  grind [commitTicks, keeps_commitTick, keeps_foldl]

theorem keeps_cvTrigger (h : Keeps lk a s) (t : ℕ) :
    Keeps lk a (cvTrigger s t).2 := by
  grind [cvTrigger, keeps_postTile, keeps_modCv]

theorem keeps_timerTrigger (h : Keeps lk a s) (t : ℕ) (k : ℕ) (period : Bool) :
    Keeps lk a (timerTrigger s t k period) := by
  grind [timerTrigger, keeps_cvTrigger]

theorem keeps_cvRequest (h : Keeps lk a s) (t : ℕ) (j : ℕ) :
    Keeps lk a (cvRequest s t j).2 := by
  grind [cvRequest, keeps_postTile, keeps_modCv, keeps_cvPump]

theorem keeps_replayEnd (h : Keeps lk a s) (c : ℕ) (r : Replay) (last : ℕ) (p : Report) :
    Keeps lk a (replayEnd s c r last p) := by
  grind [replayEnd, keeps_modCase, keeps_post, keeps_complete, keeps_hostWrite, keeps_dmaFail]

theorem keeps_replayClose (h : Keeps lk a s) (c : ℕ) (n : ℕ) :
    Keeps lk a (replayClose s c n) := by
  unfold replayClose
  grind [keeps_replayEnd, keeps_modCase]

theorem keeps_replayRelease (h : Keeps lk a s) (c : ℕ) (n : ℕ) :
    Keeps lk a (replayRelease s c n) := by
  grind [replayRelease, keeps_modCase]

theorem stores_replayApply (x : Tile) (idx : ℕ) (p : ℕ × List Byte) (h : tileStoresOk x) :
    tileStoresOk (replayApply x idx p) := by
  grind [replayApply, = tileStoresOk_iff, = bpStoresOk, memPuts_wf]

theorem stores_ramUpset (y : FabState) (q : Nat) (ups : List (Nat × Byte)) (h : Memory.wf zeroes y.ram = true) :
    Memory.wf zeroes (ramUpset y q ups).ram = true :=
  foldl_keeps (fun y : FabState => Memory.wf zeroes y.ram = true) _ (fun _ _ hy => memPut_wf _ _ _ _ hy) ups y h

theorem keeps_holdClock (h : Keeps lk a s) (q : Req) :
    Keeps lk a (holdClock s q) := by
  grind [holdClock, keeps_modFab]

theorem keeps_restartClock (h : Keeps lk a s) (t : ℕ) (k : ℕ) :
    Keeps lk a (restartClock s t k) := by
  grind [restartClock, keeps_modTile, stores_cfgWrite, keeps_complete, = tileStoresOk_iff]

theorem keeps_nextClock (h : Keeps lk a s) (t : ℕ) :
    Keeps lk a (nextClock s t) := by
  grind [nextClock, keeps_holdClock, keeps_modFab]

theorem keeps_portBRow (h : Keeps lk a s) (t : ℕ) (p : PortB) :
    Keeps lk a (portBRow s t p).1 := by
  grind [portBRow, keeps_modFab, keeps_ramParityFail, memPuts_wf]

theorem keeps_portBDone (h : Keeps lk a s) (p : PortB) :
    Keeps lk a (portBDone s p) := by
  grind [portBDone, keeps_complete, keeps_hostWrite, keeps_dmaFail]

theorem keeps_portBStep (h : Keeps lk a s) (t : ℕ) :
    Keeps lk a (portBStep s t) := by
  grind [portBStep, keeps_portBRow, keeps_portBDone, keeps_modFab]

theorem keeps_portBQueue (h : Keeps lk a s) (t : ℕ) (p : PortB) :
    Keeps lk a (portBQueue s t p) := by
  grind [portBQueue, keeps_portBDone, keeps_modFab, keeps_portBStep]

theorem keeps_portBAll (h : Keeps lk a s) (t : ℕ) :
    Keeps lk a (portBAll s t) := by
  grind [portBAll, keeps_portBStep, keeps_foldl]

theorem keeps_portBTick (h : Keeps lk a s) :
    Keeps lk a (portBTick s) := by
  grind [portBTick, keeps_portBStep, keeps_foldl]

theorem keeps_fabricRamReadBody (h : Keeps lk a s) (q : Req) :
    Keeps lk a (fabricRamReadBody q s).2 := by
  grind [fabricRamReadBody, keeps_checked, keeps_portBQueue]

theorem keeps_fabricRamWriteBody (h : Keeps lk a s) (q : Req) :
    Keeps lk a (fabricRamWriteBody q s).2 := by
  grind [fabricRamWriteBody, keeps_checked, keeps_portBQueue]

theorem keeps_fabricStatusBody (h : Keeps lk a s) (q : Req) :
    Keeps lk a (fabricStatusBody q s).2 := by
  grind [fabricStatusBody, keeps_checked, keeps_replyCopy, keeps_modFab]

theorem keeps_fabricClockBody (h : Keeps lk a s) (q : Req) :
    Keeps lk a (fabricClockBody q s).2 := by
  grind [fabricClockBody, keeps_checked, keeps_markChanged, keeps_holdClock, keeps_modFab]

theorem keeps_sendCtl (h : Keeps lk a s) (b : BitVec 64) :
    Keeps lk a (sendCtl s b) := by
  grind [sendCtl, keeps_modBsp]

theorem keeps_modStream (h : Keeps lk a s) (k : ℕ) (f : Machine.Stream → Machine.Stream) :
    Keeps lk a (modStream s k f) := by
  grind [modStream, keeps_modBsp]

theorem keeps_topUp (h : Keeps lk a s) (k : ℕ) :
    Keeps lk a (topUp s k) := by
  grind [topUp, keeps_sendCtl, keeps_modStream]

theorem keeps_refuseFrame (h : Keeps lk a s) (k : ℕ) (reason : ℕ) (frame : ℕ) :
    Keeps lk a (refuseFrame s k reason frame) := by
  grind [refuseFrame, keeps_post, keeps_modStream, keeps_modBsp]

theorem keeps_deliverFrame (h : Keeps lk a s) (b : Machine.Bind) (d : Delivery) {u : State} (e : deliverFrame s b d = some u) :
    Keeps lk a u := by
  grind [deliverFrame, keeps_portBQueue, keeps_modTiles, = tileStoresOk_iff]

theorem keeps_flushFrame (p : State × List Nat) (h : Keeps lk a p.1) (d : Delivery) : Keeps lk a (flushFrame p d).1 := by
  unfold flushFrame
  split
  · exact h
  · split
    · next u hu =>
      obtain ⟨b, -, hd⟩ := Option.bind_eq_some_iff.mp hu
      dsimp only
      exact keeps_modStream (keeps_deliverFrame h b d hd) _ _
    · exact h

theorem keeps_flushStreams (h : Keeps lk a s) (ks : List Nat) : Keeps lk a (flushStreams s ks) :=
  keeps_foldl _ _ (foldl_keeps (fun p : State × List Nat => Keeps lk a p.1) _ (fun p d hp => keeps_flushFrame p hp d) _ _ h)
    fun _ k hu => keeps_topUp hu k

theorem keeps_flushCase (h : Keeps lk a s) (c : ℕ) :
    Keeps lk a (flushCase s c) := by
  grind [flushCase, keeps_flushStreams]

theorem keeps_flushAll (h : Keeps lk a s) :
    Keeps lk a (flushAll s) := by
  grind [flushAll, keeps_flushStreams]

theorem keeps_dropDeliveries (h : Keeps lk a s) (c : Nat) : Keeps lk a (dropDeliveries s c) := by
  unfold dropDeliveries
  refine keeps_foldl _ _ ?_ fun _ k hu => keeps_modStream hu k _
  split
  · exact keeps_modTiles h _ _ fun _ _ hx => hx
  · exact h

theorem keeps_unbindCase (h : Keeps lk a s) (c : Nat) : Keeps lk a (unbindCase s c) := by
  refine keeps_foldl _ _ h fun u k hu => ?_
  extract_lets x held s1 s2
  have refused : Keeps lk a s1 := keeps_foldl _ _ hu fun v d hv => keeps_refuseFrame hv k 1 d.frame
  refine keeps_topUp (keeps_mmapTiles (s := s2) (keeps_modStream refused k _) _ ?_) k
  exact fun _ _ hx => hx

theorem keeps_modCmp (h : Keeps lk a s) (t : ℕ) (k : ℕ) (f : Cmp → Cmp) :
    Keeps lk a (modCmp s t k f) := by
  grind [modCmp, keeps_modCt]

theorem keeps_toldWake (h : Keeps lk a s) (t k : Nat) :
    Keeps lk a (post (modDev s (fun d => { d with lastWake := 1 })) 0x005 0 1 t k) :=
  keeps_post (keeps_modDev h _ (fun _ hn => hn) rfl) _ _ _ _ _

theorem keeps_cmpWake (h : Keeps lk a s) (t k : Nat) : Keeps lk a (cmpWake s t k) := by
  unfold cmpWake
  extract_lets x told
  split
  · split
    · exact keeps_toldWake (keeps_modDev h _ (fun _ hn => hn) rfl) t k
    · exact h
  · split
    · exact h
    · extract_lets aim
      split
      · exact h
      · exact keeps_toldWake (keeps_modCase h _ _) t k

theorem keeps_coalesced (h : Keeps lk a s) (t : ℕ) (k : ℕ) (first : Bool) :
    Keeps lk a (coalesced s t k first) := by
  grind [coalesced, keeps_modCt, keeps_postTile]

theorem keeps_deliverEdge (h : Keeps lk a s) (t : ℕ) (k : ℕ) (writeOk : Bool) (e : List Byte) :
    Keeps lk a (deliverEdge s t k writeOk e) := by
  grind [deliverEdge, keeps_modCmp, keeps_coalesced, keeps_putEntryIo]

theorem keeps_cmpRefresh (h : Keeps lk a s) (t : ℕ) (k : ℕ) (writeOk : Bool) :
    Keeps lk a (cmpRefresh s t k writeOk) := by
  grind [cmpRefresh, keeps_settleFabric, keeps_modCmp, keeps_deliverEdge, keeps_cmpWake]

theorem keeps_cmpTake (h : Keeps lk a s) (t : ℕ) (k : ℕ) (w : AnalogIn) (writeOk : Bool) :
    Keeps lk a (cmpTake s t k w writeOk) := by
  grind [cmpTake, keeps_cmpRefresh, keeps_modCmp, keeps_fresh]

theorem keeps_cmpUndecide (h : Keeps lk a s) (t : ℕ) (k : ℕ) :
    Keeps lk a (cmpUndecide s t k) := by
  grind [cmpUndecide, keeps_cmpRefresh, keeps_modCmp]

theorem keeps_refreshBlank (h : Keeps lk a s) (t : ℕ) :
    Keeps lk a (refreshBlank s t) := by
  grind [refreshBlank, keeps_cmpRefresh, keeps_foldl]

theorem keeps_modTmr (h : Keeps lk a s) (t : ℕ) (k : ℕ) (f : Tmr → Tmr) :
    Keeps lk a (modTmr s t k f) := by
  grind [modTmr, keeps_modCt]

theorem keeps_changeTmr (h : Keeps lk a s) (t : ℕ) (k : ℕ) (f : Tmr → Tmr) :
    Keeps lk a (changeTmr s t k f) := by
  grind [changeTmr, keeps_modTmr, keeps_refreshBlank, keeps_settleFabric]

theorem stores_takeNext (x : Tile) (k : ℕ) (h : tileStoresOk x) :
    tileStoresOk (takeNext x k) := by
  grind [takeNext, stores_cfgWrite, = tileStoresOk_iff]

theorem keeps_startTmr (h : Keeps lk a s) (t : ℕ) (k : ℕ) :
    Keeps lk a (startTmr s t k) := by
  grind [startTmr, keeps_changeTmr]

theorem keeps_stopTmr (h : Keeps lk a s) (t : ℕ) (k : ℕ) :
    Keeps lk a (stopTmr s t k) := by
  grind [stopTmr, keeps_modTile, keeps_changeTmr, stores_takeNext]

theorem keeps_restartTmr (h : Keeps lk a s) (t : ℕ) (k : ℕ) :
    Keeps lk a (restartTmr s t k) := by
  grind [restartTmr, keeps_changeTmr, keeps_modTile, stores_takeNext, keeps_startTmr]

theorem keeps_rebaseTmrs (h : Keeps lk a s) (t : ℕ) :
    Keeps lk a (rebaseTmrs s t) := by
  grind [rebaseTmrs, keeps_modTmr, keeps_foldl, keeps_fresh]

theorem keeps_timerFalls (h : Keeps lk a s) :
    Keeps lk a (timerFalls s) := by
  grind [timerFalls, keeps_changeTmr, keeps_foldl]

theorem keeps_startEpoch (h : Keeps lk a s) (w : EpochWait) :
    Keeps lk a (startEpoch s w) := by
  grind [startEpoch, keeps_modHub]

theorem keeps_requestEpoch (h : Keeps lk a s) (w : EpochWait) :
    Keeps lk a (requestEpoch s w) := by
  grind [requestEpoch, keeps_startEpoch, keeps_modHub]

theorem keeps_modEpoch (h : Keeps lk a s) (f : Epoch → Epoch) :
    Keeps lk a (modEpoch s f) := by
  grind [modEpoch, keeps_modHub]

theorem keeps_leaveMask (h : Keeps lk a s) (t : ℕ) :
    Keeps lk a (leaveMask s t) := by
  grind [leaveMask, keeps_cases]

theorem keeps_halfRole (h : Keeps lk a s) (c : ℕ) (role : ℕ) (t : ℕ) :
    Keeps lk a (halfRole s c role t) := by
  grind [halfRole, keeps_modCase]

theorem keeps_handOver (h : Keeps lk a s) (t : ℕ) (m : ℕ) :
    Keeps lk a (handOver s t m) := by
  grind [handOver, keeps_modCyc]

theorem keeps_flipVc0 (h : Keeps lk a s) (t : Nat) : Keeps lk a (flipVc0 s t) := by
  unfold flipVc0
  split
  · exact h
  · next e he =>
    extract_lets s1 s2
    have flipped : Keeps lk a s1 := keeps_modEpoch (keeps_modNet h _ _) _
    split
    · split
      · have gone : Keeps lk a s2 := by
          refine keeps_leaveMask (keeps_modTile flipped t _ ?_) t
          exact fun _ hx => hx
        refine keeps_settleFaultN ?_
        split
        · exact gone
        · exact keeps_halfRole (keeps_handOver gone _ _) _ _ _
      · exact flipped
    all_goals exact flipped

theorem keeps_sendSwitch (h : Keeps lk a s) :
    Keeps lk a (sendSwitch s) := by
  grind [sendSwitch, keeps_modHub, keeps_cases]

theorem keeps_sendQuery (h : Keeps lk a s) (e : Epoch) :
    Keeps lk a (sendQuery s e) := by
  grind [sendQuery, keeps_modEpoch, keeps_post]

theorem keeps_powerTk (h : Keeps lk a s) (t : ℕ) :
    Keeps lk a (powerTk s t) := by
  grind [powerTk, keeps_modTile, keeps_modEpoch, = tileStoresOk_iff]

theorem keeps_wakeRouters (h : Keeps lk a s) :
    Keeps lk a (wakeRouters s) := by
  grind [wakeRouters, keeps_powerTk, keeps_foldl]

theorem keeps_epochGo (h : Keeps lk a s) :
    Keeps lk a (epochGo s) := by
  unfold epochGo
  grind [keeps_sendSwitch, keeps_flipVc0, keeps_sendQuery, keeps_foldl]

theorem keeps_epochSettle (h : Keeps lk a s) :
    Keeps lk a (epochSettle s) := by
  grind [epochSettle, keeps_wakeRouters, keeps_epochGo]

theorem keeps_endLeft (h : Keeps lk a s) (t : ℕ) :
    Keeps lk a (endLeft s t) := by
  grind [endLeft, keeps_complete, keeps_modCyc, keeps_foldl]

theorem keeps_retireDone (h : Keeps lk a s) (role : ℕ) (t : TileId) (q : Option Req) :
    Keeps lk a (retireDone s role t q) := by
  unfold retireDone
  grind [keeps_endLeft, keeps_complete, keeps_cases]

theorem keeps_promoteDone (h : Keeps lk a s) :
    Keeps lk a (promoteDone s) := by
  grind [promoteDone, keeps_modHub, keeps_modCase, keeps_settleFaultN, keeps_complete, keeps_post]

theorem keeps_shadowDone (h : Keeps lk a s) :
    Keeps lk a (shadowDone s) := by
  grind [shadowDone, keeps_complete, keeps_modHub]

theorem keeps_epochDrained (h : Keeps lk a s) (e : Epoch) :
    Keeps lk a (epochDrained s e) := by
  grind [epochDrained, keeps_post, keeps_modHub, keeps_retireDone, keeps_promoteDone, keeps_shadowDone, keeps_startEpoch]

theorem keeps_abortAll (h : Keeps lk a s) (qs : List Req) :
    Keeps lk a (abortAll s qs) := by
  grind [abortAll, keeps_complete, keeps_foldl]

theorem stores_dropCapture (x : Tile) (h : tileStoresOk x) :
    tileStoresOk (dropCapture x) := by
  grind [dropCapture, = tileStoresOk_iff]

theorem stores_applyInjChanges (x : Tile) (h : tileStoresOk x) : tileStoresOk (applyInjChanges x) :=
  foldl_keeps tileStoresOk (fun x (p : Nat × Req) => cfgWrite x 0x21 (136 + 16 * p.1) 10 (dBits p.2.d 32 10))
    (fun _ _ hx => stores_cfgWrite _ _ _ _ _ hx) x.cv.injChange x h

theorem stores_dropWaiters (x0 : Tile) (h : tileStoresOk x0) : tileStoresOk (dropWaiters x0) :=
  stores_applyInjChanges _ (stores_dropCapture x0 h)

theorem keeps_dropPending (h : Keeps lk a s) (t : ℕ) :
    Keeps lk a (dropPending s t) := by
  grind [dropPending, keeps_abortAll, keeps_modCal]

theorem keeps_dropCommit (h : Keeps lk a s) (load : Bool) (t : ℕ) :
    Keeps lk a (dropCommit load s t) := by
  grind [dropCommit, keeps_complete, keeps_modCal, keeps_calSelect]

theorem keeps_endTilePending (h : Keeps lk a s) (load : Bool) (t : Nat) : Keeps lk a (endTilePending load s t) := by
  unfold endTilePending
  extract_lets s1 s2 x checks s3 s4
  have clocks : Keeps lk a s1 := keeps_portBAll (keeps_foldl _ _ h fun _ k hu => keeps_restartClock hu t k) t
  have switches : Keeps lk a s2 := keeps_foldl _ _ (keeps_modAn clocks t _) fun _ c hu => keeps_complete hu _ _ _
  have waiters : Keeps lk a s3 := keeps_abortAll (keeps_modTile switches t _ fun y hy => stores_dropWaiters y hy) _
  have commit : Keeps lk a s4 := keeps_dropCommit (keeps_foldl _ _ waiters fun _ k hu => keeps_cmpRefresh hu t k true) load t
  split
  · exact keeps_dropPending commit t
  · exact commit

theorem keeps_abortRetire (h : Keeps lk a s) (c : ℕ) :
    Keeps lk a (abortRetire s c) := by
  unfold abortRetire
  (repeat' split) <;> grind [keeps_modCase, keeps_modNet, keeps_requestEpoch, keeps_complete, keeps_modEpoch]

theorem keeps_endCasePending (h : Keeps lk a s) (load : Bool) (c : Nat) : Keeps lk a (endCasePending load s c) := by
  unfold endCasePending
  split
  · exact h
  · next k hk =>
    extract_lets s1 s2 s3
    have tiles : Keeps lk a s1 := keeps_foldl _ _ (keeps_abortRetire h c) fun _ t hu => keeps_endTilePending hu load t
    have ended : Keeps lk a s3 := keeps_abandonCkpt (keeps_abortAll (keeps_modCase tiles c _) _) c
    split
    · exact keeps_modRcd ended _
    · exact ended

theorem keeps_latchPin (h : Keeps lk a s) (p : ℕ) (d : Option Bool) :
    Keeps lk a (latchPin s p d) := by
  grind [latchPin, keeps_modPin]

theorem keeps_sillHold (h : Keeps lk a s) (ps : List ℕ) :
    Keeps lk a (sillHold s ps) := by
  grind [sillHold, keeps_latchPin, keeps_foldl]

theorem keeps_floatPinsOf (h : Keeps lk a s) (ps : List ℕ) :
    Keeps lk a (floatPinsOf s ps) := by
  grind [floatPinsOf, keeps_modPin, keeps_foldl]

theorem keeps_releasePins (h : Keeps lk a s) (ps : List ℕ) :
    Keeps lk a (releasePins s ps) := by
  grind [releasePins, keeps_modPin, keeps_foldl]

theorem keeps_coldPin (h : Keeps lk a s) (p : ℕ) :
    Keeps lk a (coldPin s p) := by
  grind [coldPin, keeps_modTile, stores_cfgWrite, keeps_settleTin, = tileStoresOk_iff]

theorem keeps_settleGained (h : Keeps lk a s) (gained : ℕ → Bool) :
    Keeps lk a (settleGained s gained) := by
  grind [settleGained, keeps_settleTin, keeps_foldl]

theorem keeps_settleTins (h : Keeps lk a s) :
    Keeps lk a (settleTins s) := by
  grind [settleTins, keeps_settleGained]

theorem filter_wf (d : Nat → Byte) (m : List Host.Cell) (p : Host.Cell → Bool) (h : Memory.wf d m = true) :
    Memory.wf d (m.filter p) = true := by
  have above : ∀ lo, memWfFrom d lo m = true → memWfFrom d lo (m.filter p) = true := by
    clear h
    induction m with
    | nil => exact fun _ h => h
    | cons c r ih =>
      intro lo h
      obtain ⟨k, v⟩ := c
      simp only [memWfFrom, Bool.and_eq_true, decide_eq_true_eq] at h
      obtain ⟨⟨low, new⟩, rest⟩ := h
      rw [List.filter_cons]
      split
      · simp only [memWfFrom, Bool.and_eq_true, decide_eq_true_eq]
        exact ⟨⟨low, new⟩, ih _ rest⟩
      · exact memWfFrom_mono d _ lo (k + 1) (ih _ rest) (by omega)
  exact above 0 h

theorem bpStoresOk_cold : bpStoresOk BpState.cold := ((tileStoresOk_iff _).mp tileStoresOk_cold).2.2.1

theorem stores_clearedTile (x : Tile) (keep : List Nat) (h : tileStoresOk x) : tileStoresOk (clearedTile x keep) :=
  (tileStoresOk_iff _).mpr ⟨filter_wf _ _ _ ((tileStoresOk_iff x).mp h).1, rfl, bpStoresOk_cold, rfl⟩

theorem keeps_anPowerUp (h : Keeps lk a s) (t : ℕ) :
    Keeps lk a (anPowerUp s t) := by
  grind [anPowerUp, keeps_calInUse, keeps_calSelect, keeps_modTile, keeps_cmpUndecide, keeps_foldl, = tileStoresOk_iff]

theorem keeps_takeTile (h : Keeps lk a s) (keep : ℕ → List ℕ) (t : ℕ) :
    Keeps lk a (takeTile s keep t) := by
  grind [takeTile, keeps_anPowerUp, keeps_modTile, keeps_powerTk, stores_clearedTile, = tileStoresOk_iff]

theorem keeps_poolTile (h : Keeps lk a s) (keep : ℕ → List ℕ) (t : ℕ) :
    Keeps lk a (poolTile s keep t) := by
  grind [poolTile, keeps_modTile, keeps_powerTk, stores_clearedTile, = tileStoresOk_iff]

/-- The cells of one class of a tile's configuration space, from an offset on, are a store of their own that reads 0 where
it has no cell. -/
theorem cfgCells_wf (x : Tile) (cls off n : Nat) (h : Memory.wf cfgCold x.cfg = true)
    (cold : ∀ k, cfgAddr cls off ≤ k → k < cfgAddr cls (off + n) → cfgCold k = 0) :
    Memory.wf zeroes (cfgCells x cls off n) = true := by
  have above : ∀ (m : List Host.Cell) (lo : Nat), memWfFrom cfgCold lo m = true →
      memWfFrom zeroes (lo - cfgAddr cls off) ((m.filter (fun c => cfgAddr cls off ≤ c.1 && c.1 < cfgAddr cls (off + n))).map
        (fun c => (c.1 - cfgAddr cls off, c.2))) = true := by
    intro m
    induction m with
    | nil => exact fun _ _ => rfl
    | cons c r ih =>
      intro lo h
      obtain ⟨k, v⟩ := c
      simp only [memWfFrom, Bool.and_eq_true, decide_eq_true_eq] at h
      obtain ⟨⟨low, new⟩, rest⟩ := h
      rw [List.filter_cons]
      split
      · next inside =>
        simp only [Bool.and_eq_true, decide_eq_true_eq] at inside
        have there := ih _ rest
        rw [cold k inside.1 inside.2] at new
        simp only [List.map_cons, memWfFrom, Bool.and_eq_true, decide_eq_true_eq]
        exact ⟨⟨by omega, new⟩, by rwa [show k + 1 - cfgAddr cls off = k - cfgAddr cls off + 1 by omega] at there⟩
      · exact memWfFrom_mono zeroes _ _ _ (ih _ rest) (by omega)
  exact memWfFrom_mono zeroes _ 0 _ (above x.cfg 0 h) (Nat.zero_le _)

theorem cfgCold_eq_zero {k : Nat} (h : k < cfgAddr 0x18 152) : cfgCold k = 0 := by
  unfold cfgCold
  rw [if_neg]
  simp only [Bool.and_eq_true, decide_eq_true_eq]
  omega

theorem imageRam_wf (x : Tile) (h : Memory.wf cfgCold x.cfg = true) : Memory.wf zeroes (imageRam x) = true :=
  cfgCells_wf x _ _ _ h fun k _ hi => cfgCold_eq_zero (by simp only [cfgAddr] at *; omega)

theorem imageEmem_wf (x : Tile) (h : Memory.wf cfgCold x.cfg = true) : Memory.wf zeroes (imageSnap x).emem = true :=
  cfgCells_wf x _ _ _ h fun k _ hi => cfgCold_eq_zero (by simp only [cfgAddr] at *; omega)

theorem stores_frameEnd (x : Tile) (h : tileStoresOk x) : tileStoresOk (frameEnd x) := by
  obtain ⟨hcfg, -, hbp, -⟩ := (tileStoresOk_iff x).mp h
  exact (tileStoresOk_iff _).mpr ⟨hcfg, hcfg, hbp, imageRam_wf x hcfg⟩

theorem stores_stepLock (n : ℕ) (x : Tile) (h : tileStoresOk x) :
    tileStoresOk (stepLock n x) := by
  grind [stepLock, = tileStoresOk_iff]

theorem keeps_stateBank (h : Keeps lk a s) (t : ℕ) :
    Keeps lk a (stateBank s t) := by
  grind [stateBank, keeps_modPin, keeps_postTile]

theorem keeps_stateBanks (h : Keeps lk a s) (c : ℕ) :
    Keeps lk a (stateBanks s c) := by
  grind [stateBanks, keeps_stateBank, keeps_foldl]

theorem keeps_stepOutputs (h : Keeps lk a s) (c : ℕ) (ts : List ℕ) :
    Keeps lk a (stepOutputs s c ts) := by
  grind [stepOutputs, keeps_releasePins, keeps_settleGained, keeps_modTiles, = tileStoresOk_iff]

theorem keeps_startConverter (h : Keeps lk a s) (t : ℕ) :
    Keeps lk a (startConverter s t) := by
  grind [startConverter, keeps_cvPump, keeps_modTile, = tileStoresOk_iff]

theorem keeps_startCmp (h : Keeps lk a s) (t : ℕ) (k : ℕ) :
    Keeps lk a (startCmp s t k) := by
  grind [startCmp, keeps_settleFabric, keeps_modCmp]

theorem keeps_startTimers (h : Keeps lk a s) (t : ℕ) :
    Keeps lk a (startTimers s t) := by
  grind [startTimers, keeps_startCmp, keeps_restartTmr, keeps_foldl]

theorem keeps_startFabric (h : Keeps lk a s) (t : ℕ) :
    Keeps lk a (startFabric s t) := by
  grind [startFabric, keeps_settleFabric, keeps_modTile, = tileStoresOk_iff]

theorem stores_withInitBank (x : Tile) (z : Snap) (r : List Host.Cell) (h : tileStoresOk x)
    (hz : Memory.wf zeroes z.emem = true) (hr : Memory.wf zeroes r = true) :
    tileStoresOk { x with bp := { x.bp with initBank := z, initRam := r } } := by
  obtain ⟨hcfg, himg, ⟨hemem, -, -, hbanks⟩, hram⟩ := (tileStoresOk_iff x).mp h
  exact (tileStoresOk_iff _).mpr ⟨hcfg, himg, ⟨hemem, hz, hr, hbanks⟩, hram⟩

theorem stores_fillInitBank (x : Tile) (h : tileStoresOk x) : tileStoresOk (fillInitBank x) :=
  stores_withInitBank x _ _ h (imageEmem_wf x ((tileStoresOk_iff x).mp h).1) (imageRam_wf x ((tileStoresOk_iff x).mp h).1)

theorem stores_fromInitBank (x : Tile) (h : tileStoresOk x) :
    tileStoresOk (fromInitBank x) := by
  grind [fromInitBank, = tileStoresOk_iff, = bpStoresOk]

theorem keeps_stepState (h : Keeps lk a s) (t : ℕ) :
    Keeps lk a (stepState s t) := by
  unfold stepState
  grind [keeps_settleFabric, keeps_modTile, stores_fromInitBank, stores_fillInitBank, keeps_startTimers, keeps_startConverter, keeps_startFabric]

theorem stores_stepWrites (x : Tile) (h : tileStoresOk x) :
    tileStoresOk (stepWrites x) := by
  grind [stepWrites, = tileStoresOk_iff]

theorem stores_applyPoke (b : BpState) (p : Poke) (h : bpStoresOk b) :
    bpStoresOk (applyPoke b p) := by
  grind [applyPoke, = bpStoresOk, memPuts_wf]

theorem keeps_markDirty (h : Keeps lk a s) (t : ℕ) (ws : List ℕ) :
    Keeps lk a (markDirty s t ws) := by
  grind [markDirty, keeps_modHub]

theorem stores_clearCycle (d : ℕ) (x : Tile) (h : tileStoresOk x) :
    tileStoresOk (clearCycle d x) := by
  grind [clearCycle, = tileStoresOk_iff, = bpStoresOk]

theorem memPut_foldl_wf {α : Type} (d : Nat → Byte) (at_ : α → Nat) (v : α → Byte) (l : List α) (m : List Host.Cell)
    (h : Memory.wf d m = true) : Memory.wf d (l.foldl (fun m a => memPut d m (at_ a) (v a)) m) = true :=
  foldl_keeps (fun m => Memory.wf d m = true) _ (fun m x hm => memPut_wf d m (at_ x) (v x) hm) l m h

theorem stores_promoted (x v : Tile) (y : Tile) (hcfg : y.cfg = x.cfg) (himg : y.img = x.img) (hfab : y.fab.ram = x.fab.ram)
    (hinit : y.bp.initBank = x.bp.initBank) (hram : y.bp.initRam = x.bp.initRam) (hemem : y.bp.emem = v.bp.emem)
    (hhold : y.bp.holdBank = v.bp.holdBank) (hckpt : y.bp.ckptBank = none) (hx : tileStoresOk x) (hv : tileStoresOk v) :
    tileStoresOk y := by
  rw [tileStoresOk_iff, bpStoresOk] at *
  rw [hcfg, himg, hfab, hinit, hram, hemem, hhold, hckpt]
  obtain ⟨xcfg, ximg, ⟨-, xinit, xram, -⟩, xfab⟩ := hx
  obtain ⟨-, -, ⟨vemem, -, -, vbanks⟩, -⟩ := hv
  exact ⟨xcfg, ximg, ⟨vemem, xinit, xram, fun z hz => vbanks z (hz.elim .inl nofun)⟩, xfab⟩

theorem keeps_promoteSpare (h : Keeps lk a s) (p : Promo) (n : BitVec 64) : Keeps lk a (promoteSpare s p n) := by
  unfold promoteSpare
  extract_lets v old new_ lines runs moved s1 s2 bp s3 s4 stile s5 s6 s7
  have settings : Keeps lk a s1 := keeps_modTile h _ _ fun x hx => by
    obtain ⟨hcfg, rest⟩ := (tileStoresOk_iff x).mp hx
    exact (tileStoresOk_iff _).mpr ⟨memPut_foldl_wf cfgCold id _ moved _ hcfg, rest⟩
  have started : Keeps lk a s2 := keeps_startTimers (keeps_startConverter (keeps_startFabric
    (keeps_modTile settings _ _ stores_fillInitBank) _) _) _
  have copied : Keeps lk a s3 := keeps_setTile started _ _ fun ok =>
    stores_promoted (getTile s2 new_) v _ rfl rfl rfl rfl rfl rfl rfl rfl (started.tile _ ok) (h.tile _ ok)
  have pins : Keeps lk a s5 := keeps_foldl _ _ (keeps_modCase copied _ _) fun u q hu => by
    split
    · exact keeps_modTile hu _ _ fun x hx => stores_cfgWrite _ _ _ _ _ hx
    · exact hu
  exact keeps_settleFabric (keeps_settleGained (keeps_modHub (keeps_modCyc pins _ _) _) _) _

theorem keeps_promoteAt (h : Keeps lk a s) (t : ℕ) (n : BitVec 64) :
    Keeps lk a (promoteAt s t n) := by
  grind [promoteAt, keeps_promoteSpare, keeps_promoteDone]

theorem keeps_releaseChanges (h : Keeps lk a s) (k : Casement) (c t : Nat) (n : BitVec 64) :
    Keeps lk a (releaseChanges s k c t n) := by
  unfold releaseChanges
  split
  · exact keeps_foldl _ _ h fun u p hu => keeps_modTile hu t _ fun x hx => stores_replayApply x _ p hx
  · extract_lets y ds ps cost s1 s2 s3
    have applied : Keeps lk a s1 := keeps_modTile h t _ fun x hx => by
      obtain ⟨hcfg, himg, ⟨hemem, hbanks⟩, hram⟩ := (tileStoresOk_iff x).mp hx
      have delivered : Memory.wf zeroes (ds.foldl applyDelivery x.bp.emem) = true :=
        foldl_keeps (fun m => Memory.wf zeroes m = true) applyDelivery (fun m d hm => memPuts_wf _ _ _ _ hm) ds _ hemem
      exact (tileStoresOk_iff _).mpr ⟨hcfg, himg, foldl_keeps bpStoresOk applyPoke (fun b p hb => stores_applyPoke b p hb) ps
        { x.bp with emem := ds.foldl applyDelivery x.bp.emem } ⟨delivered, hbanks⟩, hram⟩
    have recorded : Keeps lk a s2 := by
      unfold s2
      split
      · exact keeps_modJnlCase applied _ _
      · exact applied
    exact keeps_foldl _ _ (keeps_markDirty recorded _ _) fun u p hu => keeps_complete hu _ _ _

theorem keeps_releaseTile (h : Keeps lk a s) (c : ℕ) (t : ℕ) (n : BitVec 64) :
    Keeps lk a (releaseTile s c t n) := by
  unfold releaseTile
  (repeat' split) <;> grind [keeps_releaseChanges, keeps_modBp, keeps_modTile, stores_clearCycle, keeps_promoteAt, keeps_flipVc0, = tileStoresOk_iff, = bpStoresOk]

theorem keeps_applyControl (h : Keeps lk a s) (c : ℕ) (n : ℕ) (q : Req) :
    Keeps lk a (applyControl c n s q) := by
  grind [applyControl, keeps_modJnlCase, keeps_jnlSync, keeps_jnlZeroRefs, keeps_complete]

theorem keeps_applyMark (h : Keeps lk a s) (c : ℕ) (n : ℕ) (q : Req) :
    Keeps lk a (applyMark c n s q) := by
  grind [applyMark, keeps_complete, keeps_jnlRecord]

theorem keeps_journalRelease (h : Keeps lk a s) (c n : Nat) : Keeps lk a (journalRelease s c n) := by
  unfold journalRelease
  split
  · exact h
  · next k0 _ =>
    extract_lets s1 s2
    have resumed : Keeps lk a s2 := keeps_resumeGap (keeps_foldl _ _ (keeps_modJnlCase h c _) fun u q hu =>
      keeps_applyControl hu c n q) c n
    split
    · exact resumed
    · next k _ =>
      extract_lets ins s3 s4
      have recorded : Keeps lk a s3 := by
        unfold s3
        split
        · exact keeps_foldl _ _ (keeps_jnlInputs resumed _ _ _) fun u r hu => keeps_jnlRecord hu _ _ _ _
        · exact resumed
      have told : Keeps lk a s4 := keeps_modJnlCase recorded c _
      split
      · exact keeps_foldl _ _ (keeps_modJnlCase told c _) fun u q hu => keeps_complete hu _ _ _
      · split
        · exact told
        · exact keeps_foldl _ _ (keeps_modJnlCase told c _) fun u q hu => keeps_applyMark hu c n q

theorem keeps_applyRate (h : Keeps lk a s) (c : ℕ) (n : ℕ) (r : RateChange) :
    Keeps lk a (applyRate c n s r) := by
  grind [applyRate, keeps_complete, keeps_modCase]

theorem keeps_postWake (h : Keeps lk a s) (source : ℕ) :
    Keeps lk a (postWake s source) := by
  grind [postWake, keeps_post, keeps_modDev]

theorem keeps_wakeByCommand (h : Keeps lk a s) (c : ℕ) :
    Keeps lk a (wakeByCommand s c) := by
  grind [wakeByCommand, keeps_modCase, keeps_postWake]

theorem keeps_pwrReached (h : Keeps lk a s) (c : ℕ) (p : Pwr) (n : ℕ) :
    Keeps lk a (pwrReached s c p n) := by
  grind [pwrReached, keeps_complete, keeps_modCase, keeps_wakeByCommand, keeps_foldl]

theorem keeps_completeAll {α : Type} (h : Keeps lk a s) (l : List α) (q : α → Req) (st : Status) (res : Nat) :
    Keeps lk a (l.foldl (fun s x => complete (q x) st res s) s) :=
  keeps_foldl _ _ h fun _ _ hu => keeps_complete hu _ _ _

theorem keeps_lastRelease (h : Keeps lk a s) (c : Nat) (n : BitVec 64) : Keeps lk a (lastRelease s c n) := by
  unfold lastRelease
  split
  · exact h
  · split
    · exact h
    · extract_lets s1 s2 due s3 s4 s5 s6
      have journal : Keeps lk a s2 := keeps_journalRelease (keeps_modCase h c _) c _
      have rates : Keeps lk a s3 := keeps_foldl _ _ (keeps_modCase journal c _) fun _ r hu => keeps_applyRate hu c _ r
      have resumed : Keeps lk a s4 := keeps_completeAll (keeps_modCase rates c _) _ id _ _
      exact keeps_flushCase (keeps_epochSettle (keeps_modCase (keeps_pwrReached resumed c _ _) c _)) c

theorem keeps_startCycles (h : Keeps lk a s) (c : Nat) : Keeps lk a (startCycles s c) := by
  unfold startCycles
  split
  · exact h
  · extract_lets ts s1 s2
    have closed : Keeps lk a s1 := keeps_modTiles_same h _ _
    exact keeps_lastRelease (keeps_foldl _ _ (keeps_wakeRouters (keeps_modCase closed c _)) fun _ t hu =>
      keeps_releaseTile hu c t 0) c 0

theorem keeps_dropAnswer (h : Keeps lk a s) :
    Keeps lk a (dropAnswer s) := by
  grind [dropAnswer, keeps_modStream]

theorem keeps_restLoader (h : Keeps lk a s) :
    Keeps lk a (restLoader s) := by
  grind [restLoader, keeps_dropAnswer, keeps_modLoad]

theorem keeps_dropSpare (h : Keeps lk a s) (t : ℕ) :
    Keeps lk a (dropSpare s t) := by
  grind [dropSpare, keeps_settleTins, keeps_poolTile]

theorem keeps_endPromo (h : Keeps lk a s) (st : Status) (res : ℕ) :
    Keeps lk a (endPromo s st res) := by
  grind [endPromo, keeps_dropSpare, keeps_modHub, keeps_requestEpoch, keeps_restLoader, keeps_complete]

theorem keeps_abortPromo (h : Keeps lk a s) (c : ℕ) :
    Keeps lk a (abortPromo s c) := by
  grind [abortPromo, keeps_endPromo]

theorem keeps_resetConverter (h : Keeps lk a s) (t : ℕ) :
    Keeps lk a (resetConverter s t) := by
  grind [resetConverter, keeps_cvPump, keeps_applyPending, keeps_modCv]

theorem keeps_resetTile (h : Keeps lk a s) (t : ℕ) :
    Keeps lk a (resetTile s t) := by
  unfold resetTile
  grind [keeps_settleFabric, keeps_modTile, stores_fromInitBank, keeps_restartTmr, keeps_resetConverter, keeps_startFabric, keeps_foldl, = tileStoresOk_iff, = bpStoresOk]

theorem stores_tookCkpt (d : Nat) (x : Tile) (h : tileStoresOk x) :
    tileStoresOk { x with bp := { x.bp with ckptBank := some (snapOf x d) } } := by
  obtain ⟨hcfg, himg, ⟨hemem, hinit, hiram, hbanks⟩, hram⟩ := (tileStoresOk_iff x).mp h
  refine (tileStoresOk_iff _).mpr ⟨hcfg, himg, ⟨hemem, hinit, hiram, fun z hz => ?_⟩, hram⟩
  rcases hz with hold | ckpt
  · exact hbanks z (.inl hold)
  · cases ckpt
    exact hemem

theorem keeps_ckptZero (h : Keeps lk a s) (c : Nat) : Keeps lk a (ckptZero s c) := by
  unfold ckptZero
  split
  · exact h
  · next k _ =>
    split
    · exact h
    · exact keeps_beginCkpt (keeps_modTiles (keeps_modJnlCase h c _) _ _ fun _ x hx => stores_tookCkpt k.depth x hx) c 0

theorem keeps_resetCase (h : Keeps lk a s) (c : Nat) (q : Req) : Keeps lk a (resetCase s c q) := by
  unfold resetCase
  split
  · exact h
  · extract_lets last s1 s2 s3 s4 s5
    have ended : Keeps lk a s1 := keeps_dropDeliveries (keeps_abortPromo (keeps_endCasePending h false c) c) c
    have tiles : Keeps lk a s3 := keeps_foldl _ _ (keeps_jnlResetRecord (keeps_modCase ended c _) c last) fun _ t hu =>
      keeps_resetTile hu t
    have started : Keeps lk a s4 := keeps_startCycles (keeps_ckptZero tiles c) c
    have told : Keeps lk a s5 := by
      unfold s5
      split
      · exact keeps_postPwr started c _ _
      · exact started
    exact keeps_settleFaultN (keeps_complete (keeps_post told _ _ _ _ _) q _ _)

theorem keeps_freePins (h : Keeps lk a s) (c : ℕ) :
    Keeps lk a (freePins s c) := by
  grind [freePins, keeps_floatPinsOf, keeps_coldPin, keeps_modDev, keeps_foldl]

theorem keeps_dissolveCase (h : Keeps lk a s) (c : Nat) (q : Req) : Keeps lk a (dissolveCase s c q) := by
  unfold dissolveCase
  split
  · exact h
  · extract_lets s1 s2 gone s3 s4
    have freed : Keeps lk a s1 := keeps_freePins (keeps_unbindCase (keeps_abortPromo (keeps_endCasePending h true c) c) c) c
    have pooled : Keeps lk a s2 := keeps_foldl _ _ freed fun _ t hu => keeps_poolTile hu _ t
    have roles : Keeps lk a s3 := by
      unfold s3
      split
      · exact pooled
      · exact keeps_requestEpoch pooled _
    have settled : Keeps lk a s4 := keeps_settleFabric (keeps_settleTins (keeps_cases roles _)) s
    exact keeps_settleFaultN (keeps_complete (keeps_post (keeps_modDev_same settled _) _ _ _ _ _) q _ _)

theorem stores_closeShutter (x : Tile) (h : tileStoresOk x) :
    tileStoresOk (closeShutter x) := by
  grind [closeShutter, = tileStoresOk_iff]

theorem stores_takeCleared (keep : ℕ → List ℕ) (t : ℕ) (x : Tile) (h : tileStoresOk x) :
    tileStoresOk (takeCleared keep t x) := by
  grind [takeCleared, stores_closeShutter, stores_clearedTile, = tileStoresOk_iff]

theorem keeps_takePins (h : Keeps lk a s) (c : ℕ) :
    Keeps lk a (takePins s c) := by
  grind [takePins, keeps_floatPinsOf, keeps_sillHold, keeps_coldPin, keeps_foldl]

theorem keeps_takeTarget (h : Keeps lk a s) : Keeps lk a (takeTarget s) := by
  unfold takeTarget
  extract_lets cs s1 s2 s3 d c t2 t3 t4
  have ended : Keeps lk a s1 := keeps_foldl _ _ h fun _ c hu =>
    keeps_unbindCase (keeps_abortPromo (keeps_endCasePending hu true c) c) c
  split
  · have floating : Keeps lk a s3 := keeps_floatPinsOf (keeps_modTiles ended _ _ fun t x hx => stores_takeCleared _ t x hx) _
    exact keeps_settleFaultN (keeps_settleFabric (keeps_settleTins (keeps_modDev_same (keeps_cases floating [])
      (fun d => { d with pinCase := [], trunks := [] }))) s)
  · have cleared : Keeps lk a t3 := keeps_modTiles (keeps_takePins ended c) _ _ fun t x hx => stores_takeCleared _ t x hx
    have freed : Keeps lk a t4 := keeps_modDev_same cleared _
    exact keeps_settleFaultN (keeps_settleFabric (keeps_settleTins (keeps_modCase freed c _)) s)

theorem keeps_takeoverGo (h : Keeps lk a s) :
    Keeps lk a (takeoverGo s) := by
  grind [takeoverGo, keeps_takeTarget]

theorem keeps_stopGo (h : Keeps lk a s) (c : ℕ) :
    Keeps lk a (stopGo s c) := by
  grind [stopGo, keeps_takeoverGo, keeps_resetCase, keeps_dissolveCase]

theorem keeps_dropReset (h : Keeps lk a s) (c : ℕ) :
    Keeps lk a (dropReset s c) := by
  grind [dropReset, keeps_complete, keeps_modCase]

theorem keeps_beginStop (h : Keeps lk a s) (c : ℕ) (why : Stop) :
    Keeps lk a (beginStop s c why) := by
  grind [beginStop, keeps_modCase, keeps_dropReset, keeps_stopGo]

theorem rollCommit_locks (d : Device) (i v : Nat) : (rollCommit d i v).locks = d.locks := by
  unfold rollCommit
  split <;> rfl

theorem rollCommit_keys (d : Device) (i v : Nat) : (rollCommit d i v).keys = d.keys := by
  unfold rollCommit
  split <;> rfl

theorem keeps_rollRaise (h : Keeps lk a s) (i floor : Nat) : Keeps lk a (rollRaise s i floor) := by
  unfold rollRaise
  extract_lets v s1
  have raised : Keeps lk a s1 :=
    keeps_modDev h _ (fun _ hn => by rw [rollCommit_locks]; exact hn) (rollCommit_keys _ _ _)
  by_cases low : v < floor
  · rw [if_pos low]
    exact keeps_post raised _ _ _ _ _
  · rw [if_neg low]
    exact raised

theorem keeps_rollSelect (h : Keeps lk a s) :
    Keeps lk a (rollSelect s) := by
  grind [rollSelect, keeps_modDev, keeps_post]

theorem keeps_loadEnd (h : Keeps lk a s) (st : Status) (phase : ℕ) (reason : ℕ) (tile : ℕ) (frame : ℕ) :
    Keeps lk a (loadEnd s st phase reason tile frame) := by
  grind [loadEnd, keeps_modLoad, keeps_dropAnswer, keeps_complete]

theorem stores_failedTile (x : Tile) (h : tileStoresOk x) :
    tileStoresOk (failedTile x) := by
  grind [failedTile, = tileStoresOk_iff]

theorem keeps_failPartial (h : Keeps lk a s) (c : Nat) : Keeps lk a (failPartial s c) := by
  unfold failPartial
  split
  · exact h
  · extract_lets s0 s1 s2
    have ended : Keeps lk a s0 := keeps_dropReset (keeps_endCasePending h true c) c
    have pins : Keeps lk a s1 := by
      unfold s1
      split
      · exact keeps_floatPinsOf ended _
      · exact keeps_sillHold ended _
    exact keeps_settleFabric (keeps_settleTins (keeps_modCase (keeps_modTiles pins _ _ fun _ x hx => stores_failedTile x hx) c _)) s

theorem keeps_failFull (h : Keeps lk a s) : Keeps lk a (failFull s) := by
  unfold failFull
  extract_lets s1 s2 d s3
  have ended : Keeps lk a s2 := keeps_floatPinsOf (keeps_foldl _ _ h fun _ c hu =>
    keeps_unbindCase (keeps_dropReset (keeps_endCasePending hu true c) c) c) _
  have pooled : Keeps lk a s3 := keeps_foldl _ _ (keeps_modDev_same (keeps_cases ended [])
    (fun d => { d with pinCase := [], trunks := [], changed := 0 })) fun _ t hu => keeps_poolTile hu _ t
  exact keeps_settleFabric (keeps_settleTins (keeps_modLoad pooled _)) s

theorem keeps_shadowStop (h : Keeps lk a s) (st : Status) (res : ℕ) :
    Keeps lk a (shadowStop s st res) := by
  grind [shadowStop, keeps_dropSpare, keeps_modHub, keeps_complete, keeps_restLoader, keeps_foldl]

theorem keeps_loadStop (h : Keeps lk a s) (st : Status) (reason : ℕ) (tile : ℕ) (frame : ℕ) :
    Keeps lk a (loadStop s st reason tile frame) := by
  grind [loadStop, keeps_endPromo, keeps_shadowStop, keeps_loadEnd, keeps_post, keeps_failFull, keeps_failPartial, keeps_settleFaultN]

theorem keeps_loadLoses (h : Keeps lk a s) (t : ℕ) :
    Keeps lk a (loadLoses s t) := by
  grind [loadLoses, keeps_loadStop]

theorem keeps_recWrite (h : Keeps lk a s) (writeOk : Bool) (time : Time) (code : BitVec 12) (src : BitVec 4) (arg : BitVec 32) (summary : Bool) (held : Bool) :
    Keeps lk a (recWrite s writeOk time code src arg summary held) := by
  grind [recWrite, keeps_modRcd, keeps_putEntryIo, keeps_foldl]

theorem keeps_takeToken (h : Keeps lk a s) (code : ℕ) {u : State} (e : takeToken s code = some u) :
    Keeps lk a u := by
  grind [takeToken, keeps_setBucket]

theorem keeps_setLimit (h : Keeps lk a s) (q : Req) :
    Keeps lk a (setLimit s q) := by
  grind [setLimit, keeps_setBucket]

theorem keeps_recQueue (h : Keeps lk a s) (writeOk : Bool) (e : Ev) :
    Keeps lk a (recQueue s writeOk e) := by
  grind [recQueue, keeps_modRcd]

theorem keeps_recTake (h : Keeps lk a s) (writeOk : Bool) (e : Ev) :
    Keeps lk a (recTake s writeOk e) := by
  grind [recTake, keeps_takeToken, keeps_recQueue, keeps_suppress, keeps_complete]

theorem keeps_recFrom (h : Keeps lk a s) (writeOk : Bool) (e : Ev) :
    Keeps lk a (recFrom s writeOk e) := by
  grind [recFrom, keeps_recWrite, keeps_complete, keeps_modRcd, keeps_setLimit]

theorem keeps_recTick (h : Keeps lk a s) :
    Keeps lk a (recTick s) := by
  grind [recTick, keeps_recFrom, keeps_modRcd]

theorem keeps_recOwn (h : Keeps lk a s) (e : Ev) :
    Keeps lk a (recOwn s e) := by
  grind [recOwn, keeps_recTick, keeps_recQueue, keeps_postEv]

theorem keeps_recPowerUp (h : Keeps lk a s) : Keeps lk a (recPowerUp s) := by
  unfold recPowerUp
  extract_lets c r next lap0 wrap stored newest now gap r1 s1 s2 s3
  have clock : Keeps lk a s1 := keeps_modDev_same (keeps_modRcd h fun _ => r1) fun d => { d with now := now }
  have gapTold : Keeps lk a s2 := by
    unfold s2
    split
    · exact keeps_recWrite clock _ _ _ _ _ _ _
    · exact clock
  have told : Keeps lk a s3 := keeps_recWrite gapTold _ _ _ _ _ _ _
  split
  · exact keeps_recWrite told _ _ _ _ _ _ _
  · exact told

theorem keeps_hubClose (h : Keeps lk a s) (c : ℕ) (sec : ℕ) :
    Keeps lk a (hubClose s c sec) := by
  grind [hubClose, keeps_modTiles, keeps_modCase, keeps_decideCkpt, = tileStoresOk_iff]

theorem keeps_hubsGo (h : Keeps lk a s) (c : ℕ) :
    Keeps lk a (hubsGo s c) := by
  grind [hubsGo, keeps_hubClose, keeps_foldl]

theorem keeps_takeSectorDone (h : Keeps lk a s) (c : ℕ) (sec : ℕ) (j : ℕ) :
    Keeps lk a (takeSectorDone s c sec j) := by
  grind [takeSectorDone, keeps_hubClose, keeps_modCase]

theorem keeps_takeArrive (h : Keeps lk a s) (c : ℕ) (sec : ℕ) (t : ℕ) :
    Keeps lk a (takeArrive s c sec t) := by
  grind [takeArrive, keeps_hubClose, keeps_modCase]

theorem keeps_barrierFault (h : Keeps lk a s) (c : ℕ) (sec : ℕ) (wireIdx : ℕ) :
    Keeps lk a (barrierFault s c sec wireIdx) := by
  grind [barrierFault, keeps_settleFaultN, keeps_epochSettle, keeps_post, keeps_modCase]

theorem keeps_holdTimers (h : Keeps lk a s) (ts : List ℕ) :
    Keeps lk a (holdTimers s ts) := by
  grind [holdTimers, keeps_modTmr, keeps_foldl]

theorem keeps_enterDoze (h : Keeps lk a s) (c : ℕ) (from_ : CaseSt) :
    Keeps lk a (enterDoze s c from_) := by
  unfold enterDoze
  (repeat' split) <;> grind [keeps_modTiles, keeps_holdTimers, keeps_postPwr, keeps_modCase, = tileStoresOk_iff]

theorem keeps_sleepGo (h : Keeps lk a s) : Keeps lk a (sleepGo s) := by
  unfold sleepGo
  split
  · exact h
  · split
    · exact h
    · extract_lets s1 s2 alarm s3
      have held : Keeps lk a s2 := keeps_modRcd (keeps_sillHold h _) _
      have asked : Keeps lk a s3 := keeps_modDev_same held _
      exact keeps_foldl _ _ (keeps_post asked _ _ _ _ _) fun _ q hu => keeps_complete hu q _ _

theorem keeps_journalClose (h : Keeps lk a s) (c : ℕ) (n : ℕ) :
    Keeps lk a (journalClose s c n) := by
  grind [journalClose, keeps_jnlOutputs, keeps_jnlDigests]

theorem keeps_promoClose (h : Keeps lk a s) (c : ℕ) :
    Keeps lk a (promoClose s c) := by
  grind [promoClose, keeps_modHub, keeps_requestEpoch]

theorem keeps_dropEntry (h : Keeps lk a s) (c : ℕ) :
    Keeps lk a (dropEntry s c) := by
  grind [dropEntry, keeps_modCase, keeps_complete, keeps_foldl]

theorem keeps_pauseAt (h : Keeps lk a s) (c n : Nat) : Keeps lk a (pauseAt s c n) := by
  unfold pauseAt
  split
  · exact h
  · next k _ =>
    extract_lets s1 s2 s3 s4
    have paused : Keeps lk a s2 := by
      unfold s2
      split
      · split
        · exact keeps_complete (keeps_modCase (keeps_modCase h c _) c _) _ _ _
        · exact keeps_modCase h c _
      · exact keeps_modCase h c _
    have stepped : Keeps lk a s3 := keeps_foldl _ _ (keeps_modCase paused c _) fun _ p hu => keeps_complete hu _ _ _
    have dozed : Keeps lk a s4 := by
      unfold s4
      split
      · exact keeps_dropEntry stepped c
      · split
        · exact keeps_pwrReached (keeps_enterDoze stepped c _) c _ n
        · exact stepped
    exact keeps_settleFaultN (keeps_sleepGo (keeps_stopGo (keeps_epochSettle dozed) c))

theorem keeps_settleLintel (h : Keeps lk a s) (c : Nat) : Keeps lk a (settleLintel s c) := by
  unfold settleLintel
  split
  · exact h
  · extract_lets n s1 s2 s3 s4
    split
    · exact h
    · have compared : Keeps lk a s1 := by
        unfold s1
        split
        · exact keeps_replayClose h c n
        · exact keeps_journalClose h c n
      have ckpt : Keeps lk a s3 := keeps_promoClose (keeps_beginCkpt (keeps_modJnlCase (keeps_modCase compared c _) c _) c _) c
      have closed : Keeps lk a s4 := keeps_modCase ckpt c _
      split
      · exact closed
      · split
        · exact closed
        · exact keeps_pauseAt closed c n

theorem keeps_servePeek (h : Keeps lk a s) (t : ℕ) (n : ℕ) (p : Peek) :
    Keeps lk a (servePeek t n s p) := by
  grind [servePeek, keeps_complete, keeps_hostWrite, keeps_dmaFail]

theorem keeps_comparePair (h : Keeps lk a s) (c : ℕ) (t : ℕ) (n : ℕ) :
    Keeps lk a (comparePair s c t n) := by
  grind [comparePair, keeps_modCase, keeps_post]

theorem stores_scrubUnitDone (b : BpState) (h : bpStoresOk b) :
    bpStoresOk (scrubUnitDone b) := by
  grind [scrubUnitDone, = bpStoresOk]

theorem stores_closed (x : Tile) (b : BpState) (y : CycState) (d : Nat) (taking : Bool) (h : tileStoresOk x)
    (hemem : b.emem = x.bp.emem) (hinit : b.initBank = x.bp.initBank) (hram : b.initRam = x.bp.initRam)
    (hhold : b.holdBank = x.bp.holdBank)
    (hckpt : b.ckptBank = if taking then some (snapOf { x with bp := { x.bp with outB := x.bp.staging } } d) else x.bp.ckptBank) :
    tileStoresOk { x with bp := b, cyc := y } := by
  obtain ⟨xcfg, ximg, ⟨xemem, xinit, xram, xbanks⟩, xfab⟩ := (tileStoresOk_iff x).mp h
  refine (tileStoresOk_iff _).mpr ⟨xcfg, ximg, ⟨hemem ▸ xemem, hinit ▸ xinit, hram ▸ xram, fun z hz => ?_⟩, xfab⟩
  rw [hhold, hckpt] at hz
  rcases hz with hold | ckpt
  · exact xbanks z (.inl hold)
  · split at ckpt
    · cases ckpt
      exact xemem
    · exact xbanks z (.inr ckpt)

theorem keeps_closeTile (h : Keeps lk a s) (c t : Nat) : Keeps lk a (closeTile s c t) := by
  unfold closeTile
  split
  · exact h
  · next k _ =>
    extract_lets x n served cost s1
    have closed : Keeps lk a s1 := by
      refine keeps_settleFabric (keeps_modTile h t _ fun x hx => ?_) s
      exact stores_closed x _ _ k.depth k.jnl.taking hx rfl rfl rfl rfl rfl
    exact keeps_settleLintel (keeps_comparePair (keeps_foldl _ _ closed fun _ p hu => keeps_servePeek hu t n p) c t n) c

theorem keeps_bufferBundle (h : Keeps lk a s) (t : ℕ) (srcRole : ℕ) (b : Bundle) :
    Keeps lk a (bufferBundle s t srcRole b) := by
  grind [bufferBundle, keeps_postTile, keeps_modCyc]

theorem keeps_passHeld (h : Keeps lk a s) (t : ℕ) (role : ℕ) (partner : ℕ) :
    Keeps lk a (passHeld s t role partner) := by
  grind [passHeld, keeps_modCyc, keeps_bufferBundle, keeps_foldl]

theorem keeps_releaseLeft (h : Keeps lk a s) (c : ℕ) :
    Keeps lk a (releaseLeft s c) := by
  grind [releaseLeft, keeps_lastRelease]

theorem keeps_goSilent (h : Keeps lk a s) (t cause : Nat) : Keeps lk a (goSilent s t cause) := by
  unfold goSilent
  split
  · exact h
  · extract_lets role partner wasRef cs s1 s2 s3 s4 s5 s6
    have told : Keeps lk a s2 := keeps_postTile (keeps_leaveMask (keeps_modTile_same h t _) t) _ _ _ _ _ _
    have handed : Keeps lk a s3 := by
      unfold s3
      rcases partner with _ | m
      · exact told
      · exact keeps_handOver told _ _
    have passed : Keeps lk a s4 := by
      unfold s4
      clear_value s3 role partner
      split
      · split
        · exact keeps_foldl _ _ handed fun _ u hu => keeps_passHeld hu u _ _
        · exact handed
      · exact handed
    have promoted : Keeps lk a s5 := by
      unfold s5
      split
      · split
        · exact keeps_modTile_same (keeps_endPromo passed _ _) t _
        · exact passed
      · exact passed
    have hubs : Keeps lk a s6 := by
      unfold s6
      rcases cs with _ | c
      · exact promoted
      · exact keeps_releaseLeft (keeps_settleLintel (keeps_hubsGo promoted _) _) _
    exact keeps_loadLoses (keeps_settleFabric (keeps_epochSettle hubs) s) t

theorem stores_pairCells (x : Tile) (h : tileStoresOk x) : tileStoresOk (pairCells x) := by
  refine foldl_keeps tileStoresOk _ (fun x k hx => ?_) [0, 2, 4, 6] x h
  extract_lets c
  split
  · exact hx
  · split <;> exact stores_cfgWrite _ _ _ _ _ hx

theorem keeps_askFetch (h : Keeps lk a s) :
    Keeps lk a (askFetch s) := by
  grind [askFetch, keeps_drawNat, keeps_modLoad, keeps_sendCtl]

theorem keeps_beginPass (h : Keeps lk a s) (ph : LoadPhase) :
    Keeps lk a (beginPass s ph) := by
  grind [beginPass, keeps_modLoad, keeps_dropAnswer]

theorem keeps_headStep (h : Keeps lk a s) {u : State} (e : headStep s = some u) :
    Keeps lk a u := by
  grind [headStep, keeps_loadStop, keeps_modLoad]

theorem keeps_frameStep (h : Keeps lk a s) {u : State} (e : frameStep s = some u) :
    Keeps lk a u := by
  grind [frameStep, keeps_loadStop, keeps_modLoad]

theorem keeps_beginTakeover (h : Keeps lk a s) :
    Keeps lk a (beginTakeover s) := by
  grind [beginTakeover, keeps_modLoad, keeps_modCase, keeps_takeTarget, keeps_beginStop, keeps_foldl]

theorem keeps_pass1Done (h : Keeps lk a s) (tr : List Byte) :
    Keeps lk a (pass1Done s tr) := by
  grind [pass1Done, keeps_beginPass, keeps_post, keeps_rollRaise, keeps_beginTakeover, keeps_modLoad]

theorem keeps_trailerStep (h : Keeps lk a s) {u : State} (e : trailerStep s = some u) :
    Keeps lk a u := by
  grind [trailerStep, keeps_loadStop, keeps_pass1Done]

theorem writeFrame_wf (keep : Nat → Bool) (cfg : List Host.Cell) (f : Frame) (h : Memory.wf cfgCold cfg = true) :
    Memory.wf cfgCold (writeFrame keep cfg f) = true := memPut_foldl_wf cfgCold _ _ _ _ h

theorem keeps_applyFrame (h : Keeps lk a s) (f : Frame) : Keeps lk a (applyFrame s f) :=
  keeps_foldl _ _ h fun u p hu => keeps_modTile hu _ _ fun x hx => by
    obtain ⟨hcfg, rest⟩ := (tileStoresOk_iff x).mp hx
    exact (tileStoresOk_iff _).mpr ⟨writeFrame_wf _ _ _ hcfg, rest⟩

theorem keeps_claimTrunks (h : Keeps lk a s) (t : ℕ) (c : ℕ) :
    Keeps lk a (claimTrunks s t c) := by
  grind [claimTrunks, keeps_modDev, keeps_foldl]

theorem keeps_loadApplied (h : Keeps lk a s) :
    Keeps lk a (loadApplied s) := by
  grind [loadApplied, keeps_claimTrunks, keeps_modTile, stores_frameEnd, stores_pairCells, keeps_foldl]

theorem keeps_promoteApplied (h : Keeps lk a s) :
    Keeps lk a (promoteApplied s) := by
  grind [promoteApplied, keeps_modTile, keeps_restLoader, stores_stepLock, stores_frameEnd]

theorem stores_shadowTables (base : Nat) (rank : Nat → Nat) (x : Tile) (h : tileStoresOk x) : tileStoresOk (shadowTables base rank x) := by
  unfold shadowTables
  generalize List.range 128 = l
  refine foldl_keeps tileStoresOk _ (fun y e hy => ?_) l _ (foldl_keeps tileStoresOk _ (fun y e hy => ?_) l x h)
  all_goals
    dsimp only
    split
    · exact stores_cfgWrite _ _ _ _ _ hy
    · exact hy

theorem stores_shadowTile (n base : Nat) (rank : Nat → Nat) (x : Tile) (h : tileStoresOk x) : tileStoresOk (shadowTile n base rank x) := by
  have full := stores_fromInitBank _ (stores_fillInitBank _ (stores_stepLock n _ (stores_frameEnd _ (stores_shadowTables base rank x h))))
  unfold shadowTile
  generalize fromInitBank (fillInitBank (stepLock n (frameEnd (shadowTables base rank x)))) = y at full ⊢
  exact full

theorem keeps_shadowApplied (h : Keeps lk a s) : Keeps lk a (shadowApplied s) := by
  unfold shadowApplied
  split
  · exact h
  · split
    · exact h
    · next e _ =>
      extract_lets c fs rank src roles ts s1 k0 k s2
      have tiles : Keeps lk a s1 := keeps_foldl _ _ h fun u t hu =>
        keeps_startFabric (keeps_modTile hu t _ fun x hx => stores_shadowTile e.n _ rank x hx) t
      exact keeps_requestEpoch (keeps_settleFabric (keeps_restLoader (keeps_setCase tiles _ _)) s) _

theorem keeps_pass2Step (h : Keeps lk a s) {u : State} (e : pass2Step s = some u) :
    Keeps lk a u := by
  grind [pass2Step, keeps_loadStop, keeps_modLoad, keeps_applyFrame, keeps_loadApplied, keeps_promoteApplied, keeps_shadowApplied]

theorem keeps_loadStep (h : Keeps lk a s) {u : State} (e : loadStep s = some u) :
    Keeps lk a u := by
  grind [loadStep, keeps_headStep, keeps_frameStep, keeps_trailerStep, keeps_pass2Step]

theorem keeps_loadRun (h : Keeps lk a s) (ph : LoadPhase) (n : Nat) : Keeps lk a (loadRun ph n s) := by
  induction n generalizing s with
  | zero => exact h
  | succ n ih =>
    unfold loadRun
    split
    · exact h
    · split
      · exact h
      · next u hu => exact ih (keeps_loadStep h hu)

theorem keeps_feedLoader (h : Keeps lk a s) (bytes : List Byte) (ended : Bool) :
    Keeps lk a (feedLoader s bytes ended) := by
  grind [feedLoader, keeps_loadRun, keeps_modLoad, keeps_loadStop]

theorem keeps_sourceLost (h : Keeps lk a s) (g2 : HostId) :
    Keeps lk a (sourceLost s g2) := by
  grind [sourceLost, keeps_loadStop]

theorem keeps_beginPass2 (h : Keeps lk a s) :
    Keeps lk a (beginPass2 s) := by
  unfold beginPass2
  grind [keeps_takeTile, keeps_requestEpoch, keeps_settleFabric, keeps_beginPass, keeps_loadStop, keeps_foldl]

theorem keeps_refuseLoad (h : Keeps lk a s) (st : Status) (reason : ℕ) :
    Keeps lk a (refuseLoad st reason s).2 := by
  grind [refuseLoad, keeps_post]

theorem keeps_acceptLoad (h : Keeps lk a s) (q : Req) :
    Keeps lk a (acceptLoad q s) := by
  grind [acceptLoad, keeps_modLoad, keeps_dropAnswer, keeps_post]

theorem keeps_cfgLoadBody (h : Keeps lk a s) (q : Req) :
    Keeps lk a (cfgLoadBody q s).2 := by
  grind [cfgLoadBody, keeps_refuseLoad, keeps_acceptLoad]

theorem keeps_restoreDefaults (h : Keeps lk a s) (m : BitVec 32) :
    Keeps lk a (restoreDefaults s m) := by
  grind [restoreDefaults, keeps_modDev, keeps_post, keeps_foldl]

theorem keeps_assignPins (h : Keeps lk a s) (t : ℕ) (c : ℕ) :
    Keeps lk a (assignPins s t c) := by
  grind [assignPins, keeps_modDev]

theorem keeps_caseStartUp (h : Keeps lk a s) (e : CaseEntry) :
    Keeps lk a (caseStartUp s e) := by
  grind [caseStartUp, keeps_assignPins, keeps_setCase, keeps_modTiles, stores_stepLock, keeps_modCase, keeps_foldl, = tileStoresOk_iff]

theorem keeps_enterStartUp (h : Keeps lk a s) :
    Keeps lk a (enterStartUp s) := by
  grind [enterStartUp, keeps_restoreDefaults, keeps_modLoad, keeps_poolTile, keeps_settleFabric, keeps_caseStartUp, keeps_foldl]

theorem keeps_caseStarted (h : Keeps lk a s) (c : ℕ) :
    Keeps lk a (caseStarted s c) := by
  grind [caseStarted, keeps_jnlLoadRecord, keeps_modJnlCase, keeps_post, keeps_startCycles, keeps_modCase]

theorem keeps_loadOver (h : Keeps lk a s) :
    Keeps lk a (loadOver s) := by
  grind [loadOver, keeps_modLoad, keeps_modDev, keeps_settleFaultN, keeps_loadEnd]

theorem keeps_stepAction (h : Keeps lk a s) (c : ℕ) (code : ℕ) (ts : List ℕ) :
    Keeps lk a (stepAction s c code ts) := by
  unfold stepAction
  grind [keeps_settleFabric, keeps_stepOutputs, keeps_stateBanks, keeps_stepState, keeps_modTiles, stores_stepWrites, keeps_foldl]

theorem keeps_startUpNext (h : Keeps lk a s) (c : ℕ) :
    Keeps lk a (startUpNext s c) := by
  unfold startUpNext
  grind [keeps_stepAction, keeps_modCase, keeps_loadOver, keeps_caseStarted]

theorem keeps_nowStartUp (h : Keeps lk a s) :
    Keeps lk a (nowStartUp s) := by
  grind [nowStartUp, keeps_enterStartUp]

theorem keeps_cfgStatusBody (h : Keeps lk a s) (q : Req) :
    Keeps lk a (cfgStatusBody q s).2 := by
  grind [cfgStatusBody, keeps_checked, keeps_replyCopy]

theorem keeps_writeSlot (h : Keeps lk a s) (action : Nat) (r : List Byte)
    (free : action = 1 → (keySlot s (byteAt r 1)).programmed = false) : Keeps lk a (writeSlot action r s) :=
  h.trans ⟨rfl, fun _ _ hn => hn, fun n => by
    by_cases hn : n = byteAt r 1
    · subst hn
      by_cases one : action = 1
      · intro programmed
        rw [free one] at programmed
        cases programmed
      · simp only [keySlot, writeSlot, modDev, if_neg one, mget_mset_self]
        exact fun programmed => ⟨programmed, rfl, fun _ => rfl⟩
    · simp only [keySlot, writeSlot, modDev, mget_mset_ne _ _ _ _ _ hn]
      exact .refl _, id⟩

theorem keeps_keyAction (h : Keeps lk a s) (action : Nat) (q : Req) : Keeps lk a (keyAction action q s).2 := by
  unfold keyAction
  extract_lets r
  split
  · exact h
  · split
    · exact h
    · next good =>
      split
      · next first =>
        refine keeps_writeSlot h action r fun _ => ?_
        simp only [badKeyRecord, Bool.or_eq_true, decide_eq_true_eq, not_or] at good
        simp only [Bool.and_eq_true, List.all_eq_true, List.mem_range, Bool.not_eq_true'] at first
        exact first.1.2 _ (by omega)
      · unfold checked
        split
        · exact h
        · next passed =>
          refine keeps_post (keeps_writeSlot h action r fun one => ?_) _ _ _ _ _
          simp only [keyRows, firstOf, one] at passed
          grind

theorem keeps_cfgKeyBody (h : Keeps lk a s) (action : ℕ) (q : Req) :
    Keeps lk a (cfgKeyBody action q s).2 := by
  grind [cfgKeyBody, keeps_checked, keeps_keyAction]

theorem keeps_linkLost (h : Keeps lk a s) (cause : ℕ) :
    Keeps lk a (linkLost s cause) := by
  grind [linkLost, keeps_post, keeps_modBsp]

theorem keeps_takeCredit (h : Keeps lk a s) (stream : ℕ) (credits : ℕ) :
    Keeps lk a (takeCredit s stream credits) := by
  grind [takeCredit, keeps_modBsp]

theorem keeps_ackSegments (h : Keeps lk a s) (seqNo : BitVec 12) :
    Keeps lk a (ackSegments s seqNo) := by
  grind [ackSegments, keeps_modBsp, keeps_modJnl]

theorem keeps_resendFrom (h : Keeps lk a s) (seqNo : BitVec 12) :
    Keeps lk a (resendFrom s seqNo) := by
  grind [resendFrom, keeps_linkLost, keeps_modBsp]

theorem keeps_takeFrame (h : Keeps lk a s) (k : ℕ) (f : List Byte) :
    Keeps lk a (takeFrame s k f) := by
  grind [takeFrame, keeps_refuseFrame, keeps_modStream, keeps_modBsp]

theorem keeps_patternSegment (h : Keeps lk a s) (k : ℕ) (first : Bool) (last : Bool) (data : List Byte) :
    Keeps lk a (patternSegment s k first last data) := by
  unfold patternSegment
  grind [keeps_modStream, keeps_refuseFrame, keeps_flushStreams, keeps_takeFrame]

theorem keeps_imageSegment (h : Keeps lk a s) (first : Bool) (last : Bool) (data : List Byte) :
    Keeps lk a (imageSegment s first last data) := by
  grind [imageSegment, keeps_modStream, keeps_loadStop, keeps_feedLoader, keeps_modLoad]

theorem keeps_nakSegment (h : Keeps lk a s) (fails : Bool) :
    Keeps lk a (nakSegment s fails) := by
  grind [nakSegment, keeps_sendCtl, keeps_modBsp, keeps_linkLost]

theorem keeps_useSegment (h : Keeps lk a s) (k : ℕ) (first : Bool) (last : Bool) (data : List Byte) :
    Keeps lk a (useSegment s k first last data) := by
  grind [useSegment, keeps_post, keeps_modBsp, keeps_modStream, keeps_topUp, keeps_imageSegment, keeps_patternSegment]

theorem keeps_takeSegment (h : Keeps lk a s) (hdr : BitVec 64) (payload : List Byte) (crc : BitVec 32) :
    Keeps lk a (takeSegment s hdr payload crc) := by
  grind [takeSegment, keeps_nakSegment, keeps_sendCtl, keeps_modBsp, keeps_useSegment]

theorem keeps_setRxSeg (h : Keeps lk a s) (r : RxSeg) :
    Keeps lk a (setRxSeg s r) := by
  grind [setRxSeg, keeps_modBsp]

theorem keeps_dataBlock (h : Keeps lk a s) (x : BitVec 64) :
    Keeps lk a (dataBlock s x) := by
  grind [dataBlock, keeps_nakSegment, keeps_setRxSeg, keeps_takeSegment]

theorem keeps_ctlArrives (h : Keeps lk a s) (x : BitVec 64) :
    Keeps lk a (ctlArrives s x) := by
  grind [ctlArrives, keeps_nakSegment, keeps_setRxSeg, keeps_takeCredit, keeps_ackSegments, keeps_resendFrom, keeps_modBsp]

theorem keeps_takeBlock (h : Keeps lk a s) (b : LinkBlock) :
    Keeps lk a (takeBlock s b) := by
  grind [takeBlock, keeps_modBsp, keeps_dataBlock, keeps_ctlArrives]

theorem keeps_sendSegment (h : Keeps lk a s) (k : ℕ) (upTo : ℕ) (data : List Byte) :
    Keeps lk a (sendSegment s k upTo data) := by
  grind [sendSegment, keeps_modBsp]

theorem keeps_linkTick (h : Keeps lk a s) :
    Keeps lk a (linkTick s) := by
  grind [linkTick, keeps_drawNat, keeps_modBsp]

theorem keeps_someOf (h : Keeps lk a s) (site : ℕ) (n : ℕ) :
    Keeps lk a (someOf s site n).2 := by
  grind [someOf, keeps_drawNat]

theorem keeps_sendExports (h : Keeps lk a s) :
    Keeps lk a (sendExports s) := by
  grind [sendExports, keeps_someOf, keeps_sendSegment, keeps_modBsp]

theorem keeps_sendJournal (h : Keeps lk a s) :
    Keeps lk a (sendJournal s) := by
  grind [sendJournal, keeps_someOf, keeps_sendSegment, keeps_modBsp]

theorem keeps_sendRecords (h : Keeps lk a s) :
    Keeps lk a (sendRecords s) := by
  grind [sendRecords, keeps_someOf, keeps_sendSegment, keeps_modBsp]

theorem keeps_relink (h : Keeps lk a s) (q : Req) :
    Keeps lk a (relink q s).2 := by
  grind [relink, keeps_complete, keeps_modBsp]

theorem keeps_bspLinkBody (h : Keeps lk a s) (q : Req) :
    Keeps lk a (bspLinkBody q s).2 := by
  grind [bspLinkBody, keeps_checked, keeps_relink]

theorem keeps_bspStatusBody (h : Keeps lk a s) (q : Req) :
    Keeps lk a (bspStatusBody q s).2 := by
  grind [bspStatusBody, keeps_checked, keeps_replyCopy]

theorem keeps_unbindStream (h : Keeps lk a s) (k : ℕ) :
    Keeps lk a (unbindStream s k) := by
  grind [unbindStream, keeps_refuseFrame, keeps_topUp, keeps_modStream, keeps_foldl]

theorem keeps_bspStreamBindBody (h : Keeps lk a s) (q : Req) :
    Keeps lk a (bspStreamBindBody q s).2 := by
  grind [bspStreamBindBody, keeps_checked, keeps_markChanged, keeps_flushStreams, keeps_modStream, keeps_unbindStream]

theorem keeps_bspExportSetBody (h : Keeps lk a s) (q : Req) :
    Keeps lk a (bspExportSetBody q s).2 := by
  grind [bspExportSetBody, keeps_checked, keeps_markChanged, keeps_modCv]

theorem keeps_bspStreamResetBody (h : Keeps lk a s) (q : Req) :
    Keeps lk a (bspStreamResetBody q s).2 := by
  grind [bspStreamResetBody, keeps_checked, keeps_modStream]

theorem keeps_bspOutSetBody (h : Keeps lk a s) (q : Req) :
    Keeps lk a (bspOutSetBody q s).2 := by
  grind [bspOutSetBody, keeps_checked, keeps_modBsp]

theorem keeps_takeResult (h : Keeps lk a s) (t : ℕ) (f : ConvFor) (ok : Bool) (raw : ℕ) :
    Keeps lk a (takeResult s t f ok raw) := by
  grind [takeResult, keeps_mergeResult, keeps_modCv, keeps_excludeResult]

theorem keeps_endSlotRun (h : Keeps lk a s) (t : Nat) : Keeps lk a (endSlotRun s t) := by
  unfold endSlotRun
  extract_lets x
  split
  · exact h
  · next j i _ =>
    split
    · exact h
    · extract_lets s1
      have ended : Keeps lk a s1 := keeps_modTile h t _ fun y hy => by
        split
        · exact stores_cfgWrite _ _ _ _ _ hy
        · exact hy
      split
      · split
        · exact keeps_complete ended _ _ _
        · exact keeps_complete ended _ _ _
      · exact ended

theorem keeps_endSequence (h : Keeps lk a s) (t : ℕ) :
    Keeps lk a (endSequence s t) := by
  grind [endSequence, keeps_modCv]

theorem keeps_endSystemCapture (h : Keeps lk a s) (t : ℕ) (c : Capture) (set : ℕ) (high : Bool) :
    Keeps lk a (endSystemCapture s t c set high) := by
  grind [endSystemCapture, keeps_complete, keeps_modCal]

theorem keeps_endZeroRound (h : Keeps lk a s) (t : ℕ) (c : Capture) (cell : ℕ) (round : ℕ) (trim : BitVec 8) (old : BitVec 8) :
    Keeps lk a (endZeroRound s t c cell round trim old) := by
  grind [endZeroRound, keeps_modCv]

theorem keeps_endSlices (h : Keeps lk a s) (t : ℕ) (c : Capture) (sums : List ℕ) :
    Keeps lk a (endSlices s t c sums) := by
  grind [endSlices, keeps_complete, keeps_postTile, keeps_modTile, stores_beginCommit]

theorem keeps_endCapture (h : Keeps lk a s) (t : ℕ) :
    Keeps lk a (endCapture s t) := by
  grind [endCapture, keeps_modCv, keeps_endSystemCapture, keeps_endZeroRound, keeps_endSlices, keeps_complete]

theorem keeps_captureResult (h : Keeps lk a s) (t : ℕ) (ok : Bool) (raw : ℕ) :
    Keeps lk a (captureResult s t ok raw) := by
  grind [captureResult, keeps_modCv]

theorem keeps_shadowWait (h : Keeps lk a s) (q : Req) (x : Tile) (hx : storesOk a → tileStoresOk x) :
    Keeps lk a (shadowWait q x s).2 := by
  have set : Keeps lk a (setTile s (dByte q.d 28) { x with cv := { x.cv with shadowWait := x.cv.shadowWait ++ [q] } }) :=
    keeps_setTile h _ _ hx
  exact keeps_cvPump (keeps_markChanged set _) _

theorem keeps_cvSetupBody (h : Keeps lk a s) (q : Req) : Keeps lk a (cvSetupBody q s).2 := by
  unfold cvSetupBody
  exact keeps_checked h _ _ (keeps_shadowWait h q _ fun ok => stores_cfgWrite _ _ _ _ _ (h.tile _ ok))

theorem keeps_cvSeqSetBody (h : Keeps lk a s) (q : Req) : Keeps lk a (cvSeqSetBody q s).2 := by
  unfold cvSeqSetBody
  extract_lets t first n bad
  refine keeps_checked h _ _ ?_
  extract_lets x written
  split
  · exact h
  · split
    · exact h
    · exact keeps_shadowWait h q _ fun ok => stores_cfgWrite _ _ _ _ _ (h.tile _ ok)

theorem keeps_cvInjSetBody (h : Keeps lk a s) (q : Req) :
    Keeps lk a (cvInjSetBody q s).2 := by
  grind [cvInjSetBody, keeps_checked, keeps_modCv, keeps_modTile, stores_cfgWrite, keeps_markChanged]

theorem keeps_cvStartBody (h : Keeps lk a s) (q : Req) :
    Keeps lk a (cvStartBody q s).2 := by
  grind [cvStartBody, keeps_checked, keeps_cvTrigger]

theorem keeps_cvInjectBody (h : Keeps lk a s) (q : Req) :
    Keeps lk a (cvInjectBody q s).2 := by
  grind [cvInjectBody, keeps_checked, keeps_cvRequest, keeps_modCv]

theorem keeps_cvAccSetBody (h : Keeps lk a s) (q : Req) :
    Keeps lk a (cvAccSetBody q s).2 := by
  grind [cvAccSetBody, keeps_checked, keeps_markChanged, keeps_settleFabric, keeps_modTile, stores_cfgWrite]

theorem keeps_cvAccReadBody (h : Keeps lk a s) (q : Req) : Keeps lk a (cvAccReadBody q s).2 := by
  unfold cvAccReadBody
  extract_lets t
  refine keeps_checked h _ _ ?_
  extract_lets x e bytes s1
  have cleared : Keeps lk a s1 := by
    unfold s1
    split
    · exact keeps_settleFabric (keeps_modTile (keeps_edgeTime h) t _ fun y hy =>
        foldl_keeps tileStoresOk _ (fun z n hz => stores_setAcc z n _ hz) _ y hy) _
    · exact keeps_edgeTime h
  split
  · exact keeps_replyCopy cleared _ _ _
  · exact h

theorem keeps_cvTrkReadBody (h : Keeps lk a s) (q : Req) : Keeps lk a (cvTrkReadBody q s).2 := by
  unfold cvTrkReadBody
  extract_lets t
  refine keeps_checked h _ _ ?_
  extract_lets x e bytes s1
  have cleared : Keeps lk a s1 := by
    unfold s1
    split
    · exact keeps_settleFabric (keeps_modTile (keeps_edgeTime h) t _ fun y hy =>
        foldl_keeps tileStoresOk _ (fun z n hz => stores_setTrk z n _ hz) _ y hy) _
    · exact keeps_edgeTime h
  split
  · exact keeps_replyCopy cleared _ _ _
  · exact h

theorem keeps_cvSnapBody (h : Keeps lk a s) (q : Req) :
    Keeps lk a (cvSnapBody q s).2 := by
  grind [cvSnapBody, keeps_checked, keeps_edgeTime, keeps_settleFabric, keeps_snapAcc, keeps_foldl]

theorem keeps_cvStatusBody (h : Keeps lk a s) (q : Req) :
    Keeps lk a (cvStatusBody q s).2 := by
  grind [cvStatusBody, keeps_checked, keeps_replyCopy]

theorem keeps_requestCapture (h : Keeps lk a s) (q : Req) (kind : CapKind) (entry : ℕ) (want : ℕ) :
    Keeps lk a (requestCapture q kind entry want s).2 := by
  grind [requestCapture, keeps_cvPump, keeps_modCv]

theorem keeps_calCaptureBody (h : Keeps lk a s) (q : Req) :
    Keeps lk a (calCaptureBody q s).2 := by
  grind [calCaptureBody, keeps_checked, keeps_requestCapture]

theorem keeps_calComputeBody (h : Keeps lk a s) (q : Req) :
    Keeps lk a (calComputeBody q s).2 := by
  grind [calComputeBody, keeps_checked, keeps_modTile, stores_beginCommit, keeps_postTile]

theorem keeps_calCellZeroBody (h : Keeps lk a s) (q : Req) :
    Keeps lk a (calCellZeroBody q s).2 := by
  grind [calCellZeroBody, keeps_checked, keeps_requestCapture]

theorem keeps_calSliceBody (h : Keeps lk a s) (q : Req) :
    Keeps lk a (calSliceBody q s).2 := by
  grind [calSliceBody, keeps_checked, keeps_requestCapture]

theorem keeps_calLimitsBody (h : Keeps lk a s) (q : Req) :
    Keeps lk a (calLimitsBody q s).2 := by
  grind [calLimitsBody, keeps_checked, keeps_modTile, stores_beginCommit]

theorem keeps_calReadBody (h : Keeps lk a s) (q : Req) :
    Keeps lk a (calReadBody q s).2 := by
  grind [calReadBody, keeps_checked, keeps_replyCopy]

theorem keeps_enterFlits (h : Keeps lk a s) (t : ℕ) (k : ℕ) (fs : List Moving) :
    Keeps lk a (enterFlits s t k fs) := by
  grind [enterFlits, keeps_modNet]

theorem keeps_enterBounce (h : Keeps lk a s) (t : ℕ) (p : Packet) :
    Keeps lk a (enterBounce s t p) := by
  grind [enterBounce, keeps_countIn, keeps_dropPacket, keeps_enterFlits]

theorem keeps_bounceAt (h : Keeps lk a s) (t : ℕ) (g2 : BitVec 64) (data : List Byte) (st : Status) :
    Keeps lk a (bounceAt s t g2 data st) := by
  grind [bounceAt, keeps_dropPacket, keeps_modNet, keeps_countOut, keeps_enterBounce]

theorem keeps_enterPacket (h : Keeps lk a s) (t : ℕ) (port : ℕ) (p : Packet) :
    Keeps lk a (enterPacket s t port p) := by
  grind [enterPacket, keeps_countIn, keeps_dropPacket, keeps_bounceAt, keeps_enterFlits]

theorem keeps_judge (h : Keeps lk a s) (t : ℕ) (k : ℕ) (m : Moving) :
    Keeps lk a (judge s t k m) := by
  grind [judge, keeps_countIn, keeps_dropPacket, keeps_modNet, keeps_bounceAt, keeps_foldl]

theorem keeps_deliver (h : Keeps lk a s) (t : ℕ) (fs : List Flit) :
    Keeps lk a (deliver s t fs) := by
  unfold deliver
  grind [keeps_countOut, keeps_modNet]

theorem keeps_popHead (h : Keeps lk a s) (t : ℕ) (k : ℕ) :
    Keeps lk a (popHead s t k) := by
  grind [popHead, keeps_modNet, keeps_deliver]

theorem keeps_queueAct (h : Keeps lk a s) (t : ℕ) (k : ℕ) :
    Keeps lk a (queueAct s t k) := by
  grind [queueAct, keeps_judge, keeps_modNet, keeps_popHead]

theorem keeps_joinQueue (h : Keeps lk a s) (t : ℕ) (k : ℕ) (ms : List Moving) :
    Keeps lk a (joinQueue s t k ms) := by
  grind [joinQueue, keeps_modNet]

theorem keeps_enterAct (h : Keeps lk a s) (t : ℕ) (k : ℕ) :
    Keeps lk a (enterAct s t k) := by
  grind [enterAct, keeps_joinQueue, keeps_modNet]

theorem keeps_routerWork (h : Keeps lk a s) (x1 : ℕ) (x3 : ℕ) :
    Keeps lk a (routerWork x1 s x3) := by
  fun_induction routerWork <;> grind [keeps_enterAct, keeps_queueAct, keeps_foldl]

theorem keeps_routerSettle (h : Keeps lk a s) (t : ℕ) :
    Keeps lk a (routerSettle s t) := by
  grind [routerSettle, keeps_routerWork]

theorem keeps_leaveRouter (h : Keeps lk a s) (u : ℕ) (port : ℕ) (c : Crossing) :
    Keeps lk a (leaveRouter s u port c) := by
  grind [leaveRouter, keeps_modNet, keeps_popHead]

theorem keeps_crossLink (h : Keeps lk a s) (t port : Nat) (c : Crossing) : Keeps lk a (crossLink s t port c) :=
  keeps_routerSettle (keeps_routerSettle (keeps_joinQueue (keeps_modNet (keeps_leaveRouter (keeps_fresh h _) _ _ _) _ _) _ _ _) _) _

theorem keeps_staleDrop (h : Keeps lk a s) (t : ℕ) (g2 : BitVec 64) :
    Keeps lk a (staleDrop s t g2) := by
  grind [staleDrop, keeps_modNet, keeps_postTile]

theorem keeps_linkEpoch (h : Keeps lk a s) (t : ℕ) (port : ℕ) (down : Bool) :
    Keeps lk a (linkEpoch s t port down) := by
  grind [linkEpoch, keeps_requestEpoch]

theorem keeps_turnBranches (h : Keeps lk a s) (t : ℕ) (port : ℕ) :
    Keeps lk a (turnBranches s t port) := by
  unfold turnBranches
  grind [keeps_countIn, keeps_countOut, keeps_dropPacket, keeps_modNet, keeps_foldl]

theorem keeps_linkDown (h : Keeps lk a s) (t port : Nat) : Keeps lk a (linkDown s t port) := by
  unfold linkDown
  split
  · exact h
  · split
    · exact keeps_settleFaultN (keeps_postTile (keeps_modNet h t _) _ _ _ _ _ _)
    · extract_lets u s1 s2 s3 s4
      have told : Keeps lk a s3 := keeps_postTile (keeps_postTile (keeps_modNet (keeps_modNet h t _) u _) _ _ _ _ _ _) _ _ _ _ _ _
      have turned : Keeps lk a s4 := keeps_turnBranches (keeps_turnBranches told t port) u _
      exact keeps_settleFaultN (keeps_linkEpoch (keeps_routerSettle (keeps_routerSettle turned t) u) _ _ _)

theorem keeps_linkUp (h : Keeps lk a s) (t : ℕ) (port : ℕ) :
    Keeps lk a (linkUp s t port) := by
  grind [linkUp, keeps_modNet, keeps_settleFaultN, keeps_linkEpoch]

theorem keeps_postFault (h : Keeps lk a s) (t : ℕ) (x2 : StoreFault) :
    Keeps lk a (postFault t s x2) := by
  unfold postFault
  grind [keeps_postTile, keeps_modBp, = bpStoresOk]

theorem keeps_storeFaults (h : Keeps lk a s) (t : ℕ) (fs : List StoreFault) :
    Keeps lk a (storeFaults s t fs).2 := by
  grind [storeFaults, keeps_postFault, keeps_goSilent, keeps_foldl]

theorem keeps_stallEdge (h : Keeps lk a s) (t : ℕ) (counts : Bool) (f : Stalls → Stalls) :
    Keeps lk a (stallEdge s t counts f) := by
  grind [stallEdge, keeps_modCyc]

theorem keeps_importStall (h : Keeps lk a s) (t : ℕ) :
    Keeps lk a (importStall s t) := by
  grind [importStall, keeps_stallEdge]

theorem keeps_lintelStall (h : Keeps lk a s) (t : ℕ) (counts : Bool) :
    Keeps lk a (lintelStall s t counts) := by
  grind [lintelStall, keeps_stallEdge]

theorem keeps_pacingStall (h : Keeps lk a s) (t : ℕ) :
    Keeps lk a (pacingStall s t) := by
  grind [pacingStall, keeps_stallEdge]

theorem keeps_generatorStall (h : Keeps lk a s) (t : ℕ) (counts : Bool) :
    Keeps lk a (generatorStall s t counts) := by
  grind [generatorStall, keeps_stallEdge]

theorem keeps_runStep (h : Keeps lk a s) (t : ℕ) :
    Keeps lk a (runStep s t) := by
  grind [runStep, stores_landDue, keeps_markDirty, keeps_execStep, keeps_setTile, keeps_modCyc, Keeps.tile]

theorem keeps_programmeEdge (h : Keeps lk a s) (t : ℕ) (seen : List StoreFault) :
    Keeps lk a (programmeEdge s t seen) := by
  grind [programmeEdge, keeps_importStall, keeps_storeFaults, keeps_runStep]

theorem keeps_barrierEdge (h : Keeps lk a s) (t : ℕ) (seen : List StoreFault) :
    Keeps lk a (barrierEdge s t seen) := by
  grind [barrierEdge, keeps_modCyc, keeps_lintelStall, keeps_storeFaults, keeps_modBp, stores_scrubUnitDone]

theorem keeps_closedEdge (h : Keeps lk a s) (t : ℕ) (k : Casement) :
    Keeps lk a (closedEdge s t k) := by
  grind [closedEdge, keeps_pacingStall, keeps_lintelStall]

theorem keeps_absorbHeld (h : Keeps lk a s) (t : ℕ) (b : Bundle) :
    Keeps lk a (absorbHeld s t b) := by
  grind [absorbHeld, keeps_modTile, = tileStoresOk_iff]

theorem keeps_passCopy (h : Keeps lk a s) (t : ℕ) (srcRole : ℕ) (b : Bundle) :
    Keeps lk a (passCopy s t srcRole b) := by
  grind [passCopy, keeps_bufferBundle, keeps_absorbHeld, keeps_modCyc]

theorem keeps_takeBundle (h : Keeps lk a s) (t : ℕ) (p : Packet) (b : Bundle) :
    Keeps lk a (takeBundle s t p b) := by
  grind [takeBundle, keeps_bufferBundle, keeps_modNet, keeps_passCopy, keeps_modCyc]

theorem keeps_enterHoldover (h : Keeps lk a s) (t : ℕ) :
    Keeps lk a (enterHoldover s t) := by
  grind [enterHoldover, keeps_modCyc, keeps_rebaseTmrs, keeps_postTile]

theorem keeps_leaveHoldover (h : Keeps lk a s) (t : ℕ) :
    Keeps lk a (leaveHoldover s t) := by
  grind [leaveHoldover, keeps_modCyc, keeps_rebaseTmrs]

theorem keeps_tcBack (h : Keeps lk a s) (t : Nat) : Keeps lk a (tcBack s t) := by
  unfold tcBack
  extract_lets buf r s1
  have back : Keeps lk a s1 := keeps_modCtl (keeps_modRcd h fun _ => { r with posted := r.posted ++ buf }) t _
  refine keeps_foldl _ _ back fun u k hu => ?_
  split
  · exact keeps_deliverEdge (keeps_modCmp hu t k _) _ _ _ _
  · exact hu

theorem keeps_fwCount (h : Keeps lk a s) :
    Keeps lk a (fwCount s) := by
  grind [fwCount, keeps_modHub]

theorem keeps_loseSurvivor (h : Keeps lk a s) (t : ℕ) (tenure : ℕ) :
    Keeps lk a (loseSurvivor s t tenure) := by
  grind [loseSurvivor, keeps_endPromo]

theorem keeps_stopLost (h : Keeps lk a s) (c : ℕ) (t : ℕ) (tenure : ℕ) (role : ℕ) :
    Keeps lk a (stopLost s c t tenure role) := by
  unfold stopLost
  grind [keeps_modCase, keeps_dropEntry, keeps_abandonCkpt, keeps_post, keeps_loseSurvivor]

theorem keeps_stopRoleless (h : Keeps lk a s) (c : ℕ) (k : Casement) (t : ℕ) :
    Keeps lk a (stopRoleless s c k t) := by
  grind [stopRoleless, keeps_settleFaultN, keeps_epochSettle, keeps_stopGo, keeps_stopLost]

theorem keeps_createCase (h : Keeps lk a s) (q : Req) : Keeps lk a (createCase q s) := by
  unfold createCase
  extract_lets c owner s1 s2
  have pins : Keeps lk a s2 := keeps_modDev_same (keeps_setCase h _ _) _
  exact keeps_post (keeps_modDev_same pins _) _ _ _ _ _

theorem keeps_caseCreateBody (h : Keeps lk a s) (q : Req) :
    Keeps lk a (caseCreateBody q s).2 := by
  grind [caseCreateBody, keeps_checked, keeps_createCase]

theorem keeps_caseDissolveBody (h : Keeps lk a s) (q : Req) :
    Keeps lk a (caseDissolveBody q s).2 := by
  grind [caseDissolveBody, keeps_checked, keeps_beginStop]

theorem keeps_caseOwnerBody (h : Keeps lk a s) (q : Req) :
    Keeps lk a (caseOwnerBody q s).2 := by
  grind [caseOwnerBody, keeps_checked, keeps_modCase]

theorem keeps_beginReset (h : Keeps lk a s) (q : Req) :
    Keeps lk a (beginReset q s).2 := by
  grind [beginReset, keeps_post, keeps_modCase, keeps_wakeByCommand, keeps_dropReset, keeps_beginStop]

theorem keeps_caseResetBody (h : Keeps lk a s) (q : Req) :
    Keeps lk a (caseResetBody q s).2 := by
  grind [caseResetBody, keeps_checked, keeps_beginReset]

theorem keeps_casePolicyBody (h : Keeps lk a s) (q : Req) :
    Keeps lk a (casePolicyBody q s).2 := by
  grind [casePolicyBody, keeps_checked, keeps_modCase, keeps_markChanged]

theorem keeps_movePin (h : Keeps lk a s) (p : ℕ) (to_ : Option CaseId) :
    Keeps lk a (movePin s p to_) := by
  grind [movePin, keeps_floatPinsOf, keeps_coldPin, keeps_modDev, keeps_latchPin, keeps_releasePins]

theorem keeps_casePinAssignBody (h : Keeps lk a s) (q : Req) :
    Keeps lk a (casePinAssignBody q s).2 := by
  grind [casePinAssignBody, keeps_checked, keeps_settleFabric, keeps_movePin]

theorem keeps_withTenure (h : Keeps lk a s) (q : Req) (before after : List (Bool × Status)) (act : State → Reply × State)
    (ha : Keeps lk a (act s).2) : Keeps lk a (withTenure q before after act s).2 := by
  unfold withTenure
  split
  · exact h
  · split
    · exact h
    · exact keeps_checked h _ _ ha

theorem keeps_beginPromotion (h : Keeps lk a s) (q : Req) :
    Keeps lk a (beginPromotion q s) := by
  grind [beginPromotion, keeps_takeTile, keeps_modHub, keeps_settleFabric, keeps_modLoad]

theorem keeps_rolePromoteBody (h : Keeps lk a s) (q : Req) :
    Keeps lk a (rolePromoteBody q s).2 := by
  grind [rolePromoteBody, keeps_withTenure, keeps_beginPromotion]

theorem keeps_beginRetire (h : Keeps lk a s) (q : Req) :
    Keeps lk a (beginRetire q s) := by
  grind [beginRetire, keeps_post, keeps_epochSettle, keeps_requestEpoch]

theorem keeps_roleRetireBody (h : Keeps lk a s) (q : Req) :
    Keeps lk a (roleRetireBody q s).2 := by
  grind [roleRetireBody, keeps_withTenure, keeps_beginRetire]

theorem keeps_tileReset (h : Keeps lk a s) (t : ℕ) :
    Keeps lk a (tileReset s t) := by
  unfold tileReset
  grind [keeps_modPin, keeps_poolTile, keeps_post, keeps_settleFabric, keeps_settleTins]

theorem keeps_tileRetestBody (h : Keeps lk a s) (q : Req) :
    Keeps lk a (tileRetestBody q s).2 := by
  grind [tileRetestBody, keeps_checked, keeps_modCtl, keeps_tileReset]

theorem keeps_tileRepairBody (h : Keeps lk a s) (q : Req) :
    Keeps lk a (tileRepairBody q s).2 := by
  grind [tileRepairBody, keeps_checked, keeps_modCtl]

theorem keeps_retestDone (h : Keeps lk a s) (t : ℕ) (q : Req) (r : MarchResult) :
    Keeps lk a (retestDone s t q r) := by
  grind [retestDone, keeps_modTile, keeps_complete, keeps_postTile, keeps_cases, = tileStoresOk_iff]

theorem keeps_repairDone (h : Keeps lk a s) (t : ℕ) (q : Req) (r : MarchResult) :
    Keeps lk a (repairDone s t q r) := by
  grind [repairDone, keeps_modTile, keeps_complete, keeps_postTile, = tileStoresOk_iff]

theorem keeps_fwWrite (h : Keeps lk a s) (q : Req) :
    Keeps lk a (fwWrite q s).2 := by
  grind [fwWrite, keeps_checked, keeps_modHub]

theorem keeps_tcFwLoadBody (h : Keeps lk a s) (q : Req) :
    Keeps lk a (tcFwLoadBody q s).2 := by
  grind [tcFwLoadBody, keeps_checked, keeps_fwWrite]

theorem keeps_tcFwActivateBody (h : Keeps lk a s) (q : Req) :
    Keeps lk a (tcFwActivateBody q s).2 := by
  grind [tcFwActivateBody, keeps_checked, keeps_modCtl]

theorem keeps_caseStatusBody (h : Keeps lk a s) (q : Req) :
    Keeps lk a (caseStatusBody q s).2 := by
  grind [caseStatusBody, keeps_checked, keeps_replyCopy]

theorem keeps_tileStatusBody (h : Keeps lk a s) (q : Req) :
    Keeps lk a (tileStatusBody q s).2 := by
  grind [tileStatusBody, keeps_checked, keeps_replyCopy]

theorem keeps_dropVrefExt (h : Keeps lk a s) (t : ℕ) (sec : ℕ) :
    Keeps lk a (dropVrefExt s t sec) := by
  grind [dropVrefExt, keeps_modTile, keeps_cmpUndecide, keeps_postTile, keeps_foldl, = tileStoresOk_iff]

theorem keeps_passCompare (h : Keeps lk a s) (t : ℕ) (k : ℕ) :
    Keeps lk a (passCompare s t k) := by
  grind [passCompare, keeps_timerTrigger, keeps_changeTmr]

theorem keeps_wrapTmr (h : Keeps lk a s) (t : ℕ) (k : ℕ) :
    Keeps lk a (wrapTmr s t k) := by
  grind [wrapTmr, keeps_modTile, stores_takeNext, keeps_changeTmr, keeps_timerTrigger]

theorem keeps_captureTmr (h : Keeps lk a s) (t : ℕ) (k : ℕ) (n : BitVec 32) :
    Keeps lk a (captureTmr s t k n) := by
  grind [captureTmr, keeps_timerTrigger, keeps_changeTmr]

theorem keeps_changeCmp (h : Keeps lk a s) (t : ℕ) (k : ℕ) (w0 : ℕ) (w1 : ℕ) :
    Keeps lk a (changeCmp s t k w0 w1) := by
  grind [changeCmp, keeps_modTile, stores_cfgWrite, keeps_cmpUndecide, keeps_cmpRefresh, keeps_refreshBlank]

theorem keeps_cmpSetBody (h : Keeps lk a s) (q : Req) :
    Keeps lk a (cmpSetBody q s).2 := by
  grind [cmpSetBody, keeps_checked, keeps_edgeTime, keeps_markChanged, keeps_changeCmp]

theorem keeps_cmpEvbindBody (h : Keeps lk a s) (q : Req) :
    Keeps lk a (cmpEvbindBody q s).2 := by
  grind [cmpEvbindBody, keeps_checked, keeps_markChanged, keeps_modCmp]

theorem keeps_cmpCheckBody (h : Keeps lk a s) (q : Req) :
    Keeps lk a (cmpCheckBody q s).2 := by
  grind [cmpCheckBody, keeps_checked, keeps_modCmp]

theorem keeps_changeTm (h : Keeps lk a s) (t : ℕ) (k : ℕ) (w0 : ℕ) (w1 : ℕ) (w2 : ℕ) :
    Keeps lk a (changeTm s t k w0 w1 w2) := by
  grind [changeTm, stores_cfgWrite, keeps_setTile, keeps_refreshBlank, keeps_settleFabric, Keeps.tile, = tileStoresOk_iff]

theorem keeps_tmSetBody (h : Keeps lk a s) (q : Req) :
    Keeps lk a (tmSetBody q s).2 := by
  grind [tmSetBody, keeps_checked, keeps_edgeTime, keeps_markChanged, keeps_changeTm]

theorem keeps_tmArmBody (h : Keeps lk a s) (q : Req) :
    Keeps lk a (tmArmBody q s).2 := by
  grind [tmArmBody, keeps_checked, keeps_edgeTime, keeps_startTmr, keeps_stopTmr]

theorem keeps_tmReadBody (h : Keeps lk a s) (q : Req) :
    Keeps lk a (tmReadBody q s).2 := by
  grind [tmReadBody, keeps_checked, keeps_replyCopy]

theorem keeps_ctStatusBody (h : Keeps lk a s) (q : Req) :
    Keeps lk a (ctStatusBody q s).2 := by
  grind [ctStatusBody, keeps_checked, keeps_replyCopy]

theorem keeps_acceptPeek (h : Keeps lk a s) (q : Req) (kind : PeekKind) :
    Keeps lk a (acceptPeek q kind s).2 := by
  grind [acceptPeek, keeps_servePeek, keeps_checked, keeps_modCyc]

theorem keeps_bpPeekBody (h : Keeps lk a s) (q : Req) :
    Keeps lk a (bpPeekBody q s).2 := by
  grind [bpPeekBody, keeps_checked, keeps_acceptPeek]

theorem keeps_memPeekBody (h : Keeps lk a s) (q : Req) :
    Keeps lk a (memPeekBody q s).2 := by
  grind [memPeekBody, keeps_checked, keeps_acceptPeek]

theorem keeps_boundaryPeekBody (h : Keeps lk a s) (q : Req) :
    Keeps lk a (boundaryPeekBody q s).2 := by
  grind [boundaryPeekBody, keeps_checked, keeps_acceptPeek]

theorem keeps_queuePoke (h : Keeps lk a s) (q : Req) (mem : Bool) (n : ℕ) :
    Keeps lk a (queuePoke q mem n s) := by
  grind [queuePoke, keeps_modCyc, keeps_foldl]

theorem keeps_acceptPoke (h : Keeps lk a s) (q : Req) (mem : Bool) :
    Keeps lk a (acceptPoke q mem s).2 := by
  grind [acceptPoke, keeps_checked, keeps_queuePoke]

theorem keeps_bpPokeBody (h : Keeps lk a s) (q : Req) :
    Keeps lk a (bpPokeBody q s).2 := by
  grind [bpPokeBody, keeps_checked, keeps_acceptPoke]

theorem keeps_memPokeBody (h : Keeps lk a s) (q : Req) :
    Keeps lk a (memPokeBody q s).2 := by
  grind [memPokeBody, keeps_checked, keeps_acceptPoke]

theorem keeps_scheduleInfoBody (h : Keeps lk a s) (q : Req) :
    Keeps lk a (scheduleInfoBody q s).2 := by
  grind [scheduleInfoBody, keeps_checked, keeps_replyCopy]

theorem stores_clearStore (x : Tile) (h : tileStoresOk x) :
    tileStoresOk (clearStore x) := by
  grind [clearStore, = tileStoresOk_iff, = bpStoresOk]

theorem keeps_storeStatusBody (h : Keeps lk a s) (q : Req) :
    Keeps lk a (storeStatusBody q s).2 := by
  grind [storeStatusBody, keeps_checked, keeps_replyCopy, keeps_modTile, stores_clearStore]

theorem keeps_lintelStatusBody (h : Keeps lk a s) (q : Req) :
    Keeps lk a (lintelStatusBody q s).2 := by
  grind [lintelStatusBody, keeps_checked, keeps_replyCopy]

theorem keeps_cycleRateBody (h : Keeps lk a s) (q : Req) :
    Keeps lk a (cycleRateBody q s).2 := by
  grind [cycleRateBody, keeps_checked, keeps_modCase, keeps_markChanged]

theorem keeps_cyclePauseBody (h : Keeps lk a s) (q : Req) :
    Keeps lk a (cyclePauseBody q s).2 := by
  grind [cyclePauseBody, keeps_checked, keeps_modCase]

theorem keeps_stepCase (h : Keeps lk a s) (q : Req) :
    Keeps lk a (stepCase q s) := by
  grind [stepCase, keeps_settleFaultN, keeps_wakeRouters, keeps_modCase]

theorem keeps_cycleStepBody (h : Keeps lk a s) (q : Req) :
    Keeps lk a (cycleStepBody q s).2 := by
  grind [cycleStepBody, keeps_checked, keeps_stepCase]

theorem keeps_enableHost (h : Keeps lk a s) (g2 : HostId) :
    Keeps lk a (enableHost s g2) := by
  grind [enableHost, keeps_post, keeps_raiseFault, keeps_setHost, keeps_modDev, keeps_settleQuiesced]

theorem keeps_fetchFrom (h : Keeps lk a s) (g2 : HostId) (r : RingRef) :
    Keeps lk a (fetchFrom s g2 r) := by
  grind [fetchFrom, keeps_ringError, keeps_setRing, keeps_modRing, keeps_modHost, keeps_modHif]

theorem keeps_serveRounds (h : Keeps lk a s) (x1 : ℕ) (x3 : HostId) :
    Keeps lk a (serveRounds x1 s x3) := by
  fun_induction serveRounds <;> grind [keeps_fetchFrom, keeps_foldl]

theorem keeps_serveRings (h : Keeps lk a s) (g2 : HostId) :
    Keeps lk a (serveRings s g2) := by
  grind [serveRings, keeps_settleQuiesced, keeps_serveRounds]

theorem keeps_pollFailed (h : Keeps lk a s) (g2 : HostId) :
    Keeps lk a (pollFailed s g2) := by
  grind [pollFailed, keeps_modHost, keeps_raiseFault, keeps_post]

theorem keeps_takeIndex (h : Keeps lk a s) (r : RingRef) (v : BitVec 32) : Keeps lk a (takeIndex s r v) := by
  unfold takeIndex
  split
  · exact h
  · split
    · exact h
    · extract_lets y s1
      have set : Keeps lk a s1 := keeps_setRing h r y
      split
      · split
        · exact keeps_ringError set r 1
        · exact set
      · split
        · exact keeps_ringError set r 2
        · split
          · exact keeps_flushEntries set _ _
          · exact set

theorem keeps_takeGroup (h : Keeps lk a s) (g1 : HostId) (g : ℕ) (ws : List (BitVec 32)) :
    Keeps lk a (takeGroup g1 s g ws) := by
  grind [takeGroup, keeps_takeIndex, keeps_foldl]

theorem keeps_takeReach (h : Keeps lk a s) (g2 : HostId) (rd : PollReads) :
    Keeps lk a (takeReach s g2 rd) := by
  grind [takeReach, keeps_modHif, keeps_modHost]

theorem keeps_pollChange (h : Keeps lk a s) (g : HostId) (rd : PollReads) (root : BitVec 64) :
    Keeps lk a (pollChange s g rd root) := by
  unfold pollChange
  extract_lets x
  split
  · exact keeps_pollFailed h g
  · split
    · exact keeps_pollFailed h g
    · extract_lets s1
      exact keeps_serveRings (keeps_foldl _ _ (keeps_setHost h _ _) fun u p hu => keeps_takeGroup hu g p.1 p.2) g

theorem keeps_deleteHostRings (h : Keeps lk a s) (g2 : HostId) :
    Keeps lk a (deleteHostRings s g2) := by
  grind [deleteHostRings, keeps_modHost, keeps_modHif, keeps_clearContext, keeps_foldl]

theorem keeps_forceDelete (h : Keeps lk a s) (c : ℕ) :
    Keeps lk a (forceDelete s c) := by
  grind [forceDelete, keeps_clearContext, keeps_foldl]

theorem keeps_nopBody (h : Keeps lk a s) (q : Req) :
    Keeps lk a (nopBody q s).2 := by
  grind [nopBody, keeps_checked]

theorem keeps_ringCreateBody (h : Keeps lk a s) (q : Req) :
    Keeps lk a (ringCreateBody q s).2 := by
  grind [ringCreateBody, keeps_checked, keeps_modHif]

theorem keeps_ringDeleteBody (h : Keeps lk a s) (q : Req) :
    Keeps lk a (ringDeleteBody q s).2 := by
  grind [ringDeleteBody, keeps_checked, keeps_clearContext, keeps_setRing, keeps_sweepDeletes]

theorem keeps_ringModerateBody (h : Keeps lk a s) (q : Req) :
    Keeps lk a (ringModerateBody q s).2 := by
  grind [ringModerateBody, keeps_checked, keeps_signalDue, keeps_modRing]

theorem keeps_ringQueryBody (h : Keeps lk a s) (q : Req) :
    Keeps lk a (ringQueryBody q s).2 := by
  grind [ringQueryBody, keeps_checked, keeps_replyCopy]

theorem keeps_ringAssignBody (h : Keeps lk a s) (q : Req) :
    Keeps lk a (ringAssignBody q s).2 := by
  grind [ringAssignBody, keeps_checked, keeps_modHif, keeps_forceDelete, keeps_foldl]

theorem keeps_stewardHandoverBody (h : Keeps lk a s) (q : Req) :
    Keeps lk a (stewardHandoverBody q s).2 := by
  grind [stewardHandoverBody, keeps_checked, keeps_post, keeps_modHif]

theorem keeps_hostStatusBody (h : Keeps lk a s) (q : Req) :
    Keeps lk a (hostStatusBody q s).2 := by
  grind [hostStatusBody, keeps_checked, keeps_replyCopy]

theorem keeps_disableHost (h : Keeps lk a s) (g2 : HostId) :
    Keeps lk a (disableHost s g2) := by
  grind [disableHost, keeps_deleteHostRings, keeps_modHost, keeps_sourceLost, keeps_post]

theorem keeps_unmaskVectors (h : Keeps lk a s) (g2 : HostId) :
    Keeps lk a (unmaskVectors s g2) := by
  grind [unmaskVectors, keeps_signalVector, keeps_modHost, keeps_foldl]

theorem keeps_hostControl (h : Keeps lk a s) (g2 : HostId) (v : ℕ) :
    Keeps lk a (hostControl s g2 v) := by
  grind [hostControl, keeps_settleQuiesced, keeps_modHost, keeps_serveRings, keeps_enableHost, keeps_disableHost]

theorem keeps_resetHost (h : Keeps lk a s) (code : ℕ) (g2 : HostId) :
    Keeps lk a (resetHost code s g2) := by
  grind [resetHost, keeps_sourceLost, keeps_deleteHostRings, keeps_post, keeps_setHost]

theorem keeps_portReset (h : Keeps lk a s) (portB : Bool) :
    Keeps lk a (portReset s portB) := by
  grind [portReset, keeps_post, keeps_resetHost, keeps_foldl]

theorem keeps_jnlControlBody (h : Keeps lk a s) (q : Req) :
    Keeps lk a (jnlControlBody q s).2 := by
  grind [jnlControlBody, keeps_checked, keeps_modJnlCase, keeps_markChanged]

theorem keeps_jnlCheckpointBody (h : Keeps lk a s) (q : Req) :
    Keeps lk a (jnlCheckpointBody q s).2 := by
  grind [jnlCheckpointBody, keeps_checked, keeps_modJnlCase]

theorem keeps_jnlMarkBody (h : Keeps lk a s) (q : Req) :
    Keeps lk a (jnlMarkBody q s).2 := by
  grind [jnlMarkBody, keeps_checked, keeps_modJnlCase]

theorem keeps_drainEnd (h : Keeps lk a s) (c : Nat) : Keeps lk a (drainEnd s c) := by
  unfold drainEnd
  split
  · exact h
  · next k _ =>
    split
    · exact h
    · next n num q _ =>
      split
      · exact h
      · extract_lets s1 s2 s3 s4
        have data : Keeps lk a s1 := keeps_foldl _ _ h fun u x hu => keeps_jnlRecord hu c _ _ _
        have ended : Keeps lk a s2 := keeps_jnlRecord data c _ _ _
        have emptied : Keeps lk a s3 := keeps_modTiles (keeps_modJnlCase ended c _) _ _ fun _ x hx => stores_noCkptBank x hx
        have posted : Keeps lk a s4 := keeps_post emptied _ _ _ _ _
        split
        · exact ended
        · split
          · exact keeps_complete posted _ _ _
          · exact posted

theorem keeps_setExport (h : Keeps lk a s) (mode : ℕ) :
    Keeps lk a (setExport mode s) := by
  grind [setExport, keeps_modJnl, keeps_modBsp]

theorem keeps_jnlExportBody (h : Keeps lk a s) (q : Req) :
    Keeps lk a (jnlExportBody q s).2 := by
  grind [jnlExportBody, keeps_checked, keeps_setExport]

theorem keeps_readJournal (h : Keeps lk a s) (q : Req) :
    Keeps lk a (readJournal q s).2 := by
  grind [readJournal, keeps_replyCopy, keeps_modJnl]

theorem keeps_jnlReadBody (h : Keeps lk a s) (q : Req) :
    Keeps lk a (jnlReadBody q s).2 := by
  grind [jnlReadBody, keeps_checked, keeps_readJournal]

theorem keeps_jnlStatusBody (h : Keeps lk a s) (q : Req) :
    Keeps lk a (jnlStatusBody q s).2 := by
  grind [jnlStatusBody, keeps_checked, keeps_replyCopy]

theorem keeps_beginShadow (h : Keeps lk a s) (q : Req) :
    Keeps lk a (beginShadow q s) := by
  grind [beginShadow, keeps_takeTile, keeps_settleFabric, keeps_modLoad, keeps_modHub, keeps_foldl]

theorem keeps_shadowChecks (h : Keeps lk a s) (q : Req) :
    Keeps lk a (shadowChecks q s).2 := by
  grind [shadowChecks, keeps_checked, keeps_beginShadow]

theorem keeps_jnlShadowBody (h : Keeps lk a s) (q : Req) :
    Keeps lk a (jnlShadowBody q s).2 := by
  grind [jnlShadowBody, keeps_checked, keeps_shadowChecks]

theorem stores_loadSnap (z : Snap) (n : Nat) (x : Tile) (h : tileStoresOk x) (hz : Memory.wf zeroes z.emem = true) :
    tileStoresOk (loadSnap z n x) := by
  obtain ⟨hcfg, himg, hbp, hram⟩ := (tileStoresOk_iff x).mp h
  exact (tileStoresOk_iff _).mpr ⟨hcfg, himg, stores_restoreSnap x.bp z hbp hz, hram⟩

/-- The emulated memories of every checkpoint that a search has found are in canonical form. -/
def foundOk (p : Found) : Prop := ∀ z ∈ p.snaps, Memory.wf zeroes z.2.emem = true

theorem cellsOf_wf (l : List Byte) : Memory.wf zeroes (cellsOf l) = true := by
  have above : ∀ (l : List Byte) (n : Nat),
      memWfFrom zeroes n ((l.zipIdx n).filterMap fun p => if p.1 = 0 then none else some (p.2, p.1)) = true := by
    intro l
    induction l with
    | nil => exact fun _ => rfl
    | cons b r ih =>
      intro n
      by_cases hb : b = 0
      · simpa [hb] using memWfFrom_mono zeroes _ n (n + 1) (ih (n + 1)) (by omega)
      · simp only [List.zipIdx_cons, List.filterMap_cons, hb, if_false, memWfFrom, ih (n + 1)]
        simpa [zeroes] using hb
  exact above l 0

theorem inFound_ok (c : Nat) (f : Found → Found) (l : List Found) (hl : ∀ p ∈ l, foundOk p)
    (hf : ∀ p, foundOk p → foundOk (f p)) : ∀ p ∈ inFound c f l, foundOk p := by
  unfold inFound
  grind

theorem searchRec_ok (r : Replay) (num ty c len : Nat) (x : Search) (h : ∀ p ∈ x.found, foundOk p) :
    ∀ p ∈ (searchRec s r num ty c len x).found, foundOk p := by
  have data : ∀ (b : List Byte) (i : Nat) (p : Found), foundOk p → foundOk { p with snaps := mset p.snaps i (parseSnap b) } :=
    fun b i p hp z hz => (mem_mset hz).elim (hp z) fun e => e ▸ cellsOf_wf _
  unfold searchRec
  extract_lets b f
  split
  · exact h
  · split
    · intro p hp
      rcases List.mem_append.mp hp with old | new
      · exact h p old
      · cases List.mem_singleton.mp new
        intro z hz
        cases hz
    · split
      · exact inFound_ok c _ _ h (data _ _)
      · split
        · exact inFound_ok c _ _ h fun p hp => hp
        · exact h

theorem searchJournal_ok (num fuel : Nat) (r : Replay) (x : Search) (h : ∀ p ∈ x.found, foundOk p) :
    ∀ p ∈ (searchJournal s num fuel r x).found, foundOk p := by
  induction fuel generalizing r x with
  | zero => exact h
  | succ f ih =>
    unfold searchJournal
    split
    · exact ih _ _ (searchRec_ok r _ _ _ _ x h)
    all_goals exact h

theorem chooseCkpt_ok {k : Casement} {x : Search} {p : Found} (h : ∀ p ∈ x.found, foundOk p) (hp : chooseCkpt k x = some p) :
    foundOk p := by
  unfold chooseCkpt at hp
  split at hp
  · next p' hfind =>
    cases hp
    exact h _ (List.mem_of_find?_eq_some hfind)
  · exact h _ (List.mem_of_find?_eq_some hp)

theorem mfind_mem {α : Type} {m : Map α} {k : Nat} {v : α} (h : mfind m k = some v) : (k, v) ∈ m := by
  induction m with
  | nil => cases h
  | cons q r ih => grind [mfind]

theorem snapFor_wf (k : Casement) (p : Found) (t : Nat) (h : foundOk p) : Memory.wf zeroes (snapFor s k p t).emem = true := by
  unfold snapFor
  extract_lets idx
  cases found : idx.bind fun i => mfind p.snaps i with
  | none => rfl
  | some z =>
    obtain ⟨i, -, hz⟩ := Option.bind_eq_some_iff.mp found
    exact h _ (mfind_mem hz)

theorem keeps_beginReplay (h : Keeps lk a s) (q : Req) (p : Found) (k : Casement) (hp : foundOk p) :
    Keeps lk a (beginReplay q p k s) := by
  unfold beginReplay
  extract_lets c src r s1 s2 s3
  have loaded : Keeps lk a s1 := keeps_modTiles h _ _ fun t x hx => stores_loadSnap _ _ x hx (snapFor_wf k p t hp)
  have begun : Keeps lk a s2 := keeps_wakeRouters (keeps_modCase loaded c _)
  have settled : Keeps lk a s3 := keeps_settleFabric (keeps_settleTins begun) s
  split
  · exact settled
  · exact keeps_replayEnd (keeps_drawNat settled 34) c r _ _

theorem keeps_replayChecks (h : Keeps lk a s) (q : Req) : Keeps lk a (replayChecks q s).2 := by
  unfold replayChecks
  split
  · exact h
  · next k _ =>
    split
    · exact h
    · extract_lets r
      split
      · exact h
      · next p hp =>
        have found : foundOk p := chooseCkpt_ok (searchJournal_ok _ _ r _ (by simp)) hp
        exact keeps_checked h _ _ (keeps_beginReplay h q p k found)

theorem keeps_jnlReplayBody (h : Keeps lk a s) (q : Req) : Keeps lk a (jnlReplayBody q s).2 :=
  keeps_checked h _ _ (keeps_replayChecks h q)

theorem keeps_takeService (h : Keeps lk a s) (t : ℕ) (f : Flit) :
    Keeps lk a (takeService s t f) := by
  grind [takeService, keeps_modNet, keeps_routerSettle, keeps_enterPacket]

theorem keeps_badFlit (h : Keeps lk a s) (t : ℕ) (port : ℕ) (key : ℕ) :
    Keeps lk a (badFlit s t port key) := by
  grind [badFlit, keeps_modNet, keeps_linkDown]

theorem keeps_setShut (h : Keeps lk a s) (i : ShutterId) (x : Shut) :
    Keeps lk a (setShut s i x) := by
  unfold setShut
  grind [keeps_modNet]

theorem keeps_sendAck (h : Keeps lk a s) (i : ShutterId) :
    Keeps lk a (sendAck s i) := by
  grind [sendAck, keeps_modHub]

theorem keeps_netRouterStatusBody (h : Keeps lk a s) (q : Req) :
    Keeps lk a (netRouterStatusBody q s).2 := by
  grind [netRouterStatusBody, keeps_checked, keeps_replyCopy, keeps_modNet]

theorem keeps_netRoleReadBody (h : Keeps lk a s) (q : Req) :
    Keeps lk a (netRoleReadBody q s).2 := by
  grind [netRoleReadBody, keeps_checked, keeps_replyCopy]

theorem keeps_netProbeBody (h : Keeps lk a s) (q : Req) :
    Keeps lk a (netProbeBody q s).2 := by
  grind [netProbeBody, keeps_checked, keeps_modHub, keeps_modNet]

theorem keeps_netLinkRetrainBody (h : Keeps lk a s) (q : Req) (comesUp : Bool) :
    Keeps lk a (netLinkRetrainBody q comesUp s).2 := by
  grind [netLinkRetrainBody, keeps_checked, keeps_linkUp, keeps_linkDown]

theorem keeps_beginEntry (h : Keeps lk a s) (q : Req) (c : ℕ) (k : Casement) :
    Keeps lk a (beginEntry q c k s).2 := by
  grind [beginEntry, keeps_modCase, keeps_enterDoze]

theorem keeps_pwrStateGo (h : Keeps lk a s) (q : Req) :
    Keeps lk a (pwrStateGo q s).2 := by
  grind [pwrStateGo, keeps_modCase, keeps_wakeByCommand, keeps_beginEntry]

theorem keeps_pwrStateBody (h : Keeps lk a s) (q : Req) :
    Keeps lk a (pwrStateBody q s).2 := by
  grind [pwrStateBody, keeps_checked, keeps_pwrStateGo]

theorem keeps_backToRun (h : Keeps lk a s) (c : Nat) (old : Pwr) : Keeps lk a (backToRun s c old) := by
  unfold backToRun
  split
  · exact h
  · extract_lets runs s1 s2 next
    have running : Keeps lk a s1 := keeps_postPwr (keeps_wakeRouters (keeps_modCase h c _)) c _ _
    have reached : Keeps lk a s2 := keeps_pwrReached running c _ _
    clear_value next
    split
    · exact running
    · split
      · exact keeps_pwrReached (keeps_enterDoze (keeps_modCase reached c _) c _) c _ _
      · exact reached

theorem stores_foldl {α : Type} (f : Tile → α → Tile) (l : List α) (x : Tile) (h : tileStoresOk x)
    (hf : ∀ y i, tileStoresOk y → tileStoresOk (f y i)) : tileStoresOk (l.foldl f x) := by
  induction l generalizing x with
  | nil => exact h
  | cons i r ih => exact ih _ (hf _ _ h)

theorem stores_holdTile (t : Nat) (x : Tile) (h : tileStoresOk x) : tileStoresOk (holdTile s t x) := by
  unfold holdTile
  extract_lets y
  have taken : tileStoresOk y :=
    stores_applyInjChanges _ (stores_foldl takeNext (List.range 8) x h fun y i hy => stores_takeNext y i hy)
  clear_value y
  exact (tileStoresOk_iff _).mpr ((tileStoresOk_iff y).mp taken)

theorem keeps_holdCkpt (h : Keeps lk a s) (c : Nat) : Keeps lk a (holdCkpt s c) := by
  unfold holdCkpt
  extract_lets s1
  have drained : Keeps lk a s1 := keeps_drainEnd h c
  split
  · exact drained
  · next k _ =>
    split
    · exact drained
    · exact keeps_drainEnd (keeps_beginCkpt (keeps_modTiles (keeps_modJnlCase drained c _) _ _ fun _ x hx =>
        stores_tookCkpt k.depth x hx) c _) c

theorem stores_tookHold (d : Nat) (x : Tile) (h : tileStoresOk x) :
    tileStoresOk { x with bp := { x.bp with holdBank := some (snapOf x d) } } := by
  obtain ⟨hcfg, himg, ⟨hemem, hinit, hiram, hbanks⟩, hram⟩ := (tileStoresOk_iff x).mp h
  refine (tileStoresOk_iff _).mpr ⟨hcfg, himg, ⟨hemem, hinit, hiram, fun z hz => ?_⟩, hram⟩
  rcases hz with hold | ckpt
  · cases hold
    exact hemem
  · exact hbanks z (.inr ckpt)

theorem keeps_holdBegin (h : Keeps lk a s) (c : Nat) (k : Casement) : Keeps lk a (holdBegin s c k) := by
  unfold holdBegin
  extract_lets ts s1 s2 s3
  have held : Keeps lk a s1 := keeps_modTiles h ts _ fun _ x hx => stores_tookHold k.depth x hx
  have sill : Keeps lk a s2 := keeps_sillHold (keeps_holdCkpt held c) _
  have closing : Keeps lk a s3 := keeps_modTiles_same sill ts _
  exact keeps_modCase closing c _

theorem keeps_holdFinish (h : Keeps lk a s) (c : Nat) (k : Casement) : Keeps lk a (holdFinish s c k) := by
  unfold holdFinish
  extract_lets s1 s2 s3
  have begun : Keeps lk a s1 := keeps_modCase h c _
  have retained : Keeps lk a s2 := keeps_modTiles begun _ _ fun t x hx => stores_holdTile t x hx
  have settled : Keeps lk a s3 :=
    keeps_postPwr (keeps_settleFaultN (keeps_epochSettle (keeps_settleFabric (keeps_settleTins retained) s))) c _ _
  exact keeps_pwrReached settled c _ _

theorem keeps_classify (h : Keeps lk a s) (vio : List ℕ) (t : ℕ) :
    Keeps lk a (classify vio s t) := by
  grind [classify, keeps_modPin]

theorem keeps_exitTile (h : Keeps lk a s) (n : Nat) (vio : List Nat) (t : Nat) : Keeps lk a (exitTile n vio s t) := by
  unfold exitTile
  extract_lets s1 s2
  have powered : Keeps lk a s1 := keeps_modTile (keeps_powerTk h t) t _ fun x hx => stores_stepLock n _ hx
  have inputs : Keeps lk a s2 := keeps_modAn (keeps_anPowerUp (keeps_classify powered vio t) t) t _
  split
  · exact keeps_stateBank inputs t
  · exact inputs

theorem stores_leaveHold (b : BpState) (h : bpStoresOk b) :
    bpStoresOk { (match b.holdBank with | some z => restoreSnap b z | none => b) with holdBank := none } := by
  have empty : ∀ b : BpState, bpStoresOk b → bpStoresOk { b with holdBank := none } := by
    rintro b ⟨hemem, hinit, hiram, hbanks⟩
    exact ⟨hemem, hinit, hiram, fun z hz => hbanks z (.inr (hz.resolve_left nofun))⟩
  cases hb : b.holdBank with
  | none => exact empty b h
  | some z => exact empty _ (stores_restoreSnap b z h (h.2.2.2 z (.inl hb)))

theorem keeps_exitState (h : Keeps lk a s) (t : Nat) : Keeps lk a (exitState s t) := by
  unfold exitState
  extract_lets s1
  have restored : Keeps lk a s1 := keeps_settleFabric (keeps_modBp h t _ fun b hb => stores_leaveHold b hb) s
  exact keeps_startTimers (keeps_startConverter (keeps_startFabric restored t) t) t

theorem keeps_exitStep (h : Keeps lk a s) (ts : List Nat) (c code : Nat) : Keeps lk a (exitStep ts c s code) := by
  unfold exitStep
  split
  · exact h
  · exact keeps_settleFabric (keeps_stepOutputs h c ts) s
  · exact keeps_foldl _ _ h fun u t hu => keeps_exitState hu t
  · exact keeps_modTiles h ts _ fun _ x hx => stores_stepWrites x hx

theorem keeps_holdGo (h : Keeps lk a s) (c : Nat) : Keeps lk a (holdGo s c) := by
  unfold holdGo
  split
  · exact h
  · next k _ =>
    extract_lets ts s1
    have exited : Keeps lk a s1 := keeps_foldl _ _ h fun u code hu => keeps_exitStep hu ts c code
    split
    · exact h
    · split
      · exact keeps_resetCase exited c _
      · exact keeps_settleFaultN (keeps_backToRun exited c _)

theorem keeps_spareLocked (h : Keeps lk a s) (t : ℕ) :
    Keeps lk a (spareLocked s t) := by
  grind [spareLocked, keeps_modHub]

theorem keeps_haltAll (h : Keeps lk a s) :
    Keeps lk a (haltAll s) := by
  grind [haltAll, keeps_cases]

theorem keeps_pwrSleepBody (h : Keeps lk a s) (q : Req) :
    Keeps lk a (pwrSleepBody q s).2 := by
  grind [pwrSleepBody, keeps_checked, keeps_sleepGo, keeps_haltAll, keeps_modDev]

theorem stores_sleepTile (t : Nat) (x : Tile) (h : tileStoresOk x) : tileStoresOk (sleepTile s t x) :=
  (tileStoresOk_iff _).mpr ⟨filter_wf _ _ _ ((tileStoresOk_iff x).mp h).1, rfl, bpStoresOk_cold, rfl⟩

theorem stores_coldTile (x : Tile) : tileStoresOk (coldTile x) :=
  (tileStoresOk_iff _).mpr ⟨rfl, rfl, bpStoresOk_cold, rfl⟩

theorem mmap_all {α : Type} {P : α → Prop} (f : Nat → α → α) (m : Map α) (hf : ∀ t x, P (f t x)) : ∀ p ∈ mmap f m, P p.2 := by
  unfold mmap
  grind

/-- A reset of the device ends the pin locks and nothing else that `Keeps` names. -/
theorem keeps_deviceReset (h : Keeps lk a s) (kind : InReset) (evs : List Ev) : Keeps False a (deviceReset s kind evs) where
  pending := h.pending
  locks := False.elim
  keys := h.keys
  stores := fun _ => ⟨mmap_all _ _ fun _ x => stores_coldTile x, rfl⟩

theorem keeps_noteBrownOut (h : Keeps lk a s) (v : Supply) :
    Keeps lk a (noteBrownOut s v) := by
  grind [noteBrownOut, keeps_recWrite, keeps_post]

theorem keeps_harmMram (h : Keeps lk a s) (x2 : MramHarm) :
    Keeps lk a (harmMram s x2) := by
  unfold harmMram
  grind [keeps_modCal, keeps_modDev, keeps_modCtl, keeps_modRcd]

theorem keeps_powerUp (h : Keeps lk a s) :
    Keeps lk a (powerUp s) := by
  grind [powerUp, keeps_recPowerUp, keeps_rollSelect, keeps_modRcd]

theorem keeps_pwrResetBody (h : Keeps lk a s) (q : Req) :
    Keeps lk a (pwrResetBody q s).2 := by
  grind [pwrResetBody, keeps_checked, keeps_tileReset, keeps_modDev]

theorem keeps_pwrStatusBody (h : Keeps lk a s) (q : Req) :
    Keeps lk a (pwrStatusBody q s).2 := by
  grind [pwrStatusBody, keeps_checked, keeps_replyCopy]

theorem keeps_recReadBody (h : Keeps lk a s) (q : Req) :
    Keeps lk a (recReadBody q s).2 := by
  grind [recReadBody, keeps_checked, keeps_replyCopy, keeps_fresh]

theorem keeps_recStatusBody (h : Keeps lk a s) (q : Req) :
    Keeps lk a (recStatusBody q s).2 := by
  grind [recStatusBody, keeps_checked, keeps_replyCopy, keeps_fresh]

theorem keeps_recTimeSetBody (h : Keeps lk a s) (q : Req) :
    Keeps lk a (recTimeSetBody q s).2 := by
  grind [recTimeSetBody, keeps_checked, keeps_postEv]

theorem keeps_recPostBody (h : Keeps lk a s) (q : Req) :
    Keeps lk a (recPostBody q s).2 := by
  grind [recPostBody, keeps_checked, keeps_postEv]

theorem keeps_recLimitBody (h : Keeps lk a s) (q : Req) :
    Keeps lk a (recLimitBody q s).2 := by
  grind [recLimitBody, keeps_checked, keeps_postEv]

theorem keeps_recNotifyBody (h : Keeps lk a s) (q : Req) :
    Keeps lk a (recNotifyBody q s).2 := by
  grind [recNotifyBody, keeps_checked, keeps_modRcd]

theorem keeps_recDesignBindBody (h : Keeps lk a s) (q : Req) :
    Keeps lk a (recDesignBindBody q s).2 := by
  grind [recDesignBindBody, keeps_checked, keeps_markChanged, keeps_modRcd]

/-- Every next state that an outcome names keeps what `Keeps` names. -/
def NextKeeps (lk : Prop) (a : State) (o : Host.Outcome State Fault Refusal) : Prop := ∀ t, o = .next t → Keeps lk a t

theorem NextKeeps.next {t : State} (h : Keeps lk a t) : NextKeeps lk a (.next t) := fun _ e => Host.Outcome.next.inj e ▸ h

theorem keeps_execPinSwitchSettle (h : Keeps lk a s) (t : TileId) (n : Fin 12) :
    NextKeeps lk a (execPinSwitchSettle t n s) := by
  grind [execPinSwitchSettle, NextKeeps.next, keeps_settleFabric, keeps_modPin]

theorem keeps_execPadInputChange (h : Keeps lk a s) (t : TileId) (n : Fin 12) (drive : PadDrive) :
    NextKeeps lk a (execPadInputChange t n drive s) := by
  grind [execPadInputChange, NextKeeps.next, keeps_settleFabric, keeps_modPin]

theorem keeps_execPinWindowStore (h : Keeps lk a s) (t : TileId) (mask : BitVec 12) (word : BitVec 32) :
    NextKeeps lk a (execPinWindowStore t mask word s) := by
  grind [execPinWindowStore, NextKeeps.next, keeps_windowStore]

theorem keeps_execPinLockWrite (h : Keeps lk a s) (t : TileId) (word : BitVec 32) :
    NextKeeps lk a (execPinLockWrite t word s) := by
  grind [execPinLockWrite, NextKeeps.next, keeps_lockPin, keeps_modPin]

theorem keeps_execCurrentLimitExpiry (h : Keeps lk a s) (t : TileId) (o : AnOutput) :
    NextKeeps lk a (execCurrentLimitExpiry t o s) := by
  grind [execCurrentLimitExpiry, NextKeeps.next, keeps_postTile, keeps_modAn]

theorem keeps_execReferenceSettled (h : Keeps lk a s) (t : TileId) (l : RefLevel) :
    NextKeeps lk a (execReferenceSettled t l s) := by
  grind [execReferenceSettled, NextKeeps.next, keeps_modTile, = tileStoresOk_iff]

theorem keeps_execAnSwitchClose (h : Keeps lk a s) (t : TileId) : NextKeeps lk a (execAnSwitchClose t s) :=
  .next (keeps_modAn h t.val _)

theorem keeps_execAnOutClose (h : Keeps lk a s) (t : TileId) : NextKeeps lk a (execAnOutClose t s) := by
  refine .next ?_
  split
  · exact h
  · exact keeps_complete (keeps_modAn h t.val _) _ _ _

theorem keeps_execFabricRamPortAAccess (h : Keeps lk a s) (t : TileId) (q : Fin 16) (upsets : List (Nat × Byte))
    (meetsPortB : Bool) (broken : Option (Fin 32768)) :
    NextKeeps lk a (execFabricRamPortAAccess t q upsets meetsPortB broken s) := by
  unfold execFabricRamPortAAccess
  extract_lets s0
  refine .next ?_
  have upset : Keeps lk a s0 := keeps_modFab h t.val _ fun y hy => stores_ramUpset y q.val upsets hy
  split
  · exact upset
  · next p _ =>
    extract_lets s1
    have accessed : Keeps lk a s1 := by
      unfold s1
      split
      · exact keeps_portAAccess upset t.val q.val p meetsPortB
      · exact keeps_portABroken upset t.val q.val p _
    exact keeps_settleFabric (keeps_modFab_same accessed t.val _) s0

theorem keeps_execFabricClockEdge (h : Keeps lk a s) (t : TileId) (ks : BitVec 4) (rising : Bool) (broken : List (Fin 2048)) :
    NextKeeps lk a (execFabricClockEdge t ks rising broken s) := by
  grind [execFabricClockEdge, NextKeeps.next, keeps_clockRams, keeps_clockCells, keeps_modFab, keeps_settleFabric]

theorem keeps_execFabricClockRestart (h : Keeps lk a s) (t : TileId) (k : Fin 4) :
    NextKeeps lk a (execFabricClockRestart t k s) := by
  grind [execFabricClockRestart, NextKeeps.next, keeps_restartClock, keeps_nextClock]

theorem keeps_execImageData (h : Keeps lk a s) (bytes : List Byte) (ended : Bool) :
    NextKeeps lk a (execImageData bytes ended s) := by
  grind [execImageData, NextKeeps.next, keeps_feedLoader]

theorem keeps_execFetchTimeout (h : Keeps lk a s)  :
    NextKeeps lk a (execFetchTimeout  s) := by
  grind [execFetchTimeout, NextKeeps.next, keeps_loadStop]

theorem keeps_execLoadPauseTimeout (h : Keeps lk a s) (c : CaseId) :
    NextKeeps lk a (execLoadPauseTimeout c s) := by
  grind [execLoadPauseTimeout, NextKeeps.next, keeps_modCase, keeps_stopGo, keeps_post]

theorem keeps_execLoadPass2Start (h : Keeps lk a s)  :
    NextKeeps lk a (execLoadPass2Start  s) := by
  grind [execLoadPass2Start, NextKeeps.next, keeps_beginPass2]

theorem keeps_execStartUpStep (h : Keeps lk a s) (c : CaseId) :
    NextKeeps lk a (execStartUpStep c s) := by
  grind [execStartUpStep, NextKeeps.next, keeps_startUpNext, keeps_nowStartUp]

theorem keeps_execStartUpLockTimeout (h : Keeps lk a s) (c : CaseId) :
    NextKeeps lk a (execStartUpLockTimeout c s) := by
  grind [execStartUpLockTimeout, NextKeeps.next, keeps_loadStop, keeps_endPromo, keeps_nowStartUp]

theorem keeps_execBspLinkUp (h : Keeps lk a s) (lanes : List (List LinkBlock)) : NextKeeps lk a (execBspLinkUp lanes s) := by
  unfold execBspLinkUp
  extract_lets p locked
  refine .next ?_
  split
  · exact h
  · split
    · exact keeps_modBsp h _
    · extract_lets s1 s2
      have up : Keeps lk a s1 := keeps_post (keeps_modBsp h _) _ _ _ _ _
      have credits : Keeps lk a s2 := keeps_foldl _ _ up fun u k hu => keeps_topUp hu k
      split
      · exact keeps_complete (keeps_modBsp credits _) _ _ _
      · exact credits

theorem keeps_execBspTrainingTimeout (h : Keeps lk a s)  :
    NextKeeps lk a (execBspTrainingTimeout  s) := by
  grind [execBspTrainingTimeout, NextKeeps.next, keeps_modBsp, keeps_complete]

theorem keeps_execLaneLockLoss (h : Keeps lk a s) (lane : Fin 8) :
    NextKeeps lk a (execLaneLockLoss lane s) := by
  grind [execLaneLockLoss, NextKeeps.next, keeps_modBsp, keeps_linkLost, keeps_post]

theorem keeps_execBspSegmentReceive (h : Keeps lk a s) (blocks : List LinkBlock) :
    NextKeeps lk a (execBspSegmentReceive blocks s) := by
  grind [execBspSegmentReceive, NextKeeps.next, keeps_takeBlock, keeps_foldl]

theorem keeps_execBspCredit (h : Keeps lk a s) (b : LinkBlock) :
    NextKeeps lk a (execBspCredit b s) := by
  grind [execBspCredit, NextKeeps.next, keeps_takeBlock]

theorem keeps_execBspAck (h : Keeps lk a s) (b : LinkBlock) :
    NextKeeps lk a (execBspAck b s) := by
  grind [execBspAck, NextKeeps.next, keeps_takeBlock]

theorem keeps_execBspNak (h : Keeps lk a s) (b : LinkBlock) :
    NextKeeps lk a (execBspNak b s) := by
  grind [execBspNak, NextKeeps.next, keeps_takeBlock]

theorem keeps_execBspAlign (h : Keeps lk a s) (lane : Fin 8) (b : LinkBlock) :
    NextKeeps lk a (execBspAlign lane b s) := by
  grind [execBspAlign, NextKeeps.next, keeps_modBsp, keeps_takeBlock]

theorem keeps_execBspSegmentSend (h : Keeps lk a s) (stream : Fin 16) :
    NextKeeps lk a (execBspSegmentSend stream s) := by
  grind [execBspSegmentSend, NextKeeps.next, keeps_sendRecords, keeps_sendExports, keeps_askFetch, keeps_sendJournal]

theorem keeps_execTriggerDelayExpiry (h : Keeps lk a s) (t : TileId) :
    NextKeeps lk a (execTriggerDelayExpiry t s) := by
  grind [execTriggerDelayExpiry, NextKeeps.next, keeps_modCv]

theorem keeps_execConversionIssue (h : Keeps lk a s) (t : TileId) :
    NextKeeps lk a (execConversionIssue t s) := by
  grind [execConversionIssue, NextKeeps.next, keeps_modCv]

theorem keeps_execConversionComplete (h : Keeps lk a s) (t : TileId) (slice_ : Fin 4) (w : AnalogIn) :
    NextKeeps lk a (execConversionComplete t slice_ w s) := by
  unfold execConversionComplete
  extract_lets x s0
  refine .next ?_
  split
  · exact h
  · next c _ =>
    extract_lets raw ok s1 s2
    have done : Keeps lk a s1 := keeps_modCv (keeps_fresh h _) t.val _
    have taken : Keeps lk a s2 := by
      unfold s2
      split
      · exact keeps_captureResult done t.val ok raw
      · exact keeps_takeResult done t.val _ ok raw
    exact keeps_settleFabric (keeps_cvPump (keeps_endCapture (keeps_endSequence (keeps_endSlotRun taken _) _) _) _) s

theorem keeps_execInjSourceEdge (h : Keeps lk a s) (t : TileId) (j : Fin 4) :
    NextKeeps lk a (execInjSourceEdge t j s) := by
  grind [execInjSourceEdge, NextKeeps.next, keeps_dropEdge, keeps_cvRequest]

theorem keeps_execAccSnapEdge (h : Keeps lk a s) (t : TileId) (n : Fin 32) : NextKeeps lk a (execAccSnapEdge t n s) := by
  unfold execAccSnapEdge
  extract_lets x
  refine .next ?_
  split
  · next e _ =>
    split
    · exact h
    · split
      · exact keeps_settleFabric (keeps_snapAcc (keeps_dropEdge h t.val e) t.val n.val _) s
      · exact keeps_dropEdge h t.val e
  · exact h

theorem keeps_execCalCellZeroEnd (h : Keeps lk a s) (t : TileId) :
    NextKeeps lk a (execCalCellZeroEnd t s) := by
  grind [execCalCellZeroEnd, NextKeeps.next, keeps_modTile, keeps_postTile, keeps_cvPump, stores_beginCommit, keeps_complete, keeps_modCv, = tileStoresOk_iff]

theorem keeps_execProgrammeStep (h : Keeps lk a s) (t : TileId) (seen : List StoreFault) :
    NextKeeps lk a (execProgrammeStep t seen s) := by
  unfold execProgrammeStep
  extract_lets x
  refine .next ?_
  split
  · exact h
  · next k _ =>
    split
    · exact h
    · split
      · exact h
      · exact h
      · exact keeps_generatorStall h t.val _
      · exact keeps_lintelStall h t.val _
      all_goals
        split
        · exact h
        · split
          · exact keeps_programmeEdge h t.val seen
          · exact h
        · split
          · exact keeps_barrierEdge h t.val seen
          · exact h
        · exact keeps_closedEdge h t.val k

theorem keeps_execGather (h : Keeps lk a s) (hub : SectorId) (c : CaseId) (w : GatherWire) :
    NextKeeps lk a (execGather hub c w s) := by
  grind [execGather, NextKeeps.next, keeps_takeSectorDone, keeps_takeArrive, keeps_barrierFault]

theorem keeps_execLintelClose (h : Keeps lk a s) (t : TileId) :
    NextKeeps lk a (execLintelClose t s) := by
  grind [execLintelClose, NextKeeps.next, keeps_closeTile]

theorem keeps_execLintelRelease (h : Keeps lk a s) (t : TileId) : NextKeeps lk a (execLintelRelease t s) := by
  unfold execLintelRelease
  extract_lets x n
  refine .next ?_
  split
  · exact h
  · split
    · exact h
    · next c k _ =>
      extract_lets first s0 s1
      split
      · exact h
      · split
        · exact keeps_modCyc h t.val _
        · split
          · exact h
          · have replayed : Keeps lk a s0 := by
              unfold s0
              split
              · exact keeps_replayRelease h c _
              · exact h
            have timed : Keeps lk a s1 := by
              unfold s1
              split
              · exact keeps_modCase replayed c _
              · exact replayed
            exact keeps_lastRelease (keeps_releaseTile timed c t.val n) c n

theorem keeps_execBundleArrival (h : Keeps lk a s) (t : TileId) (p : Packet) :
    NextKeeps lk a (execBundleArrival t p s) := by
  grind [execBundleArrival, NextKeeps.next, keeps_modCyc, keeps_postTile, keeps_modNet, keeps_takeBundle, keeps_routerSettle]

theorem keeps_execStallTimeout (h : Keeps lk a s) (t : TileId) :
    NextKeeps lk a (execStallTimeout t s) := by
  grind [execStallTimeout, NextKeeps.next, keeps_modCyc, keeps_postTile]

theorem keeps_execSysrefLoss (h : Keeps lk a s) : NextKeeps lk a (execSysrefLoss s) := by
  refine .next ?_
  split
  · exact keeps_settleFaultN (keeps_foldl _ _ (keeps_modDev_same h _) fun u t hu => keeps_enterHoldover hu t)
  · exact h

theorem keeps_execSysrefReturn (h : Keeps lk a s) : NextKeeps lk a (execSysrefReturn s) :=
  .next (keeps_settleFaultN (keeps_modDev_same (keeps_foldl _ _ h fun u t hu => keeps_leaveHoldover hu t) _))

theorem keeps_execGeneratorUnlock (h : Keeps lk a s) (t : TileId) :
    NextKeeps lk a (execGeneratorUnlock t s) := by
  grind [execGeneratorUnlock, NextKeeps.next, keeps_modCyc, keeps_postTile, keeps_rebaseTmrs, keeps_settleFaultN]

theorem keeps_execGeneratorRelock (h : Keeps lk a s) (t : TileId) :
    NextKeeps lk a (execGeneratorRelock t s) := by
  grind [execGeneratorRelock, NextKeeps.next, keeps_settleFaultN, keeps_modCyc, keeps_rebaseTmrs, keeps_enterHoldover]

theorem keeps_execClockFailed (h : Keeps lk a s) (t : TileId) :
    NextKeeps lk a (execClockFailed t s) := by
  grind [execClockFailed, NextKeeps.next, keeps_modCyc, keeps_postTile, keeps_settleFaultN, keeps_goSilent, keeps_rebaseTmrs]

theorem keeps_execConfigScan (h : Keeps lk a s) (t : TileId) (q : Fin 16) (good : Bool) :
    NextKeeps lk a (execConfigScan t q good s) := by
  grind [execConfigScan, NextKeeps.next, keeps_goSilent, keeps_postTile, keeps_settleFaultN, keeps_modFab]

theorem keeps_execTcWatchdogExpiry (h : Keeps lk a s) (t : TileId) :
    NextKeeps lk a (execTcWatchdogExpiry t s) := by
  grind [execTcWatchdogExpiry, NextKeeps.next, keeps_settleFaultN, keeps_goSilent, keeps_modCtl]

theorem keeps_execTcRestartDone (h : Keeps lk a s) (t : TileId) (bootOk : Bool) :
    NextKeeps lk a (execTcRestartDone t bootOk s) := by
  grind [execTcRestartDone, NextKeeps.next, keeps_postTile, keeps_complete, keeps_tcBack, keeps_modCtl, keeps_fwCount]

theorem keeps_execAutoRetire (h : Keeps lk a s) (t : TileId) : NextKeeps lk a (execAutoRetire t s) := by
  refine .next ?_
  split
  · next c k _ _ => exact keeps_stopRoleless h c k t.val
  · next c _ r _ _ =>
    extract_lets e ten partner s1 s2 s3
    split
    · exact h
    · have posted : Keeps lk a s1 := keeps_post h _ _ _ _ _
      have stopped : Keeps lk a s2 := by
        unfold s2
        split
        · exact keeps_stopLost posted c t.val ten r
        · exact keeps_modCase posted c _
      have asked : Keeps lk a s3 := keeps_requestEpoch stopped _
      refine keeps_settleFaultN (keeps_epochSettle ?_)
      split
      · exact keeps_stopGo asked c
      · exact asked
  · exact h

theorem keeps_execBackgroundCopyDone (h : Keeps lk a s)  :
    NextKeeps lk a (execBackgroundCopyDone  s) := by
  grind [execBackgroundCopyDone, NextKeeps.next, keeps_modHub]

theorem keeps_execMarchTestDone (h : Keeps lk a s) (t : TileId) (r : MarchResult) :
    NextKeeps lk a (execMarchTestDone t r s) := by
  grind [execMarchTestDone, NextKeeps.next, keeps_repairDone, keeps_retestDone, keeps_modCtl]

theorem keeps_execArefRangeChange (h : Keeps lk a s) (sec : SectorId) (inRange : Bool) :
    NextKeeps lk a (execArefRangeChange sec inRange s) := by
  unfold execArefRangeChange
  extract_lets s1
  refine .next ?_
  have noted : Keeps lk a s1 := keeps_modDev_same h _
  split
  · exact keeps_foldl _ _ noted fun u t hu => keeps_dropVrefExt hu t _
  · exact noted

theorem keeps_execComparatorCrossing (h : Keeps lk a s) (t : TileId) (k : Fin 16) (w : AnalogIn) (writeOk : Bool) :
    NextKeeps lk a (execComparatorCrossing t k w writeOk s) := by
  grind [execComparatorCrossing, NextKeeps.next, keeps_cmpTake]

theorem keeps_execCmpSampleTick (h : Keeps lk a s) (t : TileId) (k : Fin 16) (w : AnalogIn) (writeOk : Bool) :
    NextKeeps lk a (execCmpSampleTick t k w writeOk s) := by
  grind [execCmpSampleTick, NextKeeps.next, keeps_modCmp, keeps_cmpTake]

theorem keeps_execTimerCompare (h : Keeps lk a s) (t : TileId) (k : Fin 8) :
    NextKeeps lk a (execTimerCompare t k s) := by
  grind [execTimerCompare, NextKeeps.next, keeps_passCompare]

theorem keeps_execTimerWrap (h : Keeps lk a s) (t : TileId) (k : Fin 8) :
    NextKeeps lk a (execTimerWrap t k s) := by
  grind [execTimerWrap, NextKeeps.next, keeps_passCompare, keeps_wrapTmr]

theorem keeps_execTimerOneShotEnd (h : Keeps lk a s) (t : TileId) (k : Fin 8) :
    NextKeeps lk a (execTimerOneShotEnd t k s) := by
  grind [execTimerOneShotEnd, NextKeeps.next, keeps_changeTmr, keeps_passCompare]

theorem keeps_execTimerSourceEdge (h : Keeps lk a s) (t : TileId) (k : Fin 8) :
    NextKeeps lk a (execTimerSourceEdge t k s) := by
  grind [execTimerSourceEdge, NextKeeps.next, keeps_dropEdge, keeps_captureTmr, keeps_startTmr]

theorem keeps_execCmpCheckEnd (h : Keeps lk a s) (t : TileId) (k : Fin 16) (observed : Bool) :
    NextKeeps lk a (execCmpCheckEnd t k observed s) := by
  grind [execCmpCheckEnd, NextKeeps.next, keeps_postTile, keeps_cmpRefresh, keeps_complete, keeps_modCmp, keeps_modCt]

theorem keeps_execHostEnable (h : Keeps lk a s) (h : HostId) :
    NextKeeps lk a (execHostEnable h s) := by
  grind [execHostEnable, NextKeeps.next, keeps_modHost, keeps_enableHost]

theorem keeps_execDeviceReady (h : Keeps lk a s)  :
    NextKeeps lk a (execDeviceReady  s) := by
  grind [execDeviceReady, NextKeeps.next, keeps_enableHost, keeps_foldl, keeps_modHif]

theorem keeps_execDoorbellPoll (h : Keeps lk a s) (h : HostId) (rd : PollReads) :
    NextKeeps lk a (execDoorbellPoll h rd s) := by
  grind [execDoorbellPoll, NextKeeps.next, keeps_takeReach, keeps_setHost, keeps_pollChange, keeps_pollFailed]

theorem keeps_execQuiesce (h : Keeps lk a s) (h : HostId) :
    NextKeeps lk a (execQuiesce h s) := by
  grind [execQuiesce, NextKeeps.next, keeps_modHost, keeps_settleQuiesced]

theorem keeps_execQuiesceClear (h : Keeps lk a s) (h : HostId) :
    NextKeeps lk a (execQuiesceClear h s) := by
  grind [execQuiesceClear, NextKeeps.next, keeps_modHost, keeps_serveRings, keeps_settleQuiesced]

theorem keeps_execMsixModTimeExpiry (h : Keeps lk a s) (g : HostId) (ring : Option (BitVec 16)) :
    NextKeeps lk a (execMsixModTimeExpiry g ring s) := by
  unfold execMsixModTimeExpiry
  extract_lets r
  refine .next ?_
  split
  · exact h
  · split
    · exact keeps_signalRing h r
    · exact h

theorem keeps_execReservedOpcode (h : Keeps lk a s) (op : Byte) (q : Req) :
    NextKeeps lk a (execReservedOpcode op q s) := by
  grind [execReservedOpcode, NextKeeps.next, keeps_markStarted, keeps_complete, keeps_parkDesc]

theorem keeps_execHostDisable (h : Keeps lk a s) (h : HostId) :
    NextKeeps lk a (execHostDisable h s) := by
  grind [execHostDisable, NextKeeps.next, keeps_disableHost]

theorem keeps_execRegisterWrite (h : Keeps lk a s) (h : HostId) (offset : Fin 65536) (wide : Bool) (value : BitVec 64) :
    NextKeeps lk a (execRegisterWrite h offset wide value s) := by
  grind [execRegisterWrite, NextKeeps.next, keeps_unmaskVectors, keeps_modHost, keeps_hostControl, keeps_signalDue]

theorem keeps_execFunctionReset (h : Keeps lk a s) (h : HostId) :
    NextKeeps lk a (execFunctionReset h s) := by
  grind [execFunctionReset, NextKeeps.next, keeps_resetHost, keeps_post]

theorem keeps_execPortReset (h : Keeps lk a s) (portB : Bool) :
    NextKeeps lk a (execPortReset portB s) := by
  grind [execPortReset, NextKeeps.next, keeps_portReset]

theorem keeps_execSerdesSupplyLoss (h : Keeps lk a s)  :
    NextKeeps lk a (execSerdesSupplyLoss  s) := by
  grind [execSerdesSupplyLoss, NextKeeps.next, keeps_portReset, keeps_modDev, keeps_linkLost]

theorem keeps_execSerdesSupplyReturn (h : Keeps lk a s)  :
    NextKeeps lk a (execSerdesSupplyReturn  s) := by
  grind [execSerdesSupplyReturn, NextKeeps.next, keeps_modDev]

theorem keeps_execCheckpointDrainDone (h : Keeps lk a s) (c : CaseId) :
    NextKeeps lk a (execCheckpointDrainDone c s) := by
  grind [execCheckpointDrainDone, NextKeeps.next, keeps_drainEnd]

theorem keeps_execPacketInject (h : Keeps lk a s) (t : TileId) (p : Packet) :
    NextKeeps lk a (execPacketInject t p s) := by
  grind [execPacketInject, NextKeeps.next, keeps_enterPacket, keeps_modNet, keeps_routerSettle, keeps_staleDrop]

theorem keeps_execFlitReceive (h : Keeps lk a s) (t : TileId) (src : FlitFrom) (crcGood : Bool) :
    NextKeeps lk a (execFlitReceive t src crcGood s) := by
  unfold execFlitReceive
  extract_lets x
  refine .next ?_
  split
  · next f =>
    split
    · exact h
    · split
      · exact keeps_takeService h t.val f
      · exact keeps_badFlit h t.val _ _
  · next p =>
    split
    · exact h
    · split
      · exact h
      · split
        · exact keeps_crossLink h t.val _ _
        · exact keeps_badFlit h t.val _ _

theorem keeps_execBounce (h : Keeps lk a s) (t : TileId) (p : Packet) (q : Option Req) (kept : List Byte) :
    NextKeeps lk a (execBounce t p q kept s) := by
  unfold execBounce
  extract_lets st hd
  refine .next ?_
  split
  · exact h
  · split
    · exact h
    · split
      · exact keeps_complete h _ _ _
      · split
        · split
          · exact keeps_complete h _ _ _
          · split
            · exact h
            · exact keeps_modNet (keeps_modHif h _) t.val _
        · exact h

theorem keeps_execRoleUpdate (h : Keeps lk a s) (t : TileId) :
    NextKeeps lk a (execRoleUpdate t s) := by
  grind [execRoleUpdate, NextKeeps.next, keeps_modEpoch, keeps_modNet]

theorem keeps_execRoleUpdateAck (h : Keeps lk a s) (t : TileId) :
    NextKeeps lk a (execRoleUpdateAck t s) := by
  grind [execRoleUpdateAck, NextKeeps.next, keeps_modEpoch, keeps_epochSettle]

theorem keeps_execEpochSwitch (h : Keeps lk a s) (t : TileId) :
    NextKeeps lk a (execEpochSwitch t s) := by
  grind [execEpochSwitch, NextKeeps.next, keeps_modEpoch, keeps_epochSettle, keeps_modNet]

theorem keeps_execEpochSwitchAck (h : Keeps lk a s) (t : TileId) :
    NextKeeps lk a (execEpochSwitchAck t s) := by
  grind [execEpochSwitchAck, NextKeeps.next, keeps_modEpoch, keeps_epochSettle, keeps_cases]

theorem keeps_execDrainQuery (h : Keeps lk a s) (t : TileId) :
    NextKeeps lk a (execDrainQuery t s) := by
  grind [execDrainQuery, NextKeeps.next, keeps_modEpoch]

theorem keeps_execDrainReport (h : Keeps lk a s) (t : TileId) :
    NextKeeps lk a (execDrainReport t s) := by
  grind [execDrainReport, NextKeeps.next, keeps_modEpoch, keeps_epochDrained, keeps_modHub]

theorem keeps_execShutter (h : Keeps lk a s) (i : ShutterId) (op : ShutterOp) : NextKeeps lk a (execShutter i op s) := by
  refine .next ?_
  split
  · exact keeps_setShut h i _
  · exact keeps_setShut h i _
  · exact h

theorem keeps_execShutterFenceHolds (h : Keeps lk a s) (i : ShutterId) :
    NextKeeps lk a (execShutterFenceHolds i s) := by
  grind [execShutterFenceHolds, NextKeeps.next, keeps_sendAck, keeps_setShut]

theorem keeps_execTcReady (h : Keeps lk a s) (i : ShutterId) :
    NextKeeps lk a (execTcReady i s) := by
  grind [execTcReady, NextKeeps.next, keeps_sendAck, keeps_setShut]

theorem keeps_execShutterAck (h : Keeps lk a s) (i : ShutterId) :
    NextKeeps lk a (execShutterAck i s) := by
  grind [execShutterAck, NextKeeps.next, keeps_modHub]

theorem keeps_execShutterStalled (h : Keeps lk a s) (i : ShutterId) : NextKeeps lk a (execShutterStalled i s) := by
  unfold execShutterStalled
  extract_lets done mark
  refine .next ?_
  have marked : Keeps lk a mark := by
    unfold mark
    split
    · exact keeps_modNet h _ _
    · exact keeps_modNet h _ _
  split
  · exact keeps_postTile marked _ _ _ _ _ _
  · exact h

theorem keeps_execProbe (h : Keeps lk a s) (t : TileId) (p : Packet) :
    NextKeeps lk a (execProbe t p s) := by
  grind [execProbe, NextKeeps.next, keeps_modNet]

theorem keeps_execProbeReply (h : Keeps lk a s) (p : Packet) (cycles : BitVec 32) :
    NextKeeps lk a (execProbeReply p cycles s) := by
  grind [execProbeReply, NextKeeps.next, keeps_modHub, keeps_complete]

theorem keeps_execNetProbeTimeout (h : Keeps lk a s)  :
    NextKeeps lk a (execNetProbeTimeout  s) := by
  grind [execNetProbeTimeout, NextKeeps.next, keeps_modHub, keeps_complete]

theorem keeps_execDozeExit (h : Keeps lk a s) (c : CaseId) :
    NextKeeps lk a (execDozeExit c s) := by
  grind [execDozeExit, NextKeeps.next, keeps_backToRun, keeps_modTiles, = tileStoresOk_iff]

theorem keeps_execHoldEntry (h : Keeps lk a s) (c : CaseId) :
    NextKeeps lk a (execHoldEntry c s) := by
  grind [execHoldEntry, NextKeeps.next, keeps_holdFinish, keeps_holdBegin]

theorem keeps_execHoldExit (h : Keeps lk a s) (c : CaseId) (vio : List Nat) :
    NextKeeps lk a (execHoldExit c vio s) := by
  grind [execHoldExit, NextKeeps.next, keeps_holdGo, keeps_foldl, keeps_settleTins, keeps_modCase, keeps_settleFabric, keeps_exitTile]

theorem keeps_execGeneratorLocked (h : Keeps lk a s) (t : TileId) : NextKeeps lk a (execGeneratorLocked t s) := by
  unfold execGeneratorLocked
  extract_lets x s1
  refine .next ?_
  have locked : Keeps lk a s1 := keeps_spareLocked (keeps_modCyc (keeps_rebaseTmrs h t.val) t.val _) t.val
  split
  · exact h
  · split
    · exact keeps_settleFaultN (keeps_holdGo locked _)
    · exact keeps_settleFaultN locked

theorem keeps_execSleepPowerOff (h : Keeps lk a s) : NextKeeps lk a (execSleepPowerOff s) := by
  unfold execSleepPowerOff
  extract_lets s1 s2 s3 s4
  refine .next ?_
  have ports : Keeps lk a s1 := keeps_portReset (keeps_portReset h false) true
  have tiles : Keeps lk a s2 := keeps_modTiles ports _ _ fun t x hx => stores_sleepTile t x hx
  have links : Keeps lk a s3 := keeps_modHub (keeps_modBsp tiles _) _
  have window : Keeps lk a s4 := keeps_modLoad (keeps_modJnl links _ fun _ _ => rfl) _
  split
  · exact h
  · exact keeps_modDev_same window _

theorem keeps_execSleepAlarm (h : Keeps lk a s)  :
    NextKeeps lk a (execSleepAlarm  s) := by
  grind [execSleepAlarm, NextKeeps.next, keeps_modDev, keeps_postWake]

theorem keeps_execSleepWake (h : Keeps lk a s) (vio : List Nat) : NextKeeps lk a (execSleepWake vio s) := by
  unfold execSleepWake
  extract_lets s1 s2
  refine .next ?_
  have powered : Keeps lk a s1 := keeps_foldl _ _ (keeps_modTiles_same h _ _) fun u t hu => keeps_classify hu vio t
  have awake : Keeps lk a s2 := keeps_modDev_same (keeps_modBsp powered _) _
  split
  · exact h
  · exact keeps_settleFaultN (keeps_cases awake _)

theorem keeps_execResetEnd (h : Keeps lk a s) (stewardSel : BitVec 2) (vio : List Nat) :
    NextKeeps lk a (execResetEnd stewardSel vio s) := by
  unfold execResetEnd
  extract_lets code s1 s2 s3
  refine .next ?_
  have powered : Keeps lk a s1 := by
    refine keeps_foldl _ _ ?_ fun u t hu => keeps_classify hu vio t
    split
    · exact keeps_powerUp h
    · exact h
  have ended : Keeps lk a s3 := keeps_modDev_same (keeps_modBsp (keeps_modHif powered _) _) _
  split
  · exact h
  · exact keeps_post ended _ _ _ _ _

theorem keeps_execVioLoss (h : Keeps lk a s) (t : TileId) :
    NextKeeps lk a (execVioLoss t s) := by
  grind [execVioLoss, NextKeeps.next, keeps_settleTins, keeps_settleFabric, keeps_modPin]

theorem keeps_execEventPost (h : Keeps lk a s) (i : Nat) (writeOk : Bool) :
    NextKeeps lk a (execEventPost i writeOk s) := by
  grind [execEventPost, NextKeeps.next, keeps_recTick, keeps_recTake, keeps_modRcd]

theorem keeps_execRateLimitRefill (h : Keeps lk a s) (code : BitVec 12) :
    NextKeeps lk a (execRateLimitRefill code s) := by
  grind [execRateLimitRefill, NextKeeps.next, keeps_setBucket, keeps_recOwn]

theorem keeps_execTimeRingWrite (h : Keeps lk a s)  :
    NextKeeps lk a (execTimeRingWrite  s) := by
  grind [execTimeRingWrite, NextKeeps.next, keeps_modRcd]

theorem keeps_execDesignEventEdge (h : Keeps lk a s) (t : TileId) (src : BitVec 12) :
    NextKeeps lk a (execDesignEventEdge t src s) := by
  grind [execDesignEventEdge, NextKeeps.next, keeps_dropEdge, keeps_postTile, keeps_foldl]

/-- The commands with which a reset of the device may begin. -/
def MayReset : Instr → Prop
  | .coldReset _ _ | .pinReset | .deviceResetStart => True
  | _ => False

theorem Keeps.of_reset (h : Keeps False a s) (hl : ¬ lk) : Keeps lk a s :=
  ⟨h.pending, fun l => absurd l hl, h.keys, h.stores⟩

/-- What a COLD reset does: the harms to MRAM, then the reset with the brown-outs that it finds. -/
theorem keeps_coldReset (h : Keeps lk a s) (harms : List MramHarm) :
    Keeps False a (deviceReset (harms.foldl harmMram s) .cold (brownOuts (harms.foldl harmMram s))) :=
  keeps_deviceReset (keeps_foldl _ _ h fun _ x hu => keeps_harmMram hu x) _ _

theorem keeps_execColdReset (h : Keeps lk a s) (supply : Option (Supply × Nat)) (harms : List MramHarm) (hl : ¬ lk) :
    NextKeeps lk a (execColdReset supply harms s) := by
  unfold execColdReset
  extract_lets cold
  refine .next ?_
  split
  · exact (keeps_coldReset h harms).of_reset hl
  · next v mv =>
    split
    · exact h
    · exact keeps_modDev_same ((keeps_coldReset (keeps_noteBrownOut h v) harms).of_reset hl) _

theorem keeps_execPinReset (h : Keeps lk a s) (hl : ¬ lk) : NextKeeps lk a (execPinReset s) := by
  refine .next ?_
  split
  · exact h
  · exact (keeps_deviceReset h _ _).of_reset hl

theorem keeps_execDeviceResetStart (h : Keeps lk a s) (hl : ¬ lk) : NextKeeps lk a (execDeviceResetStart s) := by
  refine .next ?_
  split
  · exact (keeps_deviceReset h _ _).of_reset hl
  · exact h

theorem keeps_desc (h : Keeps lk a s) (i : Instr) (op : Nat) (q : Req) (body : State → Reply × State)
    (hb : ∀ u, Keeps lk a u → Keeps lk a (body u).2) : NextKeeps lk a (.next (runDesc i op q body s)) :=
  .next (keeps_runDesc h i op q body hb)

/-- Every command keeps the queue and the canonical form of the stores and lets key slots only grow; every one with
which no reset of the device may begin keeps the pin locks. -/
theorem keeps_exec (c : Instr) (s : State) : NextKeeps (¬ MayReset c) s (exec c s) := by
  have same : Keeps (¬ MayReset c) s s := .refl _ s
  cases c with
  | programmeStep t seen => exact keeps_execProgrammeStep same t seen
  | gather hub c w => exact keeps_execGather same hub c w
  | lintelClose t => exact keeps_execLintelClose same t
  | lintelRelease t => exact keeps_execLintelRelease same t
  | bundleArrival t p => exact keeps_execBundleArrival same t p
  | stallTimeout t => exact keeps_execStallTimeout same t
  | sysrefLoss => exact keeps_execSysrefLoss same
  | sysrefReturn => exact keeps_execSysrefReturn same
  | generatorUnlock t => exact keeps_execGeneratorUnlock same t
  | generatorRelock t => exact keeps_execGeneratorRelock same t
  | clockFailed t => exact keeps_execClockFailed same t
  | configScan t q good => exact keeps_execConfigScan same t q good
  | tcWatchdogExpiry t => exact keeps_execTcWatchdogExpiry same t
  | tcRestartDone t bootOk => exact keeps_execTcRestartDone same t bootOk
  | autoRetire t => exact keeps_execAutoRetire same t
  | fabricRamPortAAccess t q upsets meetsPortB broken => exact keeps_execFabricRamPortAAccess same t q upsets meetsPortB broken
  | fabricClockRestart t k => exact keeps_execFabricClockRestart same t k
  | pinSwitchSettle t n => exact keeps_execPinSwitchSettle same t n
  | comparatorCrossing t k w writeOk => exact keeps_execComparatorCrossing same t k w writeOk
  | cmpSampleTick t k w writeOk => exact keeps_execCmpSampleTick same t k w writeOk
  | timerCompare t k => exact keeps_execTimerCompare same t k
  | timerWrap t k => exact keeps_execTimerWrap same t k
  | timerOneShotEnd t k => exact keeps_execTimerOneShotEnd same t k
  | timerSourceEdge t k => exact keeps_execTimerSourceEdge same t k
  | triggerDelayExpiry t => exact keeps_execTriggerDelayExpiry same t
  | conversionIssue t => exact keeps_execConversionIssue same t
  | conversionComplete t slice w => exact keeps_execConversionComplete same t slice w
  | injSourceEdge t j => exact keeps_execInjSourceEdge same t j
  | accSnapEdge t a => exact keeps_execAccSnapEdge same t a
  | designEventEdge t src => exact keeps_execDesignEventEdge same t src
  | currentLimitExpiry t o => exact keeps_execCurrentLimitExpiry same t o
  | referenceSettled t l => exact keeps_execReferenceSettled same t l
  | arefRangeChange sec inRange => exact keeps_execArefRangeChange same sec inRange
  | anSwitchClose t => exact keeps_execAnSwitchClose same t
  | anOutClose t => exact keeps_execAnOutClose same t
  | hostEnable g => exact keeps_execHostEnable same g
  | hostDisable g => exact keeps_execHostDisable same g
  | quiesce g => exact keeps_execQuiesce same g
  | quiesceClear g => exact keeps_execQuiesceClear same g
  | registerWrite g offset wide value => exact keeps_execRegisterWrite same g offset wide value
  | deviceReady => exact keeps_execDeviceReady same
  | doorbellPoll g rd => exact keeps_execDoorbellPoll same g rd
  | msixModTimeExpiry g ring => exact keeps_execMsixModTimeExpiry same g ring
  | reservedOpcode op q => exact keeps_execReservedOpcode same op q
  | nop q => exact keeps_desc same _ _ _ _ fun u hu => keeps_nopBody hu q
  | ringCreate q => exact keeps_desc same _ _ _ _ fun u hu => keeps_ringCreateBody hu q
  | ringDelete q => exact keeps_desc same _ _ _ _ fun u hu => keeps_ringDeleteBody hu q
  | ringModerate q => exact keeps_desc same _ _ _ _ fun u hu => keeps_ringModerateBody hu q
  | ringQuery q => exact keeps_desc same _ _ _ _ fun u hu => keeps_ringQueryBody hu q
  | ringAssign q => exact keeps_desc same _ _ _ _ fun u hu => keeps_ringAssignBody hu q
  | stewardHandover q => exact keeps_desc same _ _ _ _ fun u hu => keeps_stewardHandoverBody hu q
  | hostStatus q => exact keeps_desc same _ _ _ _ fun u hu => keeps_hostStatusBody hu q
  | cfgLoad q => exact keeps_desc same _ _ _ _ fun u hu => keeps_cfgLoadBody hu q
  | imageData bytes ended => exact keeps_execImageData same bytes ended
  | loadPauseTimeout c => exact keeps_execLoadPauseTimeout same c
  | loadPass2Start => exact keeps_execLoadPass2Start same
  | fetchTimeout => exact keeps_execFetchTimeout same
  | startUpStep c => exact keeps_execStartUpStep same c
  | startUpLockTimeout c => exact keeps_execStartUpLockTimeout same c
  | cfgStatus q => exact keeps_desc same _ _ _ _ fun u hu => keeps_cfgStatusBody hu q
  | cfgKeyProgram q => exact keeps_desc same _ _ _ _ fun u hu => keeps_cfgKeyBody hu 1 q
  | cfgKeyRevoke q => exact keeps_desc same _ _ _ _ fun u hu => keeps_cfgKeyBody hu 2 q
  | caseCreate q => exact keeps_desc same _ _ _ _ fun u hu => keeps_caseCreateBody hu q
  | caseDissolve q => exact keeps_desc same _ _ _ _ fun u hu => keeps_caseDissolveBody hu q
  | caseOwner q => exact keeps_desc same _ _ _ _ fun u hu => keeps_caseOwnerBody hu q
  | caseReset q => exact keeps_desc same _ _ _ _ fun u hu => keeps_caseResetBody hu q
  | casePolicy q => exact keeps_desc same _ _ _ _ fun u hu => keeps_casePolicyBody hu q
  | casePinAssign q => exact keeps_desc same _ _ _ _ fun u hu => keeps_casePinAssignBody hu q
  | rolePromote q => exact keeps_desc same _ _ _ _ fun u hu => keeps_rolePromoteBody hu q
  | backgroundCopyDone => exact keeps_execBackgroundCopyDone same
  | roleRetire q => exact keeps_desc same _ _ _ _ fun u hu => keeps_roleRetireBody hu q
  | tileRetest q => exact keeps_desc same _ _ _ _ fun u hu => keeps_tileRetestBody hu q
  | tileRepair q => exact keeps_desc same _ _ _ _ fun u hu => keeps_tileRepairBody hu q
  | tcFwLoad q => exact keeps_desc same _ _ _ _ fun u hu => keeps_tcFwLoadBody hu q
  | tcFwActivate q => exact keeps_desc same _ _ _ _ fun u hu => keeps_tcFwActivateBody hu q
  | caseStatus q => exact keeps_desc same _ _ _ _ fun u hu => keeps_caseStatusBody hu q
  | tileStatus q => exact keeps_desc same _ _ _ _ fun u hu => keeps_tileStatusBody hu q
  | bpPeek q => exact keeps_desc same _ _ _ _ fun u hu => keeps_bpPeekBody hu q
  | bpPoke q => exact keeps_desc same _ _ _ _ fun u hu => keeps_bpPokeBody hu q
  | memPeek q => exact keeps_desc same _ _ _ _ fun u hu => keeps_memPeekBody hu q
  | memPoke q => exact keeps_desc same _ _ _ _ fun u hu => keeps_memPokeBody hu q
  | scheduleInfo q => exact keeps_desc same _ _ _ _ fun u hu => keeps_scheduleInfoBody hu q
  | storeStatus q => exact keeps_desc same _ _ _ _ fun u hu => keeps_storeStatusBody hu q
  | cycleRate q => exact keeps_desc same _ _ _ _ fun u hu => keeps_cycleRateBody hu q
  | cyclePause q => exact keeps_desc same _ _ _ _ fun u hu => keeps_cyclePauseBody hu q
  | cycleStep q => exact keeps_desc same _ _ _ _ fun u hu => keeps_cycleStepBody hu q
  | boundaryPeek q => exact keeps_desc same _ _ _ _ fun u hu => keeps_boundaryPeekBody hu q
  | lintelStatus q => exact keeps_desc same _ _ _ _ fun u hu => keeps_lintelStatusBody hu q
  | pinWrite q => exact keeps_desc same _ _ _ _ fun u hu => keeps_pinWriteBody hu q
  | pinRead q => exact keeps_desc same _ _ _ _ fun u hu => keeps_pinReadBody hu q
  | pinSetup q => exact keeps_desc same _ _ _ _ fun u hu => keeps_pinSetupBody hu q
  | pinLine q => exact keeps_desc same _ _ _ _ fun u hu => keeps_pinLineBody hu q
  | pinLock q => exact keeps_desc same _ _ _ _ fun u hu => keeps_pinLockBody hu q
  | pinStatus q => exact keeps_desc same _ _ _ _ fun u hu => keeps_pinStatusBody hu q
  | pinWindowStore t mask word => exact keeps_execPinWindowStore same t mask word
  | pinLockWrite t word => exact keeps_execPinLockWrite same t word
  | anCellSet q => exact keeps_desc same _ _ _ _ fun u hu => keeps_anCellSetBody hu q
  | anNetSet q => exact keeps_desc same _ _ _ _ fun u hu => keeps_anNetSetBody hu q
  | anPinSet q => exact keeps_desc same _ _ _ _ fun u hu => keeps_anPinSetBody hu q
  | anStatus q => exact keeps_desc same _ _ _ _ fun u hu => keeps_anStatusBody hu q
  | cmpSet q => exact keeps_desc same _ _ _ _ fun u hu => keeps_cmpSetBody hu q
  | cmpEvbind q => exact keeps_desc same _ _ _ _ fun u hu => keeps_cmpEvbindBody hu q
  | cmpCheck q => exact keeps_desc same _ _ _ _ fun u hu => keeps_cmpCheckBody hu q
  | tmSet q => exact keeps_desc same _ _ _ _ fun u hu => keeps_tmSetBody hu q
  | tmArm q => exact keeps_desc same _ _ _ _ fun u hu => keeps_tmArmBody hu q
  | tmRead q => exact keeps_desc same _ _ _ _ fun u hu => keeps_tmReadBody hu q
  | ctStatus q => exact keeps_desc same _ _ _ _ fun u hu => keeps_ctStatusBody hu q
  | cvSetup q => exact keeps_desc same _ _ _ _ fun u hu => keeps_cvSetupBody hu q
  | cvSeqSet q => exact keeps_desc same _ _ _ _ fun u hu => keeps_cvSeqSetBody hu q
  | cvInjSet q => exact keeps_desc same _ _ _ _ fun u hu => keeps_cvInjSetBody hu q
  | cvStart q => exact keeps_desc same _ _ _ _ fun u hu => keeps_cvStartBody hu q
  | cvInject q => exact keeps_desc same _ _ _ _ fun u hu => keeps_cvInjectBody hu q
  | cvAccSet q => exact keeps_desc same _ _ _ _ fun u hu => keeps_cvAccSetBody hu q
  | cvAccRead q => exact keeps_desc same _ _ _ _ fun u hu => keeps_cvAccReadBody hu q
  | cvTrkRead q => exact keeps_desc same _ _ _ _ fun u hu => keeps_cvTrkReadBody hu q
  | cvSnap q => exact keeps_desc same _ _ _ _ fun u hu => keeps_cvSnapBody hu q
  | cvStatus q => exact keeps_desc same _ _ _ _ fun u hu => keeps_cvStatusBody hu q
  | calCapture q => exact keeps_desc same _ _ _ _ fun u hu => keeps_calCaptureBody hu q
  | calCompute q => exact keeps_desc same _ _ _ _ fun u hu => keeps_calComputeBody hu q
  | calCellZero q => exact keeps_desc same _ _ _ _ fun u hu => keeps_calCellZeroBody hu q
  | calSlice q => exact keeps_desc same _ _ _ _ fun u hu => keeps_calSliceBody hu q
  | calLimits q => exact keeps_desc same _ _ _ _ fun u hu => keeps_calLimitsBody hu q
  | calRead q => exact keeps_desc same _ _ _ _ fun u hu => keeps_calReadBody hu q
  | fabricRamRead q => exact keeps_desc same _ _ _ _ fun u hu => keeps_fabricRamReadBody hu q
  | fabricRamWrite q => exact keeps_desc same _ _ _ _ fun u hu => keeps_fabricRamWriteBody hu q
  | fabricStatus q => exact keeps_desc same _ _ _ _ fun u hu => keeps_fabricStatusBody hu q
  | fabricClock q => exact keeps_desc same _ _ _ _ fun u hu => keeps_fabricClockBody hu q
  | bspLink q => exact keeps_desc same _ _ _ _ fun u hu => keeps_bspLinkBody hu q
  | bspStatus q => exact keeps_desc same _ _ _ _ fun u hu => keeps_bspStatusBody hu q
  | bspStreamBind q => exact keeps_desc same _ _ _ _ fun u hu => keeps_bspStreamBindBody hu q
  | bspExportSet q => exact keeps_desc same _ _ _ _ fun u hu => keeps_bspExportSetBody hu q
  | bspStreamReset q => exact keeps_desc same _ _ _ _ fun u hu => keeps_bspStreamResetBody hu q
  | bspOutSet q => exact keeps_desc same _ _ _ _ fun u hu => keeps_bspOutSetBody hu q
  | bspTrainingTimeout => exact keeps_execBspTrainingTimeout same
  | jnlControl q => exact keeps_desc same _ _ _ _ fun u hu => keeps_jnlControlBody hu q
  | jnlExport q => exact keeps_desc same _ _ _ _ fun u hu => keeps_jnlExportBody hu q
  | jnlRead q => exact keeps_desc same _ _ _ _ fun u hu => keeps_jnlReadBody hu q
  | jnlStatus q => exact keeps_desc same _ _ _ _ fun u hu => keeps_jnlStatusBody hu q
  | jnlCheckpoint q => exact keeps_desc same _ _ _ _ fun u hu => keeps_jnlCheckpointBody hu q
  | jnlMark q => exact keeps_desc same _ _ _ _ fun u hu => keeps_jnlMarkBody hu q
  | jnlShadow q => exact keeps_desc same _ _ _ _ fun u hu => keeps_jnlShadowBody hu q
  | jnlReplay q => exact keeps_desc same _ _ _ _ fun u hu => keeps_jnlReplayBody hu q
  | checkpointDrainDone c => exact keeps_execCheckpointDrainDone same c
  | recRead q => exact keeps_desc same _ _ _ _ fun u hu => keeps_recReadBody hu q
  | recStatus q => exact keeps_desc same _ _ _ _ fun u hu => keeps_recStatusBody hu q
  | recTimeSet q => exact keeps_desc same _ _ _ _ fun u hu => keeps_recTimeSetBody hu q
  | recPost q => exact keeps_desc same _ _ _ _ fun u hu => keeps_recPostBody hu q
  | recLimit q => exact keeps_desc same _ _ _ _ fun u hu => keeps_recLimitBody hu q
  | recNotify q => exact keeps_desc same _ _ _ _ fun u hu => keeps_recNotifyBody hu q
  | recDesignBind q => exact keeps_desc same _ _ _ _ fun u hu => keeps_recDesignBindBody hu q
  | eventPost n writeOk => exact keeps_execEventPost same n writeOk
  | rateLimitRefill code => exact keeps_execRateLimitRefill same code
  | timeRingWrite => exact keeps_execTimeRingWrite same
  | pwrState q => exact keeps_desc same _ _ _ _ fun u hu => keeps_pwrStateBody hu q
  | pwrSleep q => exact keeps_desc same _ _ _ _ fun u hu => keeps_pwrSleepBody hu q
  | pwrReset q => exact keeps_desc same _ _ _ _ fun u hu => keeps_pwrResetBody hu q
  | pwrStatus q => exact keeps_desc same _ _ _ _ fun u hu => keeps_pwrStatusBody hu q
  | netRouterStatus q => exact keeps_desc same _ _ _ _ fun u hu => keeps_netRouterStatusBody hu q
  | netRoleRead q => exact keeps_desc same _ _ _ _ fun u hu => keeps_netRoleReadBody hu q
  | netProbe q => exact keeps_desc same _ _ _ _ fun u hu => keeps_netProbeBody hu q
  | netLinkRetrain q comesUp => exact keeps_desc same _ _ _ _ fun u hu => keeps_netLinkRetrainBody hu q comesUp
  | netProbeTimeout => exact keeps_execNetProbeTimeout same
  | packetInject t p => exact keeps_execPacketInject same t p
  | flitReceive t src crcGood => exact keeps_execFlitReceive same t src crcGood
  | bounce t p q kept => exact keeps_execBounce same t p q kept
  | roleUpdate t => exact keeps_execRoleUpdate same t
  | roleUpdateAck t => exact keeps_execRoleUpdateAck same t
  | epochSwitch t => exact keeps_execEpochSwitch same t
  | epochSwitchAck t => exact keeps_execEpochSwitchAck same t
  | drainQuery t => exact keeps_execDrainQuery same t
  | drainReport t => exact keeps_execDrainReport same t
  | shutter j op => exact keeps_execShutter same j op
  | shutterFenceHolds j => exact keeps_execShutterFenceHolds same j
  | tcReady j => exact keeps_execTcReady same j
  | shutterAck j => exact keeps_execShutterAck same j
  | shutterStalled j => exact keeps_execShutterStalled same j
  | probe t p => exact keeps_execProbe same t p
  | probeReply p cycles => exact keeps_execProbeReply same p cycles
  | bspSegmentReceive blocks => exact keeps_execBspSegmentReceive same blocks
  | bspCredit b => exact keeps_execBspCredit same b
  | bspAck b => exact keeps_execBspAck same b
  | bspNak b => exact keeps_execBspNak same b
  | bspAlign lane b => exact keeps_execBspAlign same lane b
  | laneLockLoss lane => exact keeps_execLaneLockLoss same lane
  | bspLinkUp lanes => exact keeps_execBspLinkUp same lanes
  | bspSegmentSend stream => exact keeps_execBspSegmentSend same stream
  | holdEntry c => exact keeps_execHoldEntry same c
  | holdExit c vio => exact keeps_execHoldExit same c vio
  | dozeExit c => exact keeps_execDozeExit same c
  | sleepPowerOff => exact keeps_execSleepPowerOff same
  | sleepAlarm => exact keeps_execSleepAlarm same
  | sleepWake vio => exact keeps_execSleepWake same vio
  | coldReset supply harms => exact keeps_execColdReset same supply harms fun hl => hl trivial
  | pinReset => exact keeps_execPinReset same fun hl => hl trivial
  | deviceResetStart => exact keeps_execDeviceResetStart same fun hl => hl trivial
  | resetEnd stewardSel vio => exact keeps_execResetEnd same stewardSel vio
  | portReset portB => exact keeps_execPortReset same portB
  | functionReset g => exact keeps_execFunctionReset same g
  | vioLoss t => exact keeps_execVioLoss same t
  | serdesSupplyLoss => exact keeps_execSerdesSupplyLoss same
  | padInputChange t n drive => exact keeps_execPadInputChange same t n drive
  | fabricClockEdge t ks rising broken => exact keeps_execFabricClockEdge same t ks rising broken
  | serdesSupplyReturn => exact keeps_execSerdesSupplyReturn same
  | generatorLocked t => exact keeps_execGeneratorLocked same t
  | marchTestDone t r => exact keeps_execMarchTestDone same t r
  | cmpCheckEnd t k observed => exact keeps_execCmpCheckEnd same t k observed
  | calCellZeroEnd t => exact keeps_execCalCellZeroEnd same t

theorem keeps_ticks (s : State) : Keeps True s (recTick (linkTick (flushAll (timerFalls (commitTicks (portBTick
    (modDev s fun d => if d.inReset == .cold then d else { d with now := d.now + 1 }))))))) := by
  refine keeps_recTick (keeps_linkTick (keeps_flushAll (keeps_timerFalls (keeps_commitTicks (keeps_portBTick
    (keeps_modDev_same (.refl _ s) _ fun d => ?_))))))
  split
  · exact ⟨rfl, rfl⟩
  · exact ⟨rfl, rfl⟩

theorem idle_keys (s : State) (n : Nat) : SlotGrows (keySlot s n) (keySlot (idle s) n) := by
  unfold idle
  extract_lets s1
  have ticked : Keeps True s s1 := keeps_ticks s
  clear_value s1
  split
  · exact ticked.keys n
  · exact ticked.keys n

theorem idle_stores (s : State) (h : storesOk s) : storesOk (idle s) := by
  unfold idle
  extract_lets s1
  have ticked : Keeps True s s1 := keeps_ticks s
  clear_value s1
  split
  · exact ticked.stores h
  · exact ticked.stores h

theorem step_keys {s t : State} (h : step s = .next t) (n : Nat) : SlotGrows (keySlot s n) (keySlot t n) := by
  unfold step at h
  split at h
  · cases h
    exact idle_keys s n
  · exact (keeps_exec _ _ t h).keys n

theorem step_stores {s t : State} (h : step s = .next t) (ok : storesOk s) : storesOk t := by
  unfold step at h
  split at h
  · cases h
    exact idle_stores s ok
  · exact (keeps_exec _ _ t h).stores ok

/-- Settles O57: each command keeps the canonical form of the stores (`keeps_exec`), and so does a step of an empty queue. -/
theorem storesStayCanonical : Obligations.StoresStayCanonical := fun _ _ ok h => step_stores h ok

/-- Settles O58: no operation of the model writes the queue (`keeps_exec`). -/
theorem commandsLeaveTheQueue : Obligations.CommandsLeaveTheQueue := fun c s t h => (keeps_exec c s t h).pending

/-- Settles O59: the one operation that clears a lock is the reset of the device, with which three commands begin. -/
theorem locksLastUntilReset : Obligations.LocksLastUntilReset := by
  intro c s t n h locked
  by_cases reset : MayReset c
  · right
    cases c with
    | coldReset v g => exact .inl ⟨v, g, rfl⟩
    | pinReset => exact .inr (.inl rfl)
    | deviceResetStart => exact .inr (.inr rfl)
    | _ => exact reset.elim
  · exact .inl ((keeps_exec c s t h).locks reset n locked)

/-- Settles O60: a key slot is written by CFG_KEY_PROGRAM and CFG_KEY_REVOKE and by the loader, which only program and
revoke it. -/
theorem keySlotsOnlyGrow : Obligations.KeySlotsOnlyGrow := fun _ _ n h => step_keys h n

end Sys2Proof.Frame
end

section
/-! ### Runs of bytes in addressed stores -/

namespace Sys2Proof.Stores

open Sys2Proof Sys2Proof.Machine

theorem memGet_memPuts_outside (d : Nat → Byte) (m : List Host.Cell) (a b : Nat) (l : List Byte)
    (h : ¬ (b ≤ a ∧ a < b + l.length)) : memGet d (memPuts d m b l) a = memGet d m a := by
  induction l generalizing m b with
  | nil => rfl
  | cons v r ih =>
    rw [List.length_cons] at h
    rw [memPuts, ih _ _ (by omega), memGet_memPut_ne d m b a v (by omega)]

/-- A byte of a run that has been written. -/
theorem memGet_memPuts_inside (d : Nat → Byte) (m : List Host.Cell) (wf : Memory.wf d m = true) (b i : Nat) (l : List Byte)
    (h : i < l.length) : memGet d (memPuts d m b l) (b + i) = l[i] := by
  induction l generalizing m b i with
  | nil => cases h
  | cons v r ih =>
    have wf' := memPut_wf d m b v wf
    cases i with
    | zero =>
      rw [memPuts, memGet_memPuts_outside d _ _ _ _ (by omega)]
      exact memGet_memPut_self d m 0 b v wf
    | succ j =>
      rw [memPuts, show b + (j + 1) = b + 1 + j by omega, ih _ wf' _ _ (by simpa using h)]
      rfl

@[simp] theorem leBytes_length (n v : Nat) : (leBytes n v).length = n := by
  induction n generalizing v with
  | zero => rfl
  | succ n ih => simp [leBytes, ih]

/-- A byte outside the word written. -/
theorem memGet_ememPut_outside (m : List Host.Cell) (block word v a : Nat)
    (h : ¬ (8192 * block + 4 * word ≤ a ∧ a < 8192 * block + 4 * word + 4)) :
    memGet zeroes (ememPut m block word v) a = memGet zeroes m a :=
  memGet_memPuts_outside _ _ _ _ _ (by rwa [leBytes_length])

end Sys2Proof.Stores
end

section
/-! ### The step, the idle step and the reset state -/

namespace Sys2Proof.Steps

open Sys2Proof Sys2Proof.Machine

/-- Settles O1: with the command in front, `step` takes its second case. -/
theorem stepRunsFrontCommand : Obligations.StepRunsFrontCommand := fun _ _ => rfl

/-- Settles O3: no arm of `exec` answers a fault or a refusal. -/
theorem everyCommandAnswersNext : Obligations.EveryCommandAnswersNext := by
  intro c s
  cases c <;> exact ⟨_, rfl⟩

/-- Settles O56: the reset state has no tile, and an empty window. -/
theorem resetStoresAreCanonical : Obligations.ResetStoresAreCanonical := by
  refine ⟨fun p hp => ?_, ?_⟩
  · simp [State.reset] at hp
  · simp [State.reset, Journal.cold, Memory.wf, memWfFrom]

/-- What every listed tile and the absent ones have in common, any tile has. -/
theorem getTile_of_all {P : Tile → Prop} {s : State} (h : ∀ p ∈ s.tiles, P p.2) (cold : P Tile.cold) (t : Nat) :
    P (getTile s t) := by
  unfold getTile
  generalize s.tiles = m at h
  induction m with
  | nil => exact cold
  | cons p r ih => grind [mget]

theorem foldl_fixed {α β : Type} (f : β → α → β) (b : β) (l : List α) (h : ∀ x, f b x = b) : l.foldl f b = b := by
  induction l with
  | nil => rfl
  | cons x r ih => rw [List.foldl_cons, h, ih]

theorem portBTick_none {s : State} (h : ∀ p ∈ s.tiles, p.2.fab.portB = []) : portBTick s = s :=
  foldl_fixed _ _ _ fun t => by
    rw [portBStep, getTile_of_all (P := fun x => x.fab.portB = []) h rfl]

theorem commitTicks_none {s : State} (h : ∀ p ∈ s.tiles, p.2.cal.commit = none) : commitTicks s = s := by
  have quiet : s.tiles.filter (fun p => p.2.cal.commit.isSome) = [] := by
    simpa [List.filter_eq_nil_iff] using fun i x hx => h (i, x) hx
  rw [commitTicks, quiet]
  rfl

theorem timerFalls_none {s : State} (h : ∀ p ∈ s.tiles, ∀ m ∈ p.2.ct.tmrs, m.2.fallAt = none) : timerFalls s = s := by
  unfold timerFalls
  rw [List.flatMap_eq_nil_iff.mpr]
  · rfl
  · intro p hp
    rw [List.map_eq_nil_iff, List.filter_eq_nil_iff]
    intro m hm
    simp [h p hp m hm]

theorem flushAll_none {s : State} (h : s.bsp.streams.any streamStalls = false) : flushAll s = s := by
  simp [flushAll, h]

theorem linkTick_down {s : State} (h : s.bsp.up = false) : linkTick s = s := by
  simp [linkTick, h]

theorem recTick_empty {s : State} (h : s.rcd.queue = []) : recTick s = s := by
  simp [recTick, h]

/-- Where nothing else is under way, the six ticks of an idle step leave the state as it is. -/
theorem ticks_quiet {s : State} (tiles : ∀ p ∈ s.tiles, p.2.fab.portB = [] ∧ p.2.cal.commit = none ∧
      (∀ m ∈ p.2.ct.tmrs, m.2.fallAt = none))
    (streams : s.bsp.streams.any streamStalls = false) (down : s.bsp.up = false) (queue : s.rcd.queue = []) :
    recTick (linkTick (flushAll (timerFalls (commitTicks (portBTick s))))) = s := by
  rw [portBTick_none fun p hp => (tiles p hp).1, commitTicks_none fun p hp => (tiles p hp).2.1,
    timerFalls_none fun p hp => (tiles p hp).2.2, flushAll_none streams, linkTick_down down, recTick_empty queue]

/-- Settles O2: by `ticks_quiet`, the idle step only takes a descriptor that may start. -/
theorem emptyQueueIdles : Obligations.EmptyQueueIdles := by
  intro s pending tiles streams down queue
  extract_lets later
  have quiet := ticks_quiet (s := later) tiles streams down queue
  have idles : step s = .next (match takeFenced later s.hif.fenced with
      | some (i, r) => { modHif later (fun f => { f with fenced := r }) with pending := [i] }
      | none => later) := by
    rw [step, pending]
    show Host.Outcome.next (idle s) = _
    unfold idle
    rw [quiet]
    rfl
  rw [idles]
  refine ⟨fun none => ?_, fun i rest found => ?_, fun none => ?_⟩
  · rw [none]
    rfl
  · rw [found]
  · rw [none]

end Sys2Proof.Steps
end

section
/-! ### The way of a descriptor to its meaning, and completions

`runDesc` case by case, and what a descriptor that begins (`Begins`) does with what its meaning answers. -/

namespace Sys2Proof.Descriptors

open Sys2Proof Sys2Proof.Machine

variable {q : Req} {s s0 : State}

/-! #### The way of a descriptor -/

/-- Every command that carries a descriptor of a listed opcode runs it by `runDesc`. -/
theorem exec_of_request {i : Instr} {op : Nat} (h : i.request = some (op, q)) (hr : ∀ o, i ≠ .reservedOpcode o q) :
    ∃ body, ∀ s, exec i s = .next (runDesc i op q body s) := by
  cases i
  case reservedOpcode o p =>
    simp only [Instr.request, Option.some.injEq, Prod.mk.injEq] at h
    exact absurd (h.2 ▸ rfl) (hr o)
  all_goals simp only [Instr.request, Option.some.injEq, Prod.mk.injEq, reduceCtorEq] at h
  all_goals
    obtain ⟨rfl, rfl⟩ := h
    exact ⟨_, fun _ => rfl⟩

theorem runDesc_not_open (i : Instr) (op : Nat) (body : State → Reply × State) (h : openOf q s = none) :
    runDesc i op q body s = s := by
  simp [runDesc, h]

theorem runDesc_not_its_turn {o : OpenDesc} (i : Instr) (op : Nat) (body : State → Reply × State) (ho : openOf q s = some o)
    (h : o.started = true ∨ q.d.op.toNat ≠ op) : runDesc i op q body s = s := by
  have skip : (o.started || q.d.op.toNat != op) = true := by simpa using h
  simp only [runDesc, ho, skip, if_true]

theorem runDesc_waits {o : OpenDesc} {i : Instr} {op : Nat} (body : State → Reply × State) (ho : openOf q s = some o)
    (fresh : o.started = false) (hop : q.d.op.toNat = op) (wait : mustWait q o s = true) :
    runDesc i op q body s = parkDesc i s := by
  simp [runDesc, ho, fresh, hop, wait]

theorem runDesc_badCommon {o : OpenDesc} {i : Instr} {op : Nat} (body : State → Reply × State) (ho : openOf q s = some o)
    (fresh : o.started = false) (hop : q.d.op.toNat = op) (turn : mustWait q o s = false) (bad : badCommon q = true) :
    runDesc i op q body s = complete q .badField (commonResult q) (markStarted q s) := by
  simp [runDesc, ho, fresh, hop, turn, bad]

theorem runDesc_sent {o : OpenDesc} {i : Instr} {op : Nat} (body : State → Reply × State) (ho : openOf q s = some o)
    (fresh : o.started = false) (hop : q.d.op.toNat = op) (turn : mustWait q o s = false) (good : badCommon q = false) :
    runDesc i op q body s = (match sendDesc q (markStarted q s) with
      | .lost u => u
      | .bounced u => complete q .shuttered 0 u
      | .arrived u => answer op q ((body u).1, countBounce q (body u))) := by
  simp [runDesc, ho, fresh, hop, turn, good] <;> rfl

theorem mayStart_iff : mayStart q s = true ↔ ∃ o, openOf q s = some o ∧ o.started = false ∧ mustWait q o s = false := by
  unfold mayStart
  split <;> simp_all

/-- Settles O4: case by case through `runDesc`, by which every listed opcode runs. -/
theorem descriptorsThatDoNotStart : Obligations.DescriptorsThatDoNotStart := by
  constructor
  · intro i op q s hi hr
    obtain ⟨body, run⟩ := exec_of_request hi hr
    rw [run s]
    refine ⟨fun ho => ?_, fun o ho h => ?_, fun o ho fresh hop wait => ?_,
      fun o ho fresh hop turn => ⟨fun bad => ?_, fun u good sent => ?_, fun u good sent => ?_⟩⟩
    · rw [runDesc_not_open i op body ho]
    · rw [runDesc_not_its_turn i op body ho h]
    · rw [runDesc_waits body ho fresh hop wait]
    · rw [runDesc_badCommon body ho fresh hop turn bad]
    · rw [runDesc_sent body ho fresh hop turn good, sent]
    · rw [runDesc_sent body ho fresh hop turn good, sent]
  · intro op q s start reserved hop
    obtain ⟨o, ho, fresh, turn⟩ := mayStart_iff.mp start
    simp [exec, execReservedOpcode, ho, fresh, turn, reserved, hop]

/-! #### A descriptor that begins -/

theorem sendDesc_of_starts (h : starts q s0 = true) : sendDesc q (markStarted q s0) = .arrived (begun q s0) := by
  simp only [starts, Bool.and_eq_true] at h
  unfold begun
  split <;> simp_all

/-- A descriptor that begins is carried out on the state in which it arrives. -/
theorem runDesc_of_begins {i : Instr} {op : Nat} (body : State → Reply × State) (h : Begins q s0 s) (hop : q.d.op.toNat = op) :
    runDesc i op q body s0 = answer op q ((body s).1, countBounce q (body s)) := by
  obtain ⟨start, rfl⟩ := h
  have sent := sendDesc_of_starts start
  simp only [starts, Bool.and_eq_true, Bool.not_eq_true'] at start
  obtain ⟨o, ho, fresh, turn⟩ := mayStart_iff.mp start.1.1
  rw [runDesc_sent body ho fresh hop turn start.1.2, sent]

theorem countBounce_done {st : Status} (h : st ≠ .shuttered) (res : Nat) (u : State) : countBounce q (.done st res, u) = u := by
  unfold countBounce
  split
  · next heq _ =>
    simp only [Reply.done.injEq] at heq
    exact absurd heq.1 h
  · rfl

theorem runDesc_done {i : Instr} {op : Nat} {body : State → Reply × State} {st : Status} {res : Nat} {u : State}
    (h : Begins q s0 s) (hop : q.d.op.toNat = op) (hb : body s = (.done st res, u)) (hst : st ≠ .shuttered) :
    runDesc i op q body s0 = complete q st res u := by
  rw [runDesc_of_begins body h hop, hb, countBounce_done hst, answer]

theorem runDesc_later {i : Instr} {op : Nat} {body : State → Reply × State} {u : State}
    (h : Begins q s0 s) (hop : q.d.op.toNat = op) (hb : body s = (.later, u)) : runDesc i op q body s0 = u := by
  rw [runDesc_of_begins body h hop, hb]
  rfl

theorem runDesc_dma {i : Instr} {op : Nat} {body : State → Reply × State} {u : State}
    (h : Begins q s0 s) (hop : q.d.op.toNat = op) (hb : body s = (.dma, u)) : runDesc i op q body s0 = dmaFail op q u := by
  rw [runDesc_of_begins body h hop, hb]
  rfl

/-- The command of a descriptor that begins and whose meaning answers at once. -/
theorem next_done {i : Instr} {op : Nat} {body : State → Reply × State} {st : Status} {res : Nat} {u : State}
    (h : Begins q s0 s) (hop : q.d.op = BitVec.ofNat 8 op) (hlt : op < 256) (hb : body s = (.done st res, u)) (hst : st ≠ .shuttered) :
    (.next (runDesc i op q body s0) : Host.Outcome State Fault Refusal) = .next (complete q st res u) := by
  rw [runDesc_done h (by rw [hop, BitVec.toNat_ofNat, Nat.mod_eq_of_lt hlt]) hb hst]

theorem next_later {i : Instr} {op : Nat} {body : State → Reply × State} {u : State}
    (h : Begins q s0 s) (hop : q.d.op = BitVec.ofNat 8 op) (hlt : op < 256) (hb : body s = (.later, u)) :
    (.next (runDesc i op q body s0) : Host.Outcome State Fault Refusal) = .next u := by
  rw [runDesc_later h (by rw [hop, BitVec.toNat_ofNat, Nat.mod_eq_of_lt hlt]) hb]

/-! #### The checks of a body -/

/-- A body whose checks pass is its act. -/
theorem checked_pass {cs : List (Bool × Status)} {act : State → Reply × State} (h : firstOf cs = none) :
    checked cs act s = act s := by simp [checked, h]

theorem checked_fail {cs : List (Bool × Status)} {act : State → Reply × State} {st : Status}
    (h : firstOf cs = some st) : checked cs act s = (.done st 0, s) := by simp [checked, h]

theorem replyCopy_ok {bytes : List Byte} {res : Nat} (h : q.io.bufOk = true) :
    replyCopy q bytes res s = (.done .ok res, hostWrite s q.host q.d.addrA bytes) := if_pos h

theorem short_false {n : Nat} (h : n ≤ q.d.length.toNat) : short q n = false := by
  simp [short, h]

end Sys2Proof.Descriptors
end

section
/-! ### Completions: the record, its place, and what a completion leaves unchanged (R281) -/

namespace Sys2Proof.Completions

open Sys2Proof Sys2Proof.Machine

/-! #### What a completion leaves unchanged -/

/-- No ring waits for its RING_DELETE. -/
def NoneDeleting (s : State) : Prop := ∀ p ∈ s.hif.rings, p.2.deleting = none

/-- What leads from `s` to `t` changes only rings, hosts, host writes and the descriptors under way, and events that wait
for the recorder; no ring begins to wait for its RING_DELETE. -/
structure HostSide (s t : State) : Prop where
  rest : { t with hif := s.hif, rcd := s.rcd } = s
  recorder : { t.rcd with posted := s.rcd.posted } = s.rcd
  assign : t.hif.assign = s.hif.assign
  steward : t.hif.steward = s.hif.steward
  ready : t.hif.ready = s.hif.ready
  fetched : t.hif.fetched = s.hif.fetched
  rings : NoneDeleting s → NoneDeleting t

variable {a s : State}

theorem HostSide.refl (s : State) : HostSide s s := ⟨rfl, rfl, rfl, rfl, rfl, rfl, id⟩

theorem hostSide_setHost (g : HostSide a s) (h : Nat) (x : HostSt) : HostSide a (setHost s h x) :=
  ⟨g.rest, g.recorder, g.assign, g.steward, g.ready, g.fetched, g.rings⟩

theorem hostSide_hostWrite (g : HostSide a s) (h : HostId) (addr : BitVec 64) (data : List Byte) :
    HostSide a (hostWrite s h addr data) :=
  ⟨g.rest, g.recorder, g.assign, g.steward, g.ready, g.fetched, g.rings⟩

theorem hostSide_post (g : HostSide a s) (code src b0 b1 w : Nat) : HostSide a (post s code src b0 b1 w) :=
  ⟨g.rest, g.recorder, g.assign, g.steward, g.ready, g.fetched, g.rings⟩

theorem mfind_mem {α : Type} {m : Map α} {k : Nat} {v : α} (h : mfind m k = some v) : (k, v) ∈ m := Frame.mfind_mem h

/-- A ring changed otherwise than by a RING_DELETE that begins to wait. -/
theorem hostSide_setRing (g : HostSide a s) {r : RingRef} {x : Ring} (hr : getRing s r = some x) (y : Ring)
    (hy : y.deleting = x.deleting) : HostSide a (setRing s r y) := by
  cases r with
  | adminSq h => exact hostSide_setHost g h _
  | adminCq h => exact hostSide_setHost g h _
  | pool c =>
    refine ⟨g.rest, g.recorder, g.assign, g.steward, g.ready, g.fetched, fun none p hp => ?_⟩
    rcases Frame.mem_mset hp with old | rfl
    · exact g.rings none p old
    · exact hy.trans (g.rings none _ (mfind_mem hr))

theorem hostSide_modRing (g : HostSide a s) (r : RingRef) (f : Ring → Ring) (hf : ∀ x, (f x).deleting = x.deleting) :
    HostSide a (modRing s r f) := by
  unfold modRing
  split
  · next x hr => exact hostSide_setRing g hr _ (hf x)
  · exact g

theorem hostSide_signalVector (g : HostSide a s) (h : HostId) (v : Nat) : HostSide a (signalVector s h v) := by
  unfold signalVector
  extract_lets e
  split
  · exact hostSide_setHost g h _
  · exact hostSide_hostWrite g h _ _

theorem hostSide_signalRing (g : HostSide a s) (r : RingRef) : HostSide a (signalRing s r) := by
  unfold signalRing
  split
  · exact g
  · next x hr =>
    extract_lets m
    split
    · exact hostSide_signalVector (hostSide_setRing g hr { x with unsignalled := 0 } rfl) _ _
    · exact g

theorem hostSide_signalDue (g : HostSide a s) (r : RingRef) : HostSide a (signalDue s r) := by
  unfold signalDue
  split
  · exact g
  · split
    · exact hostSide_signalRing g r
    · exact g

theorem getRing_hostWrite (s : State) (h : HostId) (addr : BitVec 64) (data : List Byte) (r : RingRef) :
    getRing (hostWrite s h addr data) r = getRing s r := by
  cases r <;> rfl

theorem hostSide_writeEntry (g : HostSide a s) (r : RingRef) (counts : Bool) (e : List Byte) :
    HostSide a (writeEntry s r counts e) := by
  unfold writeEntry
  split
  · exact g
  · next x hr =>
    extract_lets s1 n
    have written : HostSide a s1 := hostSide_hostWrite g _ _ _
    have found : getRing s1 r = some x := (getRing_hostWrite ..).trans hr
    exact hostSide_signalDue (hostSide_setRing written found { x with count := x.count + 1, unsignalled := n } rfl) r

theorem hostSide_signalFault (g : HostSide a s) (h : HostId) : HostSide a (signalFault s h) := by
  unfold signalFault
  extract_lets m
  split
  · exact hostSide_signalVector g h _
  · exact g

theorem hostSide_raiseFault (g : HostSide a s) (h : HostId) (bit : Nat) : HostSide a (raiseFault s h bit) := by
  unfold raiseFault
  split
  · exact g
  · exact hostSide_signalFault (hostSide_setHost g h _) h

theorem hostSide_failRing (g : HostSide a s) (r : RingRef) (reason : Nat) : HostSide a (failRing s r reason) := by
  unfold failRing
  split
  · exact g
  · next x hr =>
    split
    · exact g
    · exact hostSide_post (hostSide_raiseFault
        (hostSide_setRing g hr { x with error := true, reason := BitVec.ofNat 8 reason } rfl) _ _) _ _ _ _ _

theorem hostSide_putEntry (g : HostSide a s) (c key : Nat) (e : List Byte) : HostSide a (putEntry s c key e).2 := by
  unfold putEntry
  split
  · exact g
  · next x hr =>
    have set : ∀ ws, HostSide a (setRing s (.pool c) { x with waiting := ws }) := fun ws =>
      hostSide_setRing g (show getRing s (.pool c) = some x from hr) { x with waiting := ws } rfl
    extract_lets ws
    split
    · exact g
    · split
      · exact set ws
      · split
        · exact hostSide_writeEntry g _ _ _
        · exact set _

theorem hostSide_sendNotice (g : HostSide a s) (h : HostId) (key : Nat) (e : List Byte) :
    HostSide a (sendNotice s h key e) := by
  unfold sendNotice
  split
  · exact g
  · next n _ =>
    split
    · split
      · exact hostSide_failRing g _ _
      · exact hostSide_putEntry g n key e
    · exact g

theorem hostSide_ringError (g : HostSide a s) (r : RingRef) (reason : Nat) : HostSide a (ringError s r reason) := by
  unfold ringError
  split
  · exact g
  · split
    · exact g
    · exact hostSide_sendNotice (hostSide_failRing g r reason) _ _ _

theorem hostSide_closeDesc (g : HostSide a s) (q : Req) : HostSide a (closeDesc s q) :=
  hostSide_setHost (s := modHif s fun f => { f with
    opened := f.opened.filter fun o => !(o.seq == q.seq && o.host == q.host && o.ring == q.ring) })
    ⟨g.rest, g.recorder, g.assign, g.steward, g.ready, g.fetched, g.rings⟩ _ _

theorem hostSide_complete1 (g : HostSide a s) (q : Req) (st : Status) (res : Nat) : HostSide a (complete1 q st res s) := by
  unfold complete1
  extract_lets s0
  have closed : HostSide a s0 := hostSide_closeDesc g q
  split
  · exact closed
  · next x hr =>
    extract_lets s1 c s2
    split
    · exact closed
    · have taken : HostSide a s1 := hostSide_setRing closed hr { x with inflight := x.inflight.erase q.seq } rfl
      have freed : HostSide a s2 := hostSide_modRing taken c _ fun _ => rfl
      split
      · exact freed
      · split
        · exact freed
        · split
          · exact hostSide_ringError freed c 4
          · exact hostSide_writeEntry freed c _ _

theorem deletable_none (h : NoneDeleting s) : deletable s = none := by
  unfold deletable
  rw [List.findSome?_eq_none_iff]
  intro p hp
  simp [h p hp]

theorem sweepDeletes_none (h : NoneDeleting s) (n : Nat) : sweepDeletes n s = s := by
  cases n with
  | zero => rfl
  | succ n => simp [sweepDeletes, deletable_none h]

/-- While no RING_DELETE waits, a completion is its own first part. -/
theorem complete_eq_complete1 (q : Req) (st : Status) (res : Nat) (h : NoneDeleting s) :
    complete q st res s = complete1 q st res s :=
  sweepDeletes_none ((hostSide_complete1 (.refl s) q st res).rings h) _

/-- Settles O6: each operation of a completion is on the host's side (`HostSide`). -/
theorem completionFrame : Obligations.CompletionFrame := by
  intro q st res s none t
  have side : HostSide s t := by
    rw [show t = complete1 q st res s from complete_eq_complete1 q st res none]
    exact hostSide_complete1 (.refl s) q st res
  have rest := side.rest
  have recorder := side.recorder
  exact ⟨(congrArg State.tiles rest :), (congrArg State.cases rest :), (congrArg State.dev rest :), (congrArg State.load rest :),
    (congrArg State.hub rest :), (congrArg State.jnl rest :), (congrArg State.bsp rest :), (congrArg State.fresh rest :),
    (congrArg State.pending rest :), side.assign, side.steward, side.ready, side.fetched, (congrArg Recorder.slots recorder :),
    (congrArg Recorder.notify recorder :)⟩

/-! #### The record and its place -/

theorem withPhase_recordBytes (p : Bool) (q : Req) (st : Status) (res : Nat) :
    withPhase p (recordBytes q st res) = leBytes 4 q.d.tag.toNat ++ [BitVec.ofNat 8 (statusCode st), if p then 1 else 0] ++
      leBytes 2 (refContext (sqRef q)) ++ leBytes 8 res := by
  cases p
  · simp [withPhase, recordBytes, leBytes]
    decide
  · simp [withPhase, recordBytes, leBytes]
    decide

theorem sqRef_of_ring {q : Req} {c : Nat} (h : q.ring = some (BitVec.ofNat 16 c)) (hc : c < 65536) : sqRef q = .pool c := by
  simp [sqRef, h, Nat.mod_eq_of_lt hc]

theorem cqRef_of_bound {x : Ring} {d : Nat} (h : HostId) (hx : x.bound = some (BitVec.ofNat 16 d)) (hd : d < 65536) :
    cqRef h x = .pool d := by
  simp [cqRef, hx, Nat.mod_eq_of_lt hd]

/-- A ring that asks for no interrupt signals nothing. -/
theorem signalDue_pool_quiet {s : State} {c : Nat} {x : Ring} (h : mfind s.hif.rings c = some x) (quiet : x.irq = false) :
    signalDue s (.pool c) = s := by
  have hr : getRing s (.pool c) = some x := h
  simp only [signalDue, hr, signalRing, ringIrq, quiet]
  split <;> rfl

theorem writeEntry_pool_quiet {s : State} {c : Nat} {x : Ring} (h : mfind s.hif.rings c = some x) (quiet : x.irq = false)
    (counts : Bool) (e : List Byte) :
    writeEntry s (.pool c) counts e =
      setRing (hostWrite s x.owner (x.base + BitVec.ofNat 64 (16 * (x.count % ringSize x))) (withPhase (phaseOf x) e)) (.pool c)
        { x with count := x.count + 1, unsignalled := if counts then x.unsignalled + 1 else x.unsignalled } := by
  have hr : getRing s (.pool c) = some x := h
  simp only [writeEntry, hr]
  exact signalDue_pool_quiet (mfind_mset_self _ _ _) quiet

/-- A completion whose rings are pool rings, its completion ring being good and asking for no interrupt. -/
theorem complete1_pool {q : Req} {st : Status} {res : Nat} {s : State} {c d : Nat} {x y : Ring}
    (hsq : sqRef q = .pool c) (hcd : c ≠ d) (hx : mfind s.hif.rings c = some x) (owner : x.owner = q.host)
    (open_ : q.seq ∈ x.inflight) (hcq : cqRef q.host x = .pool d) (hy : mfind s.hif.rings d = some y)
    (good : y.error = false) (writes : y.noWrite = false) (ok : q.io.recOk = true) (quiet : y.irq = false) :
    complete1 q st res s =
      let s1 := setRing (closeDesc s q) (.pool c) { x with inflight := x.inflight.erase q.seq }
      let s2 := setRing s1 (.pool d) { y with reserved := y.reserved - 1 }
      let n := if !q.d.flags.getLsbD 1 then y.unsignalled + 1 else y.unsignalled
      setRing (hostWrite s2 y.owner (y.base + BitVec.ofNat 64 (16 * (y.count % ringSize y)))
          (withPhase (phaseOf y) (recordBytes q st res))) (.pool d)
        { y with reserved := y.reserved - 1, count := y.count + 1, unsignalled := n } := by
  extract_lets s1 s2 n
  have found : getRing (closeDesc s q) (.pool c) = some x := hx
  have bound : getRing s1 (.pool d) = some y := (mfind_mset_ne _ _ _ _ hcd.symm).trans hy
  have freed : mfind s2.hif.rings d = some { y with reserved := y.reserved - 1 } := mfind_mset_self _ _ _
  have step : complete1 q st res s = writeEntry s2 (.pool d) (!q.d.flags.getLsbD 1) (recordBytes q st res) := by
    have modded : modRing s1 (.pool d) (fun y => { y with reserved := y.reserved - 1 }) = s2 := by simp only [modRing, bound, s2]
    have freed' : getRing s2 (.pool d) = some { y with reserved := y.reserved - 1 } := freed
    have held : (x.owner != q.host || !x.inflight.contains q.seq) = false := by simp [owner, open_]
    have sound : (!q.io.recOk || y.noWrite) = false := by simp [ok, writes]
    simp only [complete1, hsq, found, held, hcq, Bool.false_eq_true, if_false]
    rw [modded, freed']
    simp only [good, sound, Bool.false_eq_true, if_false]
  rw [step, writeEntry_pool_quiet freed quiet]
  rfl

/-- Settles O5: `complete1_pool` names the write and the two rings after it. -/
theorem completionRecordIsWritten : Obligations.CompletionRecordIsWritten := by
  intro q st res s c d x y hq hc hd hcd hx owner open_ hb hy good writes ok quiet t
  have ht : t = _ := complete1_pool (res := res) (st := st) (sqRef_of_ring hq hc) hcd hx owner open_
    (cqRef_of_bound _ hb hd) hy good writes ok quiet
  refine ⟨?_, ?_, ?_⟩
  · have phase : (if phaseOf y then (1 : Byte) else 0) = if (y.count / 2 ^ y.log2) % 2 = 0 then 1 else 0 := by
      simp [phaseOf, ringSize]
    rw [← phase, show leBytes 2 c = leBytes 2 (refContext (sqRef q)) by rw [sqRef_of_ring hq hc, refContext],
      ← withPhase_recordBytes, ht]
    rfl
  · rw [ht]
    exact ⟨_, mfind_mset_self _ _ _, rfl, rfl⟩
  · rw [ht]
    exact ⟨_, (mfind_mset_ne _ _ _ _ hcd).trans ((mfind_mset_ne _ _ _ _ hcd).trans (mfind_mset_self _ _ _)), rfl⟩

end Sys2Proof.Completions
end

section
/-! ### What any completion leaves unchanged

A RING_DELETE that waited may complete with it: the comparators bound to its ring are let go. -/

namespace Sys2Proof.Completions

open Sys2Proof Sys2Proof.Machine

/-- Some comparator and timer state changes in each tile, and otherwise only the host interface and the recorder. -/
structure HostAndCmp (s t : State) : Prop where
  rest : { t with hif := s.hif, rcd := s.rcd, tiles := s.tiles } = s
  tile : ∀ u, ∃ ct, getTile t u = { getTile s u with ct := ct }

variable {a s : State}

theorem HostAndCmp.refl (s : State) : HostAndCmp s s := ⟨rfl, fun u => ⟨(getTile s u).ct, rfl⟩⟩

theorem HostSide.after (g : HostAndCmp a s) {t : State} (h : HostSide s t) : HostAndCmp a t := by
  have rest := congrArg (fun u : State => { u with hif := a.hif, rcd := a.rcd, tiles := a.tiles }) h.rest
  refine ⟨Eq.trans rest g.rest, fun u => ?_⟩
  have tiles : t.tiles = s.tiles := (congrArg State.tiles h.rest :)
  rw [getTile, tiles]
  exact g.tile u

theorem mfind_mmap {α : Type} (f : Nat → α → α) (m : Map α) (k : Nat) : mfind (mmap f m) k = (mfind m k).map (f k) := by
  induction m with
  | nil => rfl
  | cons p r ih =>
    obtain ⟨j, v⟩ := p
    simp only [mmap, List.map_cons, mfind]
    split
    · next e => exact e ▸ rfl
    · exact ih

theorem hostAndCmp_mmapCt (g : HostAndCmp a s) (f : CtState → CtState) :
    HostAndCmp a { s with tiles := mmap (fun _ x => { x with ct := f x.ct }) s.tiles } := by
  refine ⟨g.rest, fun u => ?_⟩
  obtain ⟨ct, hct⟩ := g.tile u
  have tile : getTile { s with tiles := mmap (fun _ x => { x with ct := f x.ct }) s.tiles } u =
      ((mfind s.tiles u).map fun x => { x with ct := f x.ct }).getD Tile.cold := by
    rw [getTile, mget_eq, mfind_mmap]
  rw [getTile, mget_eq] at hct
  rw [tile]
  cases found : mfind s.tiles u with
  | none =>
    rw [found] at hct
    exact ⟨ct, hct⟩
  | some x =>
    rw [found] at hct
    exact ⟨f x.ct, by rw [show x = _ from hct]; rfl⟩

theorem hostAndCmp_clearContext (g : HostAndCmp a s) (c : Nat) : HostAndCmp a (clearContext s c) := by
  unfold clearContext
  extract_lets s0 sr s1 s2
  have completed : HostAndCmp a s0 := by
    unfold s0
    split
    · exact (hostSide_complete1 (.refl s) _ _ _).after g
    · exact g
  have freed : HostAndCmp a sr := by
    unfold sr
    split
    · next x _ =>
      split
      · exact (hostSide_modRing (.refl s0) _ (fun y => { y with reserved := y.reserved - x.inflight.length })
          fun _ => rfl).after completed
      · exact completed
    · exact completed
  exact hostAndCmp_mmapCt (s := s2) ⟨freed.rest, freed.tile⟩ fun ct => { ct with cmps := mmap (fun _ k =>
    if k.bound == some (BitVec.ofNat 16 c) then { k with bound := none, held := none } else k) ct.cmps }

theorem hostAndCmp_sweepDeletes (n : Nat) (g : HostAndCmp a s) : HostAndCmp a (sweepDeletes n s) := by
  induction n generalizing s with
  | zero => exact g
  | succ n ih =>
    unfold sweepDeletes
    split
    · exact g
    · exact ih (hostAndCmp_clearContext g _)

theorem hostAndCmp_complete (g : HostAndCmp a s) (q : Req) (st : Status) (res : Nat) : HostAndCmp a (complete q st res s) :=
  hostAndCmp_sweepDeletes _ ((hostSide_complete1 (.refl s) q st res).after g)

end Sys2Proof.Completions
end

section
/-! ### The host interface: bring-up, resets of hosts, register writes and doorbell polls -/

namespace Sys2Proof.Hosts

open Sys2Proof Sys2Proof.Machine Sys2Proof.Steps

/-! #### Bring-up and resets of hosts -/

@[simp] theorem getHost_post (s : State) (code src b0 b1 w u : Nat) : getHost (post s code src b0 b1 w) u = getHost s u := rfl

@[simp] theorem getHost_hostWrite (s : State) (h : HostId) (addr : BitVec 64) (data : List Byte) (u : Nat) :
    getHost (hostWrite s h addr data) u = getHost s u := rfl

@[simp] theorem post_hif (s : State) (code src b0 b1 w : Nat) : (post s code src b0 b1 w).hif = s.hif := rfl

theorem post_posted (s : State) (code src b0 b1 w : Nat) :
    (post s code src b0 b1 w).rcd.posted = s.rcd.posted ++ [mkEv s code src (evArg b0 b1 w) false] := rfl

theorem hostEnable_takes (h : HostId) (s : State) (en : (getHost s h).en = false) (reach : hostReach s h = true) :
    exec (.hostEnable h) s = .next (if s.hif.ready then enableHost (modHost s h (fun x => { x with en := true })) h
      else modHost s h (fun x => { x with en := true })) := by
  simp [exec, execHostEnable, en, reach]

theorem log2Ok_of {n : Nat} (low : 4 ≤ n) (high : n ≤ 16) : log2Ok n = true := by
  simp [log2Ok, low, high]

/-- A host whose administration registers are good becomes ACTIVE. -/
theorem enableHost_good {s : State} {h : HostId} (idle : (getHost s h).active = false)
    (sq : log2Ok (getHost s h).sqSize.toNat = true) (cq : log2Ok (getHost s h).cqSize.toNat = true)
    (sqBase : (getHost s h).sqBase ≠ 0) (cqBase : (getHost s h).cqBase ≠ 0) (root : (getHost s h).dbRoot ≠ 0) :
    let x := getHost s h
    let y : HostSt := { x with
      active := true,
      adminSq := some (Ring.fresh .submission h x.sqSize.toNat x.sqBase 0),
      adminCq := some (Ring.fresh .completion h x.cqSize.toNat x.cqBase 1),
      dbBase := x.dbRoot, rootSeen := 0, groupsSeen := [], idle := 0, interval := x.poll.toNat, dbEpisode := false, turn := 0 }
    enableHost s h = post (modDev (settleQuiesced (setHost s h y) h) (fun d => { d with wakeN := false })) 0x401 4 h.val 0 0 := by
  have bad : (!log2Ok (getHost s h).sqSize.toNat || !log2Ok (getHost s h).cqSize.toNat || (getHost s h).sqBase = 0 ||
      (getHost s h).cqBase = 0 || (getHost s h).dbRoot = 0) = false := by
    simp only [sq, cq, sqBase, cqBase, root, Bool.not_true, decide_false, Bool.or_false]
  simp only [enableHost, idle, bad, Bool.false_eq_true, if_false]

/-- A host without a doorbell root does not become ACTIVE. -/
theorem enableHost_bad {s : State} {h : HostId} (idle : (getHost s h).active = false) (root : (getHost s h).dbRoot = 0) :
    enableHost s h = post (raiseFault s h 0) 0x402 4 h.val 0 0 := by
  have bad : (!log2Ok (getHost s h).sqSize.toNat || !log2Ok (getHost s h).cqSize.toNat || (getHost s h).sqBase = 0 ||
      (getHost s h).cqBase = 0 || (getHost s h).dbRoot = 0) = true := by simp [root]
  simp only [enableHost, idle, bad, Bool.false_eq_true, if_false, if_true]

/-- A fault that is new and signals nothing. -/
theorem raiseFault_new {s : State} {h : HostId} {bit : Nat} (new : (getHost s h).fault.getLsbD bit = false)
    (quiet : (getHost s h).msixFault.getLsbD 7 = false) :
    raiseFault s h bit = modHost s h (fun x => { x with fault := setBit x.fault bit true }) := by
  have same : (getHost (modHost s h (fun x => { x with fault := setBit x.fault bit true })) h).msixFault.getLsbD 7 = false := by
    rw [modHost, getHost_setHost_self]
    exact quiet
  simp only [raiseFault, new, signalFault, same, Bool.false_eq_true, if_false]

theorem settleQuiesced_getHost (s : State) (h : HostId) :
    getHost (settleQuiesced s h) h = { getHost s h with
      quiesced := (getHost s h).quiesce && !s.hif.opened.any (fun o => o.host == h) } := by
  simp [settleQuiesced]

theorem portReset_a (s : State) :
    portReset s false = post (resetHost 2 (resetHost 2 (resetHost 2 (resetHost 2 s 0) 1) 2) 3) 0x001 0 3 0xFF 0 := by
  simp only [portReset, Bool.false_eq_true, if_false, List.range, List.range.loop, List.foldl]
  congr

theorem portReset_b (s : State) :
    portReset s true = post (resetHost 2 (resetHost 2 (resetHost 2 (resetHost 2 s 4) 5) 6) 7) 0x001 0 3 0xFF 0 := by
  simp only [portReset, if_true, List.range, List.range.loop, List.foldl]
  congr

/-- Settles O7: each event by its own branch; a bring-up through `enableHost_good` and `enableHost_bad`. -/
theorem hostControlEventsTakeEffect : Obligations.HostControlEventsTakeEffect := by
  refine ⟨⟨?_, ?_, ?_, ?_, ?_, ?_, ?_, ?_, ?_, ?_, ?_, ?_⟩, ?_⟩
  · intro h s en reach ready
    simp [hostEnable_takes h s en reach, ready]
  · intro h s en reach ready idle sqLow sqHigh cqLow cqHigh sqBase cqBase root
    refine ⟨_, (hostEnable_takes h s en reach).trans (by rw [ready, if_pos rfl]), ?_⟩
    rw [enableHost_good (by simpa [modHost] using idle) (by simpa [modHost] using log2Ok_of sqLow sqHigh)
      (by simpa [modHost] using log2Ok_of cqLow cqHigh) (by simpa [modHost] using sqBase) (by simpa [modHost] using cqBase)
      (by simpa [modHost] using root)]
    simp only [getHost_post, getHost_modDev, settleQuiesced_getHost, getHost_setHost_self, modHost, post_posted]
    exact ⟨trivial, trivial, trivial, trivial, trivial, trivial, trivial, rfl⟩
  · intro h s en reach ready idle root new quiet
    refine ⟨_, (hostEnable_takes h s en reach).trans (by rw [ready, if_pos rfl]), ?_⟩
    rw [enableHost_bad (by simpa [modHost] using idle) (by simpa [modHost] using root),
      raiseFault_new (by simpa [modHost] using new) (by simpa [modHost] using quiet)]
    simp only [getHost_post, modHost, getHost_setHost_self, post_posted]
    exact ⟨trivial, idle, trivial, rfl⟩
  · intro h s en reach
    simp [exec, execHostDisable, en, reach]
  · intro h s reach
    simp [exec, execQuiesce, reach]
  · intro h s reach
    simp [exec, execQuiesceClear, reach]
  · intro s ready reset on none
    simp only [exec, execDeviceReady, ready, reset, on]
    rw [foldl_fixed]
    · rfl
    · intro h
      exact if_neg fun en => Bool.noConfusion ((none h).symm.trans en)
  · intro h s reach
    simp [exec, execFunctionReset, reach]
  · intro s reach
    rw [← portReset_a]
    exact congrArg Host.Outcome.next (if_pos reach)
  · intro s reach
    rw [← portReset_b]
    exact congrArg Host.Outcome.next (if_pos reach)
  · intro s vsd reset on
    simp [exec, execSerdesSupplyLoss, vsd, reset, on]
  · intro s
    rfl
  · intro h s reach
    refine ⟨_, by simp only [exec, execFunctionReset, reach]; rfl, ?_⟩
    simp [resetHost]

/-! #### Register writes -/

theorem unmaskVectors_none {s : State} {h : HostId} (pba : (getHost s h).pba = 0) : unmaskVectors s h = s := by
  refine foldl_fixed _ _ _ fun v => ?_
  simp [pba]

/-- A 64-bit write that reaches a register other than SET_HOSTCTL and MSIX_ADMIN. -/
theorem registerWrite_stores {h : HostId} {s : State} (off : Fin 65536) (v : BitVec 64) (reach : hostReach s h = true)
    (aligned : off.val % 8 = 0) (ctl : off.val ≠ 8) (admin : off.val ≠ 0x50)
    (pba : (regStore (getHost s h) off.val v.toNat).pba = 0) :
    exec (.registerWrite h off true v) s = .next (setHost s h (regStore (getHost s h) off.val v.toNat)) := by
  have reg : off.val / 8 * 8 = off.val := Nat.div_mul_cancel (Nat.dvd_of_mod_eq_zero aligned)
  have notCtl : off.val / 8 ≠ 1 := by omega
  have notAdmin : off.val / 8 ≠ 10 := by omega
  have stored : (getHost (setHost s h (regStore (getHost s h) off.val v.toNat)) h).pba = 0 := by simpa using pba
  simp [exec, execRegisterWrite, writeValue, reach, aligned, reg, notCtl, notAdmin, modHost, unmaskVectors_none stored]

/-- Settles O8: each register by its branch of `regStore`. -/
theorem registerWriteStoresFields : Obligations.RegisterWriteStoresFields := by
  intro h s v reach pba x w
  have stores : ∀ (off : Fin 65536) (y : HostSt), off.val % 8 = 0 → off.val ≠ 8 → off.val ≠ 0x50 →
      regStore x off.val v.toNat = y → y.pba = 0 → w off y := by
    rintro off y aligned ctl admin rfl same
    exact registerWrite_stores off v reach aligned ctl admin same
  refine ⟨?_, ?_, ?_, ?_, ?_, ?_, ?_, ?_, ?_, ?_⟩
  · exact stores 0x10 _ rfl (by decide) (by decide) rfl pba
  · exact stores 0x18 _ rfl (by decide) (by decide) rfl pba
  · exact stores 0x20 _ rfl (by decide) (by decide) rfl pba
  · exact stores 0x28 _ rfl (by decide) (by decide) rfl pba
  · exact stores 0x30 _ rfl (by decide) (by decide) rfl pba
  · refine stores 0x38 _ rfl (by decide) (by decide) ?_ pba
    have low : BitVec.ofNat 17 (v.toNat % 2 ^ 17) = BitVec.ofNat 17 v.toNat := by
      apply BitVec.eq_of_toNat_eq
      simp
    simp only [regStore, pollStored, low]
    rfl
  · exact stores 0x48 _ rfl (by decide) (by decide) rfl pba
  · have stored : (getHost (setHost s h { x with msixAdmin := msixAdminStored v.toNat }) h).pba = 0 := by simpa using pba
    have unmasked := unmaskVectors_none stored
    have reg : modHost s h (fun x => regStore x (0x50 / 8 * 8) v.toNat) =
      setHost s h { x with msixAdmin := msixAdminStored v.toNat } := rfl
    show Host.Outcome.next (if (!hostReach s h || false) = true then s
      else signalDue (unmaskVectors (modHost s h fun x => regStore x (0x50 / 8 * 8) v.toNat) h) (.adminCq h)) = _
    rw [reach, reg, unmasked]
    rfl
  · exact stores 0x58 _ rfl (by decide) (by decide) rfl pba
  · intro off aligned which
    refine stores off x aligned (by omega) (by omega) ?_ pba
    unfold regStore
    simp only [show off.val ≠ 8 ∧ off.val ≠ 0x10 ∧ off.val ≠ 0x18 ∧ off.val ≠ 0x20 ∧ off.val ≠ 0x28 ∧ off.val ≠ 0x30 ∧
      off.val ≠ 0x38 ∧ off.val ≠ 0x48 ∧ off.val ≠ 0x50 ∧ off.val ≠ 0x58 by omega, if_false]
    exact if_neg (by simp; omega)

/-! #### Doorbell polls -/

theorem raiseFault_bit (s : State) (h : HostId) {bit : Nat} (hb : bit < 4) :
    (getHost (raiseFault s h bit) h).fault.getLsbD bit = true ∧ (raiseFault s h bit).hif.rings = s.hif.rings ∧
      (raiseFault s h bit).rcd = s.rcd ∧ (raiseFault s h bit).dev = s.dev := by
  have set : (setBit (getHost s h).fault bit true).getLsbD bit = true := by simp [setBit, hb]
  unfold raiseFault
  split
  · next old => exact ⟨old, rfl, rfl, rfl⟩
  · unfold signalFault signalVector
    extract_lets x e
    split
    · split
      · exact ⟨by simpa [modHost] using set, rfl, rfl, rfl⟩
      · exact ⟨by simpa [modHost] using set, rfl, rfl, rfl⟩
    · exact ⟨by simpa [modHost] using set, rfl, rfl, rfl⟩

/-- A poll that fails: what it leaves, and the one posting of its episode (R276). -/
theorem pollFailed_spec {s t : State} {h : HostId} (ht : pollFailed s h = t) :
    (getHost t h).fault.getLsbD 1 = true ∧ (getHost t h).interval = 2000 ∧ (getHost t h).dbEpisode = true ∧
      t.hif.rings = s.hif.rings ∧
      t.rcd.posted = s.rcd.posted ++ (if (getHost s h).dbEpisode then [] else [mkEv s 0x404 4 (evArg h.val 0 0) false]) := by
  obtain ⟨fault, rings, rcd, dev⟩ := raiseFault_bit s h (bit := 1) (by decide)
  subst ht
  unfold pollFailed
  extract_lets s1
  have host : getHost s1 h = { getHost (raiseFault s h 1) h with dbEpisode := true, interval := 2000 } := by simp [s1, modHost]
  have event : mkEv s1 0x404 4 (evArg h.val 0 0) false = mkEv s 0x404 4 (evArg h.val 0 0) false := by
    simp [mkEv, s1, dev]
  have posted : s1.rcd.posted = s.rcd.posted := by simp [s1, rcd]
  have rings' : s1.hif.rings = s.hif.rings := by simp [s1, rings]
  split
  · rw [host]
    exact ⟨fault, rfl, rfl, rings', by simp [posted]⟩
  · rw [getHost_post, host, post_posted, event, posted]
    exact ⟨fault, rfl, rfl, rings', rfl⟩

/-- Settles O9: the three outcomes of a poll are its branches, and so are the three intervals. -/
theorem doorbellPollsTakeEffect : Obligations.DoorbellPollsTakeEffect := by
  refine ⟨?_, ?_, ?_⟩
  · intro h rd s active s1 x
    have episode : (getHost s1 h).dbEpisode = (getHost s h).dbEpisode := by simp [s1, takeReach, getHost, modHost, setHost]
    have busy : x.active = true := by simpa [x, s1, takeReach, getHost, modHost, setHost] using active
    have poll : exec (.doorbellPoll h rd) s = .next (match readRoot x rd with
        | none => pollFailed s1 h
        | some root => if root = x.rootSeen then
            setHost s1 h { x with idle := x.idle + 1, interval := idleInterval x, dbEpisode := false }
          else pollChange s1 h rd root) := by
      show Host.Outcome.next (if (!x.active) = true then s else _) = _
      rw [busy]
      rfl
    refine ⟨fun root => ?_, fun root => ?_, fun root gs l read new groups words => ?_⟩
    · rw [poll, root]
      exact congrArg Host.Outcome.next (if_pos rfl)
    · obtain ⟨fault, interval, ep, rings, posted⟩ := pollFailed_spec (s := s1) (h := h) rfl
      refine ⟨_, by rw [poll, root], fault, interval, ep, rings, ?_⟩
      rw [posted, episode]
      rfl
    · rw [poll, read]
      simp only [new, if_false, pollChange]
      rw [show getHost s1 h = x from rfl, groups]
      simp only [words]
  · intro x
    refine ⟨fun slow => ?_, fun fast backs few => ?_, fun fast backs many => ?_⟩
    · simp [idleInterval, slow]
    · simp [idleInterval, show ¬ 2000 ≤ x.poll.toNat by omega, backs, few]
    · simp [idleInterval, show ¬ 2000 ≤ x.poll.toNat by omega, backs, show ¬ x.idle < 1000 by omega]
  · intro h c x s hx owner kind counts time
    have found : getRing s (.pool c.toNat) = some x := hx
    have due : (x.owner == h && x.kind != .submission && decide (0 < x.unsignalled) &&
        (ringIrq s (.pool c.toNat) x).2.2.2 != 0) = true := by
      have nonzero : x.modTime.toNat ≠ 0 := fun z => time (BitVec.eq_of_toNat_eq z)
      simp [owner, kind, counts, ringIrq, nonzero]
    have expiry : exec (.msixModTimeExpiry h (some c)) s = .next (signalRing s (.pool c.toNat)) := by
      simp only [exec, execMsixModTimeExpiry, found, due, if_true]
    rw [expiry]
    refine ⟨fun irq => ?_, fun quiet => ?_⟩
    · simp only [signalRing, found, ringIrq, irq, if_true, owner]
      rfl
    · simp [signalRing, found, ringIrq, quiet]

end Sys2Proof.Hosts
end

section
/-! ### Ring descriptors -/

namespace Sys2Proof.RingDescriptors

open Sys2Proof Sys2Proof.Machine Sys2Proof.Descriptors

variable {q : Req} {s : State}

theorem nopBody_ok (good : dirty shNop q = false) : nopBody q s = (.done .ok s.dev.now.toNat, s) :=
  checked_pass (by simp [firstOf, good])

theorem ringCreateBody_ok (owns : ownsContext q (dW16 q.d 32) s = true) (good : badRingCreate q = false)
    (bound : dByte q.d 28 = 0 → boundOk q s = true)
    (mine : ∀ p ∈ s.hif.rings, p.2.owner = q.host → (p.2.notice && (newRing q).notice) = false ∧ p.2.word ≠ dW16 q.d 30)
    (free : mfind s.hif.rings (dW16 q.d 32) = none) :
    ringCreateBody q s =
      (.done .ok 0, modHif s (fun f => { f with rings := mset f.rings (dW16 q.d 32) (newRing q) })) := by
  have unnoticed : ((newRing q).notice && s.hif.rings.any fun p => p.2.owner == q.host && p.2.notice) = false := by grind
  have unworded : (s.hif.rings.any fun p => p.2.owner == q.host && p.2.word == dW16 q.d 30) = false := by grind
  have bound' : (dByte q.d 28 == 0 && !boundOk q s) = false := by grind
  unfold ringCreateBody
  refine checked_pass ?_
  simp only [firstOf, owns, good, bound', unnoticed, free, unworded, Bool.not_true, Option.isSome_none, Bool.false_eq_true, if_false]

theorem ringCreateBody_notOwned (owns : ownsContext q (dW16 q.d 32) s = false) :
    ringCreateBody q s = (.done .refusedOwnership 0, s) := by
  unfold ringCreateBody
  exact checked_fail (by simp [firstOf, owns])

theorem ringCreateBody_bad (owns : ownsContext q (dW16 q.d 32) s = true) (bad : badRingCreate q = true) :
    ringCreateBody q s = (.done .badField 0, s) := by
  unfold ringCreateBody
  exact checked_fail (by simp [firstOf, owns, bad])

/-- A completion ring named again: it sends no notices, so that the first check it fails is that of a live context. -/
theorem ringCreateBody_live {r : Ring} (owns : ownsContext q (dW16 q.d 32) s = true) (good : badRingCreate q = false)
    (kind : dByte q.d 28 = 1) (live : mfind s.hif.rings (dW16 q.d 32) = some r) :
    ringCreateBody q s = (.done .busy 0, s) := by
  have quiet : (newRing q).notice = false := by simp [newRing, kind]
  unfold ringCreateBody
  exact checked_fail (by simp [firstOf, owns, good, kind, quiet, live])

section
variable {r : Ring} (owns : ownsContext q (dW16 q.d 32) s = true) (good : dirty shRingDelete q = false)
  (unbound : s.hif.rings.any (fun p => p.2.kind == .submission && p.2.bound == some (BitVec.ofNat 16 (dW16 q.d 32))) = false)
  (found : mfind s.hif.rings (dW16 q.d 32) = some r)
include owns good unbound found

theorem ringDeleteBody_other (kind : r.kind ≠ .submission) :
    ringDeleteBody q s = (.done .ok 0, clearContext s (dW16 q.d 32)) := by
  have other : (r.kind != .submission) = true := by simp [kind]
  unfold ringDeleteBody
  rw [checked_pass (by simp only [firstOf, owns, good, unbound, Bool.not_true, Bool.false_eq_true, if_false])]
  simp only [found, other, if_true]

theorem ringDeleteBody_submission (kind : r.kind = .submission) (fresh : r.deleting = none) :
    ringDeleteBody q s = (.later,
      let s1 := modHif s (fun f => { f with rings := mset f.rings (dW16 q.d 32) { r with deleting := some q } })
      sweepDeletes s1.hif.rings.length s1) := by
  have sub : (r.kind != .submission) = false := by simp [kind]
  unfold ringDeleteBody
  rw [checked_pass (by simp only [firstOf, owns, good, unbound, Bool.not_true, Bool.false_eq_true, if_false])]
  simp only [found, sub, fresh, Option.isSome_none, Bool.false_eq_true, if_false]
  rfl

end

theorem ringModerateBody_ok {r : Ring} (owns : ownsContext q (dW16 q.d 32) s = true) (good : dirty shRingModerate q = false)
    (count : dByte q.d 37 ≠ 0) (found : mfind s.hif.rings (dW16 q.d 32) = some r) (kind : r.kind ≠ .submission) :
    ringModerateBody q s = (.done .ok 0, signalDue (modHif s (fun f => { f with
      rings := mset f.rings (dW16 q.d 32) { r with
        vector := BitVec.ofNat 6 (dByte q.d 36), irq := (dByte q.d 36).testBit 7, modCount := dByte q.d 37,
        modTime := BitVec.ofNat 16 (dW16 q.d 38) } })) (.pool (dW16 q.d 32))) := by
  have ring : getRing s (.pool (dW16 q.d 32)) = some r := found
  unfold ringModerateBody
  rw [checked_pass (by simp [firstOf, owns, good, found, count, kind])]
  simp only [modRing, ring]
  rfl

theorem ringQueryBody_ok (owns : ownsContext q (dW16 q.d 32) s = true) (good : dirty shRingQuery q = false)
    (long : 32 ≤ q.d.length.toNat) (ok : q.io.bufOk = true) :
    ringQueryBody q s = (.done .ok 0, hostWrite s q.host q.d.addrA (ringQueryBytes (mfind s.hif.rings (dW16 q.d 32)))) := by
  unfold ringQueryBody
  rw [checked_pass (by simp [firstOf, owns, good, short_false long])]
  exact replyCopy_ok ok

theorem ringAssignBody_free {h : HostId} (steward : isSteward q s = true) (good : dirty shRingAssign q = false)
    (host : dByte q.d 28 = h.val) (count : 1 ≤ dW32 q.d 36) (range : dW16 q.d 32 + dW32 q.d 36 ≤ 65536) (none : s.hif.rings = []) :
    ringAssignBody q s = (.done .ok (movingContexts s (dW16 q.d 32) (dW32 q.d 36) (some h)).length,
      modHif s (fun f => { f with assign := (dW16 q.d 32, dW32 q.d 36, some h) :: f.assign })) := by
  have low : ¬ 7 < h.val := by omega
  have empty : ¬ dW32 q.d 36 < 1 := by omega
  have inside : ¬ 65536 < dW16 q.d 32 + dW32 q.d 36 := by omega
  unfold ringAssignBody
  rw [checked_pass (by simp [firstOf, steward, good, host, low, empty, inside])]
  simp [none, host]

theorem stewardHandoverBody_ok {h : HostId} (steward : isSteward q s = true) (good : dirty shHandover q = false)
    (host : dByte q.d 28 = h.val) (other : h ≠ q.host) (active : (getHost s h).active = true) (accept : (getHost s h).accept = true) :
    stewardHandoverBody q s =
      (.done .ok 0, post (modHif s (fun f => { f with steward := h })) 0x407 4 q.host.val h.val 0) := by
  have number : Fin.ofNat 8 h.val = h := by simp
  have differs : h.val ≠ q.host.val := fun e => other (Fin.ext e)
  have low : ¬ 7 < h.val := by omega
  unfold stewardHandoverBody
  rw [checked_pass (by simp [firstOf, steward, Config.stewardFix, good, host, differs, low, active, accept])]
  simp only [host, number]

theorem hostStatusBody_ok (good : dirty shHostStatus q = false) (long : 64 ≤ q.d.length.toNat) (ok : q.io.bufOk = true) :
    hostStatusBody q s = (.done .ok 0, hostWrite s q.host q.d.addrA (hostStatusBytes s)) := by
  unfold hostStatusBody
  rw [checked_pass (by simp [firstOf, good, short_false long])]
  exact replyCopy_ok ok

/-- Settles O10: each descriptor answers what the lemma about its body says. -/
theorem ringDescriptorsTakeEffect : Obligations.RingDescriptorsTakeEffect := by
  constructor
  · intro q s0 s begins
    refine ⟨fun good op => ?_, fun owns good bound mine free op => ?_,
      fun r owns good unbound found => ⟨fun kind op => ?_, fun kind fresh op => ?_⟩,
      fun r owns good count found kind op => ?_, fun owns good long ok op => ?_, fun h steward good host count range none op => ?_,
      fun h steward good host other active accept op => ?_, fun good long ok op => ?_⟩
    · exact next_done begins op (by decide) (nopBody_ok good) (by decide)
    · exact next_done begins op (by decide) (ringCreateBody_ok owns good bound mine free) (by decide)
    · exact next_done begins op (by decide) (ringDeleteBody_other owns good unbound found kind) (by decide)
    · exact next_later begins op (by decide) (ringDeleteBody_submission owns good unbound found kind fresh)
    · exact next_done begins op (by decide) (ringModerateBody_ok owns good count found kind) (by decide)
    · exact next_done begins op (by decide) (ringQueryBody_ok owns good long ok) (by decide)
    · exact next_done begins op (by decide) (ringAssignBody_free steward good host count range none) (by decide)
    · exact next_done begins op (by decide) (stewardHandoverBody_ok steward good host other active accept) (by decide)
    · exact next_done begins op (by decide) (hostStatusBody_ok good long ok) (by decide)
  · intro q s0 s begins
    refine ⟨fun owns op => ?_, fun owns bad op => ?_, fun r owns good kind live op => ?_⟩
    · exact next_done begins op (by decide) (ringCreateBody_notOwned owns) (by decide)
    · exact next_done begins op (by decide) (ringCreateBody_bad owns bad) (by decide)
    · exact next_done begins op (by decide) (ringCreateBody_live owns good kind live) (by decide)

end Sys2Proof.RingDescriptors
end

section
/-! ### Programme steps: what one does, and what it leaves unchanged -/

namespace Sys2Proof.ProgrammeSteps

open Sys2Proof Sys2Proof.Machine

/-! #### Changes of one tile -/

/-- What leads from `s` to `u` changes tile `t`, the hub, and nothing else. -/
structure OnlyTile (t : Nat) (s u : State) : Prop where
  others : ∀ v : Nat, v ≠ t → getTile u v = getTile s v
  rest : { u with tiles := s.tiles, hub := s.hub } = s

variable {t : Nat} {a s : State}

theorem OnlyTile.refl (t : Nat) (s : State) : OnlyTile t s s := ⟨fun _ _ => rfl, rfl⟩

theorem onlyTile_setTile (h : OnlyTile t a s) (x : Tile) : OnlyTile t a (setTile s t x) :=
  ⟨fun v hv => (getTile_setTile_ne s x hv).trans (h.others v hv), h.rest⟩

theorem onlyTile_modTile (h : OnlyTile t a s) (f : Tile → Tile) : OnlyTile t a (modTile s t f) := onlyTile_setTile h _

theorem onlyTile_modHub (h : OnlyTile t a s) (f : Hub → Hub) : OnlyTile t a (modHub s f) := ⟨h.others, h.rest⟩

/-! #### The parts of a step -/

/-- Imports that land change the import lanes and the bundles that wait. -/
theorem landDue_eq (x : Tile) (st : Nat) : ∃ lane bundles landed, landDue x st =
    { x with bp := { x.bp with importLane := lane }, cyc := { x.cyc with bundles := bundles, landed := landed } } := by
  unfold landDue
  generalize dueImports x st = es
  induction es generalizing x with
  | nil => exact ⟨_, _, _, rfl⟩
  | cons e es ih =>
    have one : ∃ lane bundles landed, landBundle x e =
        { x with bp := { x.bp with importLane := lane }, cyc := { x.cyc with bundles := bundles, landed := landed } } := by
      unfold landBundle
      split
      · exact ⟨_, _, _, rfl⟩
      · exact ⟨_, _, _, rfl⟩
    obtain ⟨lane, bundles, landed, hx⟩ := one
    obtain ⟨lane', bundles', landed', hes⟩ := ih (landBundle x e)
    exact ⟨lane', bundles', landed', by rw [List.foldl_cons, hes, hx]⟩

theorem applyResult_keeps (b : BpState) (p : Nat × Nat × Bool) :
    (applyResult b p).emem = b.emem ∧ (applyResult b p).outB = b.outB ∧ (applyResult b p).inB = b.inB := by
  unfold applyResult
  extract_lets n w r b1 b2
  have slots : b1.emem = b.emem ∧ b1.outB = b.outB ∧ b1.inB = b.inB := by
    unfold b1
    split <;> exact ⟨rfl, rfl, rfl⟩
  have lane : b2.emem = b.emem ∧ b2.outB = b.outB ∧ b2.inB = b.inB := by
    unfold b2
    split <;> exact slots
  split <;> exact lane

theorem applyResults_keep (rs : List (Nat × Nat × Bool)) (b : BpState) :
    (rs.foldl applyResult b).emem = b.emem ∧ (rs.foldl applyResult b).outB = b.outB ∧ (rs.foldl applyResult b).inB = b.inB := by
  induction rs generalizing b with
  | nil => exact ⟨rfl, rfl, rfl⟩
  | cons p rs ih =>
    obtain ⟨emem, outB, inB⟩ := ih (applyResult b p)
    obtain ⟨emem', outB', inB'⟩ := applyResult_keeps b p
    exact ⟨emem.trans emem', outB.trans outB', inB.trans inB'⟩

/-- The tile with the reads of its step delivered. -/
def delivered (x : Tile) : Tile := { x with bp := readsDue x.bp x.cyc.step }

/-- The writes to emulated memory that a tile's step computes. -/
def stepWrites (x : Tile) : List Access32 :=
  (stepAccesses (delivered x) x.cyc.step (stepResults (delivered x) x.cyc.step)).filter (·.write)

theorem execStep_only (s : State) (t : Nat) : OnlyTile t s (execStep s t) := by
  unfold execStep
  extract_lets x0 st x rs accs wires b1 rd em dg ew e octs sends asm_ lane b2 src s1
  have set : OnlyTile t s s1 := onlyTile_setTile (.refl t s) _
  split
  · exact onlyTile_modTile set _
  · exact set

/-- The tile after a step: its Boolean-processor state with the step's writes in emulated memory, the next step, and what its
router has to send. -/
theorem execStep_tile (s : State) (t : Nat) : ∃ bp net,
    getTile (execStep s t) t = { getTile s t with
      bp := bp, net := net, cyc := { (getTile s t).cyc with step := (getTile s t).cyc.step + 1 } } ∧
    bp.outB = (getTile s t).bp.outB ∧ bp.inB = (getTile s t).bp.inB ∧
    bp.emem = (stepWrites (getTile s t)).foldl (fun m w => ememPut m w.block w.word w.data) (getTile s t).bp.emem := by
  unfold execStep
  extract_lets x0 st x rs accs wires b1 rd em dg ew e octs sends asm_ lane b2 src s1
  obtain ⟨emem, outB, inB⟩ : b1.emem = x.bp.emem ∧ b1.outB = x.bp.outB ∧ b1.inB = x.bp.inB := applyResults_keep rs x.bp
  have writes : accs.filter (·.write) = stepWrites x0 := by
    simp only [accs, rs, x, st, stepWrites, delivered]
  have same : x.bp.emem = x0.bp.emem ∧ x.bp.outB = x0.bp.outB ∧ x.bp.inB = x0.bp.inB := ⟨rfl, rfl, rfl⟩
  clear_value b1 accs
  have out : b2.outB = x0.bp.outB := outB.trans same.2.1
  have imports : b2.inB = x0.bp.inB := inB.trans same.2.2
  have memory : b2.emem = (stepWrites x0).foldl (fun m w => ememPut m w.block w.word w.data) x0.bp.emem := by
    rw [← writes, ← same.1, ← emem]
  have tile : getTile s1 t = { x0 with bp := b2, cyc := { x0.cyc with step := x0.cyc.step + 1 } } := getTile_setTile_self _ _ _
  clear_value b2 s1 octs
  split
  · exact ⟨b2, _, by rw [getTile_modNet_self, tile], out, imports, memory⟩
  · exact ⟨b2, _, tile, out, imports, memory⟩

theorem markDirty_only (h : OnlyTile t a s) (u : Nat) (ws : List Nat) : OnlyTile t a (markDirty s u ws) := by
  unfold markDirty
  split
  · exact onlyTile_modHub h _
  · exact h

theorem getTile_markDirty (s : State) (u : Nat) (ws : List Nat) (v : Nat) : getTile (markDirty s u ws) v = getTile s v := by
  unfold markDirty
  split <;> rfl

theorem runStep_only (s : State) (t : Nat) : OnlyTile t s (runStep s t) := by
  unfold runStep
  extract_lets d x s1
  have stepped : OnlyTile t s (execStep (setTile s t x) t) := by
    have set := onlyTile_setTile (.refl t s) x
    have step := execStep_only (setTile s t x) t
    refine ⟨fun v hv => (step.others v hv).trans (set.others v hv), ?_⟩
    have both := congrArg (fun u : State => { u with tiles := s.tiles }) step.rest
    exact both
  exact onlyTile_modTile (markDirty_only stepped t _) _

/-- The tile after an executed step. -/
theorem runStep_tile (s : State) (t : Nat) : ∃ bp net cyc,
    getTile (runStep s t) t = { getTile s t with bp := bp, net := net, cyc := cyc } ∧
    cyc.step = (getTile s t).cyc.step + 1 ∧ cyc.cycle = (getTile s t).cyc.cycle ∧
    cyc.phase = (if tileDepth s t ≤ (getTile s t).cyc.step + 1 then .barrier else (getTile s t).cyc.phase) ∧
    bp.outB = (getTile s t).bp.outB ∧ bp.inB = (getTile s t).bp.inB ∧
    bp.emem = (stepWrites (landDue (getTile s t) (getTile s t).cyc.step)).foldl
      (fun m w => ememPut m w.block w.word w.data) (getTile s t).bp.emem := by
  obtain ⟨lane, bundles, landed, hx⟩ := landDue_eq (getTile s t) (getTile s t).cyc.step
  obtain ⟨bp, net, tile, outB, inB, emem⟩ := execStep_tile (setTile s t (landDue (getTile s t) (getTile s t).cyc.step)) t
  rw [getTile_setTile_self] at tile outB inB emem
  have after : getTile (runStep s t) t = { getTile s t with
      bp := bp, net := net,
      cyc := { (getTile s t).cyc with
        bundles := bundles, landed := landed, step := (getTile s t).cyc.step + 1,
        stallSince := none, stallPosted := false, barrier := 0, closeEdges := 0,
        phase := if tileDepth s t ≤ (getTile s t).cyc.step + 1 then .barrier else (getTile s t).cyc.phase } } := by
    unfold runStep
    rw [getTile_modCyc_self, getTile_markDirty, tile, hx]
  rw [hx] at outB inB
  rw [show (landDue (getTile s t) (getTile s t).cyc.step).bp.emem = (getTile s t).bp.emem by rw [hx]] at emem
  exact ⟨bp, net, _, after, rfl, rfl, rfl, outB, inB, emem⟩

/-! #### Step edges of a running tile -/

section
variable {t : TileId} {s : State} {c : Nat} {k : Casement} (owner : caseOfTile s t = some (c, k)) (runs : k.st = .running)
  (power : k.pwr = .run) (alive : (getTile s t).ctl.failSilent = false) (clock : clkSteps (getTile s t).cyc.clk = true)
include owner runs power alive clock

theorem programmeStep_stepping (seen : List StoreFault) (phase : (getTile s t).cyc.phase = .stepping) :
    exec (.programmeStep t seen) s = .next (programmeEdge s t seen) := by
  revert clock
  cases clk : (getTile s t).cyc.clk <;>
    simp [exec, execProgrammeStep, owner, runs, power, alive, phase, clk, clkSteps]

theorem programmeStep_barrier (seen : List StoreFault) (phase : (getTile s t).cyc.phase = .barrier) :
    exec (.programmeStep t seen) s = .next (barrierEdge s t seen) := by
  revert clock
  cases clk : (getTile s t).cyc.clk <;>
    simp [exec, execProgrammeStep, owner, runs, power, alive, phase, clk, clkSteps]

end

/-- A step that finds no fault, or only a corrected one, executes. -/
theorem programmeEdge_runs {s : State} {t : Nat} (landed : importAwaited (getTile s t) (getTile s t).cyc.step = none) :
    programmeEdge s t [] = runStep s t := by
  simp [programmeEdge, landed, storeFaults]

theorem programmeEdge_fault {s : State} {t : Nat} (landed : importAwaited (getTile s t) (getTile s t).cyc.step = none)
    {f : StoreFault} (finds : stepFinds { getTile s t with bp := readsDue (getTile s t).bp (getTile s t).cyc.step }
      (getTile s t).cyc.step f = true) :
    programmeEdge s t [f] = if fatalFault f then goSilent (postFault t s f) t 1 else runStep (postFault t s f) t := by
  simp only [programmeEdge, landed, Option.isSome_none, Bool.false_eq_true, if_false, List.filter_cons, finds, if_true,
    List.filter_nil, storeFaults, List.foldl_cons, List.foldl_nil, List.any_cons, List.any_nil, Bool.or_false]
  split <;> rfl

theorem fatalFault_of_uncorrected {f : StoreFault} (h : ∀ u : StoreUnit, f ≠ .corrected u) : fatalFault f = true := by
  cases f with
  | corrected u => exact absurd rfl (h u)
  | _ => rfl

/-- Settles O11: step edges are `programmeEdge`, and those at a barrier `barrierEdge`. -/
theorem programmeStepTakesEffect : Obligations.ProgrammeStepTakesEffect := by
  intro t s c k owner runs power alive clock
  refine ⟨fun phase => ?_, fun phase early => ?_⟩
  · have step := fun seen => programmeStep_stepping owner runs power alive clock seen phase
    refine ⟨fun landed => ⟨?_, fun f finds => ⟨fun u corrected => ?_, fun uncorrected => ?_⟩⟩, fun e awaited => ?_⟩
    · rw [step, programmeEdge_runs landed]
    · rw [step, programmeEdge_fault landed finds, corrected]
      rfl
    · rw [step, programmeEdge_fault landed finds, if_pos (fatalFault_of_uncorrected uncorrected)]
    · rw [step, programmeEdge, if_pos (by rw [awaited]; rfl)]
  · rw [programmeStep_barrier owner runs power alive clock [] phase]
    simp only [barrierEdge, show ¬ 8 ≤ (getTile s t).cyc.barrier by omega, if_false, List.filter_nil, storeFaults,
      List.foldl_nil, List.any_nil, Bool.false_eq_true, if_true]

theorem ememPuts_outside (ws : List Access32) (m : List Host.Cell) (a : Nat)
    (h : ∀ w ∈ ws, ¬ (8192 * w.block + 4 * w.word ≤ a ∧ a < 8192 * w.block + 4 * w.word + 4)) :
    memGet zeroes (ws.foldl (fun m w => ememPut m w.block w.word w.data) m) a = memGet zeroes m a := by
  induction ws generalizing m with
  | nil => rfl
  | cons w ws ih =>
    rw [List.foldl_cons, ih _ fun v hv => h v (List.mem_cons_of_mem _ hv),
      Stores.memGet_ememPut_outside _ _ _ _ _ (h w List.mem_cons_self)]

/-- Settles O12: `runStep_tile` and `runStep_only` say what a step changes, `ememPuts_outside` what its writes leave. -/
theorem programmeStepFrame : Obligations.ProgrammeStepFrame := by
  constructor
  · intro t s c k owner runs power alive clock phase landed
    obtain ⟨bp, net, cyc, tile, step, cycle, next, outB, inB, -⟩ := runStep_tile s t
    obtain ⟨others, rest⟩ := runStep_only s t
    have depth : tileDepth s t = k.depth := by simp [tileDepth, owner]
    refine ⟨_, (programmeStep_stepping owner runs power alive clock [] phase).trans (by rw [programmeEdge_runs landed]), ?_⟩
    rw [tile]
    exact ⟨step, cycle, by rw [next, depth, phase], outB, inB, rfl, rfl, rfl, rfl, rfl, rfl, rfl, rfl, others,
      (congrArg State.cases rest :), (congrArg State.dev rest :), (congrArg State.hif rest :), (congrArg State.bsp rest :),
      (congrArg State.load rest :), (congrArg State.jnl rest :), (congrArg State.rcd rest :), (congrArg State.pending rest :)⟩
  · intro t s c k a owner runs power alive clock phase landed x0 x outside
    obtain ⟨bp, net, cyc, tile, -, -, -, -, -, emem⟩ := runStep_tile s t
    refine ⟨_, (programmeStep_stepping owner runs power alive clock [] phase).trans (by rw [programmeEdge_runs landed]), ?_⟩
    rw [tile]
    show memGet zeroes bp.emem a = _
    rw [emem]
    refine ememPuts_outside _ _ _ fun w hw => ?_
    obtain ⟨access, write⟩ := List.mem_filter.mp hw
    exact outside w access write

end Sys2Proof.ProgrammeSteps
end

section
/-! ### Barriers, closes and releases -/

namespace Sys2Proof.Barriers

open Sys2Proof Sys2Proof.Machine

/-! #### Gather toggles and barrier faults -/

theorem gather_arrive {hub : SectorId} {c : CaseId} {t : TileId} {s : State} {k : Casement} (hk : getCase s c = some k)
    (here : sectorOf t = hub.val) :
    exec (.gather hub c (.arrive t)) s =
      .next (if !k.chan.mask.getLsbD t then barrierFault s c hub (t.val % 24) else takeArrive s c hub t) := by
  simp [exec, execGather, hk, here]

/-- A barrier fault of a paused casement. -/
theorem barrierFault_paused {c hub wire : Nat} {s : State} {k : Casement} (hk : getCase s c = some k) (paused : k.st = .paused) :
    barrierFault s c hub wire = settleFaultN (epochSettle (post (setCase s c { k with
      chan := { k.chan with fault := true }, st := .held }) 0x686 3 hub c wire)) := by
  have still : (k.st == .paused || (k.st == .running && betweenCycles s k)) = true := by simp [paused]
  simp only [barrierFault, hk, modCase_of_some hk, still, if_true]

/-- Settles O13: a toggle that fits is taken by its sector's hub, any other is a barrier fault. -/
theorem barrierEventsTakeEffect : Obligations.BarrierEventsTakeEffect := by
  constructor
  · intro hub c s k hk
    refine ⟨fun t here mask phase open_ => ?_, fun t here unmasked => ?_, fun j other done => ?_, fun i low high => ?_⟩
    · rw [gather_arrive hk here, mask]
      simp only [takeArrive, phase, open_, modCase_of_some hk]
      rfl
    · rw [gather_arrive hk here, unmasked]
      rfl
    · have differs : j.val ≠ hub.val := fun e => other (Fin.ext e)
      simp [exec, execGather, takeSectorDone, hk, differs, done, modCase_of_some hk]
    · simp [exec, execGather, hk, show ¬ i.toNat < 24 by omega, show ¬ 48 ≤ i.toNat by omega]
  · intro c hub wire s k hk paused
    exact ⟨_, barrierFault_paused hk paused, getCase_setCase_self s c _, rfl, rfl⟩

/-! #### Closes and releases of lintels -/

theorem caseByte_of {s : State} {t c : Nat} {k : Casement} (owner : caseOfTile s t = some (c, k)) : caseByte s t = c := by
  simp [caseByte, owner]

/-- No epoch change and no promotion is under way at the hub. -/
def HubCalm (s : State) : Prop := s.hub.epoch = none ∧ s.hub.promo = none

theorem hubCalm_complete {s : State} (h : HubCalm s) (q : Req) (st : Status) (res : Nat) : HubCalm (complete q st res s) := by
  have hub : (complete q st res s).hub = s.hub := (congrArg State.hub (Completions.hostAndCmp_complete (.refl s) q st res).rest :)
  rwa [HubCalm, hub]

theorem hubCalm_foldl {α : Type} (f : State → α → State) (l : List α) {s : State} (h : HubCalm s)
    (hf : ∀ u x, HubCalm u → HubCalm (f u x)) : HubCalm (l.foldl f s) := by
  induction l generalizing s with
  | nil => exact h
  | cons x l ih => exact ih (hf _ _ h)

theorem hubCalm_markDirty {s : State} (h : HubCalm s) (t : Nat) (ws : List Nat) : HubCalm (markDirty s t ws) := by
  obtain ⟨epoch, promo⟩ := h
  unfold markDirty
  split
  · exact ⟨epoch, by simp [promo]⟩
  · exact ⟨epoch, promo⟩

theorem hubCalm_releaseChanges {s : State} (h : HubCalm s) (k : Casement) (c t : Nat) (n : BitVec 64) :
    HubCalm (releaseChanges s k c t n) := by
  unfold releaseChanges
  split
  · exact hubCalm_foldl _ _ h fun u p hu => hu
  · extract_lets y ds ps cost s1 s2 s3
    have recorded : HubCalm s2 := by
      unfold s2
      split
      · show HubCalm (modCase s1 c _)
        rw [HubCalm, modCase_hub]
        exact h
      · exact h
    exact hubCalm_foldl _ _ (hubCalm_markDirty recorded t _) fun u p hu => hubCalm_complete hu _ _ _

/-- A released tile, where no epoch change and no promotion is under way. -/
theorem releaseTile_calm {s : State} {c t : Nat} {n : BitVec 64} {k : Casement} (hk : getCase s c = some k) (calm : HubCalm s) :
    ∃ (x : Tile) (cyc : CycState), getTile (releaseTile s c t n) t = clearCycle k.depth { x with cyc := cyc } ∧
      cyc.phase = .stepping ∧ cyc.step = 0 ∧ cyc.cycle = n ∧ cyc.closeSig = false := by
  unfold releaseTile
  split
  · next absent => cases absent.symm.trans hk
  next k' found =>
  cases found.symm.trans hk
  extract_lets v s1 s2 flips
  have changed : HubCalm s1 := hubCalm_releaseChanges (s := modBp s t fun b => { b with inB := v }) calm k c t n
  obtain ⟨epoch, promo⟩ : HubCalm s2 := changed
  have still : flips = false := by simp [flips, epoch]
  rw [still, promoteAt, if_neg Bool.false_ne_true, promo]
  exact ⟨_, _, getTile_modTile_self s1 t _, rfl, rfl, rfl, rfl⟩

/-- Settles O14: each case is a branch of the close or of the release. -/
theorem lintelsTakeEffect : Obligations.LintelsTakeEffect := by
  refine ⟨?_, ?_, ?_⟩
  · intro t c k s barrier steps sig edges clock owner
    simp [exec, execLintelClose, barrier, steps, sig, edges, clock, caseByte_of owner]
  · intro t c k s closed clock owner n
    have release : exec (.lintelRelease t) s = .next (
        if heldAt s k t (getTile s t).cyc.cycle.toNat then s
        else match newRate k (getTile s t) n.toNat with
          | some v => modCyc s t (fun y => { y with clk := .locking, clkN := v })
          | none =>
            if paceWait s k t n then s
            else
              let first := firstToRelease s k t n
              let s0 := if k.replay.isSome && first then replayRelease s c n.toNat else s
              let s1 := if first then modCase s0 c (fun k => { k with chan := { k.chan with lastRelease := s.dev.now } }) else s0
              lastRelease (releaseTile s1 c t n) c n) := by
      have goes : (!tileIn s t .closed || !clkSteps (getTile s t).cyc.clk) = false := by simp [closed, clock]
      simp only [exec, execLintelRelease, goes, Bool.false_eq_true, if_false, owner] <;> rfl
    rw [release]
    refine ⟨fun held => ?_, fun free => ⟨fun v rate => ?_, fun rate => ⟨fun waits => ?_, fun goes later => ?_, fun goes first plain => ?_⟩⟩⟩
    · rw [held, if_pos rfl]
    · simp only [free, rate, Bool.false_eq_true, if_false]
    · simp only [free, rate, waits, Bool.false_eq_true, if_false, if_true]
    · simp only [free, rate, goes, later, Bool.false_eq_true, if_false, Bool.and_false]
    · simp only [free, rate, goes, first, plain, Option.isSome_none, Bool.false_and, Bool.false_eq_true, if_false, if_true]
  · intro s c t n k hk epoch promo
    obtain ⟨x, cyc, tile, phase, step, cycle, sig⟩ := releaseTile_calm (t := t) (n := n) hk ⟨epoch, promo⟩
    rw [tile]
    exact ⟨phase, step, cycle, sig⟩

end Sys2Proof.Barriers
end

section
/-! ### Bundles and the clock events of tiles -/

namespace Sys2Proof.TileEvents

open Sys2Proof Sys2Proof.Machine

/-! #### Bundles -/

theorem takeBundle_simplex {s : State} {t : Nat} {p : Packet} {b : Bundle}
    (simplex : bothLive (roleEntry (rtBank (getTile s t).net (p.hdr.getLsbD 50)) (bitsOf p.hdr.toNat 24 8)) = false) :
    takeBundle s t p b = bufferBundle s t (bitsOf p.hdr.toNat 24 8) b := by
  simp only [takeBundle, takeBundle.hdrSrcRole, simplex, Bool.not_false, if_true]

/-- The conditions under which `bufferBundle` discards, as one Boolean. -/
def bundleBad (x : Tile) (role : Nat) (b : Bundle) : Bool :=
  let w := importWord x b.imp
  let n := x.cyc.cycle.toNat
  x.cyc.phase == .idle || !bitAt w 49 || recBits w 18 9 != b.octets || recBits w 41 8 != role ||
    (b.tag.toNat != n % 2 ^ 32 && b.tag.toNat != (n + 1) % 2 ^ 32) ||
    x.cyc.bundles.any (fun d => d.imp = b.imp && d.tag == b.tag) || (b.tag.toNat == n % 2 ^ 32 && x.cyc.landed.contains b.imp)

theorem bufferBundle_eq (s : State) (t role : Nat) (b : Bundle) : bufferBundle s t role b =
    if bundleBad (getTile s t) role b then
      postTile (modCyc s t (fun y => { y with unexpected := bump y.unexpected })) t 0x682 1 t (caseByte s t) b.imp
    else modCyc s t (fun y => { y with bundles := y.bundles ++ [b] }) := rfl

theorem bundleBad_false_iff (x : Tile) (role : Nat) (b : Bundle) : bundleBad x role b = false ↔
    x.cyc.phase ≠ .idle ∧ (importWord x b.imp).testBit 49 = true ∧ recBits (importWord x b.imp) 18 9 = b.octets ∧
      recBits (importWord x b.imp) 41 8 = role ∧
      (b.tag.toNat = x.cyc.cycle.toNat % 2 ^ 32 ∨ b.tag.toNat = (x.cyc.cycle.toNat + 1) % 2 ^ 32) ∧
      (∀ d ∈ x.cyc.bundles, ¬ (d.imp = b.imp ∧ d.tag = b.tag)) ∧
      ¬ (b.tag.toNat = x.cyc.cycle.toNat % 2 ^ 32 ∧ b.imp ∈ x.cyc.landed) := by
  simp only [bundleBad, bitAt, Bool.or_eq_false_iff, Bool.and_eq_false_iff, List.any_eq_false, bne_eq_false_iff_eq, beq_eq_false_iff_ne,
    Bool.not_eq_false', Bool.and_eq_true, decide_eq_true_eq, beq_iff_eq, List.contains_eq_mem, decide_eq_false_iff_not]
  tauto

/-- Settles O16: the arrival hands the bundle on, and `bundleBad` is the negation of R79's conditions. -/
theorem bundlesAreCheckedAndBuffered : Obligations.BundlesAreCheckedAndBuffered := by
  constructor
  · intro t p s held room s1
    have arrival : exec (.bundleArrival t p) s = .next (match parseBundle p with
        | some b => takeBundle s1 t p b
        | none => postTile (modCyc s1 t (fun y => { y with unexpected := bump y.unexpected })) t 0x682 1 t
            (caseByte s t) (byteAt p.data 0)) := by
      have taken : (!(getTile s t).net.ejectQ.contains p || !bundleRoom (getTile s t).cyc) = false := by
        rw [held, room]
        rfl
      simp only [exec, execBundleArrival, taken, Bool.false_eq_true, if_false]
      rfl
    refine ⟨fun b parsed simplex => ?_, fun unparsed => ?_⟩
    · rw [arrival, parsed]
      exact congrArg Host.Outcome.next (takeBundle_simplex simplex)
    · rw [arrival, unparsed]
  · intro t role b s x w n good
    rw [bufferBundle_eq]
    refine ⟨fun h => ?_, fun h => ?_⟩
    · rw [(bundleBad_false_iff _ _ _).mpr h, if_neg Bool.false_ne_true]
    · rw [if_pos (Bool.eq_true_of_not_eq_false fun e => h ((bundleBad_false_iff _ _ _).mp e))]

/-! #### Stalls, clock generators, configuration scan and watchdogs -/

/-- A role whose one other live tile stands goes on with it. -/
theorem autoRetire_partner {t : TileId} {c r m : Nat} {k : Casement} {s : State} (owner : caseOfTile s t = some (c, k))
    (role : roleIn (hubBank s) t = some r) (silent : (getTile s t).ctl.failSilent = true) (fresh : retiring s t = false)
    (partner : (liveTiles (roleEntry (hubBank s) r)).filter (fun u => u != t.val && !(getTile s u).ctl.failSilent) = [m]) :
    exec (.autoRetire t) s = .next (settleFaultN (epochSettle (requestEpoch
      (modCase (post s 0x205 3 t r (nextTenure (rtTenure (roleEntry (hubBank s) r)))) c (fun k => { k with lost := mset k.lost r t }))
      { why := .retire r t none, roles := [], avoid := none }))) := by
  simp only [exec, execAutoRetire, owner, role, silent, fresh, partner, Bool.not_true, Bool.or_false, Bool.false_eq_true, if_false,
    List.isEmpty_cons]

/-- Settles O17: each event by the branch that its cause selects. -/
theorem tileClockEventsTakeEffect : Obligations.TileClockEventsTakeEffect := by
  refine ⟨?_, ?_, ?_, ?_, ?_, ?_, ?_, ?_, ?_, ?_, ?_, ?_⟩
  · intro t s stalls fresh
    simp [exec, execStallTimeout, stalls, fresh]
  · intro s sysref
    simp [exec, execSysrefLoss, sysref]
  · intro s
    rfl
  · intro t s power clock
    simp [exec, execGeneratorUnlock, power, clock]
  · intro t s unlocked soon locked
    simp [exec, execGeneratorRelock, unlocked, soon, locked]
  · intro t s unlocked late
    simp [exec, execClockFailed, unlocked, late]
  · intro t q s power fabric works
    exact ⟨by simp [exec, execConfigScan, power, fabric, works], by simp [exec, execConfigScan, power, fabric, works]⟩
  · intro t s power first
    simp [exec, execTcWatchdogExpiry, power, first]
  · intro t w s power before soon
    have again : decide ((s.dev.now - w).toNat ≤ 1000000000) = true := decide_eq_true soon
    have on : ((getTile s t).dom.tk != .on) = false := by simp [power]
    simp only [exec, execTcWatchdogExpiry, before, again, on, Bool.false_eq_true, if_false, if_true]
  · intro t s restarts plain
    simp [exec, execTcRestartDone, restarts, plain]
  · intro t q s restarts asked
    simp [exec, execTcRestartDone, restarts, asked]
  · intro t c r m k s owner role silent fresh partner
    exact autoRetire_partner owner role silent fresh partner

end Sys2Proof.TileEvents
end

section
/-! ### Descriptors that name a casement (R59) -/

namespace Sys2Proof.Descriptors

open Sys2Proof Sys2Proof.Machine

theorem firstOf_append {l r : List (Bool × Status)} (h : firstOf l = none) : firstOf (l ++ r) = firstOf r := by
  induction l with
  | nil => rfl
  | cons c l ih =>
    obtain ⟨b, st⟩ := c
    cases b with
    | true => simp [firstOf] at h
    | false => exact ih (by simpa [firstOf] using h)

theorem firstOf_cons_false {b : Bool} {st : Status} {r : List (Bool × Status)} (h : b = false) :
    firstOf ((b, st) :: r) = firstOf r := by simp [firstOf, h]

variable {q : Req} {a : Access} {t : Option Nat} {k : Casement} {s : State}

/-- The checks of R59 pass where the casement serves the descriptor. -/
theorem r59_pass (h : Serves q a t k s) : firstOf (r59 q a t true s) = none := by
  obtain ⟨found, user, free, open_, works⟩ := h
  have owner : isOwner q s = true ∨ a = .peek ∧ isSteward q s = true := user.imp_left fun o => by
    simp [isOwner, found, o]
  have allowed : notAllowed q a s = false := by
    rcases owner with o | ⟨rfl, st⟩
    · simp [notAllowed, o]
    · simp [notAllowed, st]
  unfold r59
  rw [found]
  cases t with
  | none => simp [firstOf, allowed, free, open_]
  | some u =>
    have up : (getTile s u).ctl.restarting = false := works
    simp [firstOf, allowed, free, open_, up]

theorem tileInside_of_names (found : getCase s (dCase q.d) = some k) (h : NamesTile q k) :
    tileInside q (dByte q.d 28) s = true := by
  obtain ⟨low, inside⟩ := h
  simp [tileInside, found, low, inside]

theorem r59Tile_pass (h : Serves q a (some (dByte q.d 28)) k s) (names : NamesTile q k) : firstOf (r59Tile q a s) = none := by
  rw [r59Tile, tileInside_of_names h.1 names]
  exact r59_pass h

theorem servedBy_alive {u : Nat} (alive : (getTile s u).ctl.failSilent = false) : servedBy s u = u := by
  simp [servedBy, alive]

theorem r59Served_pass (h : Serves q a (some (dByte q.d 28)) k s) (names : NamesTile q k)
    (alive : (getTile s (dByte q.d 28)).ctl.failSilent = false) : firstOf (r59Served q a s) = none := by
  rw [r59Served, tileInside_of_names h.1 names, servedBy_alive alive]
  exact r59_pass h

theorem r62_nextCycle (firstOpen current held : Nat) : r62 nextCycle firstOpen current held = [] := by
  simp [r62]

theorem namedCycle_next (firstOpen : Nat) : namedCycle nextCycle firstOpen = firstOpen := by simp [namedCycle]

end Sys2Proof.Descriptors
end

section
/-! ### Peeks, pokes, and the cycle descriptors -/

namespace Sys2Proof.CycleDescriptors

open Sys2Proof Sys2Proof.Machine Sys2Proof.Descriptors

variable {q : Req} {k : Casement} {s : State}

/-! #### Peeks -/

section
variable (alive : (getTile s (dByte q.d 28)).ctl.failSilent = false) (cycle : dW64 q.d 40 = nextCycle)
include alive cycle

/-- A peek of a running tile at the next available close waits there. -/
theorem acceptPeek_running (kind : PeekKind) (running : pausedTile s (dByte q.d 28) = false) :
    acceptPeek q kind s = (.later, modCyc s (dByte q.d 28) (fun y => { y with peeks := y.peeks ++
      [{ req := q, kind := kind, cyc := BitVec.ofNat 64 (openClose y) }] })) := by
  unfold acceptPeek
  simp only [servedBy_alive alive, running, Bool.false_and, Bool.false_eq_true, if_false, cycle, namedCycle_next]
  exact checked_pass (by rw [r62_nextCycle]; rfl)

theorem acceptPeek_paused (kind : PeekKind) (paused : pausedTile s (dByte q.d 28) = true) :
    acceptPeek q kind s = (.later, servePeek (dByte q.d 28) (getTile s (dByte q.d 28)).cyc.cycle.toNat s
      { req := q, kind := kind, cyc := (getTile s (dByte q.d 28)).cyc.cycle }) := by
  unfold acceptPeek
  simp only [servedBy_alive alive, paused, cycle]
  simp

end

section
variable (names : NamesTile q k) (alive : (getTile s (dByte q.d 28)).ctl.failSilent = false)
include names alive

theorem bpPeekBody_serves (h : Serves q .peek (some (dByte q.d 28)) k s) (good : badBpFields q 512 = false) :
    bpPeekBody q s = acceptPeek q .bp s :=
  checked_pass (by rw [firstOf_append (r59Served_pass h names alive), firstOf_cons_false good]; rfl)

theorem memPeekBody_serves (h : Serves q .peek (some (dByte q.d 28)) k s) (good : badMemFields q = false) :
    memPeekBody q s = acceptPeek q .mem s :=
  checked_pass (by rw [firstOf_append (r59Served_pass h names alive), firstOf_cons_false good]; rfl)

theorem boundaryPeekBody_serves (h : Serves q .peek (some (dByte q.d 28)) k s) (good : dirty shBoundary q = false)
    (long : 64 ≤ q.d.length.toNat) : boundaryPeekBody q s = acceptPeek q .boundary s :=
  checked_pass (by
    rw [firstOf_append (r59Served_pass h names alive), firstOf_cons_false (by rw [good, short_false long]; rfl)]; rfl)

/-! #### Pokes -/

theorem bpPokeBody_serves (h : Serves q .poke (some (dByte q.d 28)) k s) (joined : k.isolated = false)
    (good : badBpFields q 384 = false) (ffs : pokesFfs (getTile s (dByte q.d 28)) k.depth q = true) :
    bpPokeBody q s = acceptPoke q false s := by
  have found := h.1
  have open_ : isolatedCase q s = false := by simp [isolatedCase, found, joined]
  have depth : depthOf q s = k.depth := by simp [depthOf, found]
  unfold bpPokeBody
  exact checked_pass (by
    rw [firstOf_append (r59Served_pass h names alive), firstOf_cons_false open_, firstOf_cons_false good,
      firstOf_cons_false (by rw [servedBy_alive alive, depth, ffs]; rfl)]; rfl)

theorem memPokeBody_serves (h : Serves q .poke (some (dByte q.d 28)) k s) (joined : k.isolated = false)
    (good : badMemFields q = false) : memPokeBody q s = acceptPoke q true s := by
  have open_ : isolatedCase q s = false := by simp [isolatedCase, h.1, joined]
  exact checked_pass (by
    rw [firstOf_append (r59Served_pass h names alive), firstOf_cons_false open_, firstOf_cons_false good]; rfl)

omit names in
/-- A poke of a simplex role at the next available release waits there. -/
theorem acceptPoke_simplex (mem : Bool) (simplex : partnerOf s (dByte q.d 28) = none) (ok : q.io.bufOk = true)
    (cycle : dW64 q.d 40 = nextCycle) :
    acceptPoke q mem s = (.later, modCyc s (dByte q.d 28) (fun y => { y with pokes := y.pokes ++
      [{ req := q, mem := mem, cyc := BitVec.ofNat 64 (openRelease (getTile s (dByte q.d 28)).cyc), completes := true }] })) := by
  have served := servedBy_alive alive
  have tiles : pokeTiles s q = [dByte q.d 28] := by simp [pokeTiles, deliveryTiles, served, simplex]
  unfold acceptPoke
  refine (checked_pass (by rw [cycle, r62_nextCycle]; rfl)).trans ?_
  simp [ok, tiles, cycle, namedCycle_next, queuePoke, served]

end

/-- The bytes of a MEM_POKE: its words, from what host memory gave. -/
theorem pokeData_mem (q : Req) : (pokeData q true).length = 4 * dW16 q.d 34 ∧
    ∀ i, i < 4 * dW16 q.d 34 → i < q.io.dataA.length → (pokeData q true)[i]? = q.io.dataA[i]? := by
  have bytes : (reqBits q true + 7) / 8 = 4 * dW16 q.d 34 := by simp [reqBits]; omega
  unfold pokeData padTo
  rw [bytes]
  refine ⟨by simp, fun i low given => ?_⟩
  rw [List.getElem?_append_left (by simp; omega), List.getElem?_take_of_lt low]

theorem applyPoke_frame (b : BpState) (p : Poke) : (p.mem = false → (applyPoke b p).emem = b.emem) ∧
    (p.mem = true → (applyPoke b p).slots = b.slots) ∧ (applyPoke b p).staging = b.staging ∧
    (applyPoke b p).outB = b.outB ∧ (applyPoke b p).inB = b.inB := by
  unfold applyPoke
  extract_lets q
  cases p.mem with
  | true => exact ⟨nofun, fun _ => rfl, rfl, rfl, rfl⟩
  | false => exact ⟨fun _ => rfl, nofun, rfl, rfl, rfl⟩

theorem applyPoke_mem {b : BpState} {p : Poke} (mem : p.mem = true) : (applyPoke b p).emem =
    memPuts zeroes b.emem (8192 * dByte p.req.d 29 + 4 * dW16 p.req.d 32) (pokeData p.req true) := by
  simp [applyPoke, mem]

/-- Settles O18: acceptance by `acceptPeek` and `acceptPoke`, the bytes of a poke by the laws of runs of bytes. -/
theorem peeksAndPokesTakeEffect : Obligations.PeeksAndPokesTakeEffect := by
  refine ⟨?_, ?_, ?_⟩
  · intro q s0 s k begins names alive
    refine ⟨?_, fun h paused cycle ok good op => ?_, ?_⟩
    · intro h running cycle queued
      refine ⟨fun good op => ?_, fun good op => ?_, fun good long op => ?_⟩
      · exact next_later begins op (by decide)
          ((bpPeekBody_serves names alive h good).trans (acceptPeek_running alive cycle .bp running))
      · exact next_later begins op (by decide)
          ((memPeekBody_serves names alive h good).trans (acceptPeek_running alive cycle .mem running))
      · exact next_later begins op (by decide)
          ((boundaryPeekBody_serves names alive h good long).trans (acceptPeek_running alive cycle .boundary running))
    · refine next_later begins op (by decide)
        ((memPeekBody_serves names alive h good).trans ((acceptPeek_paused alive cycle .mem paused).trans ?_))
      rw [servePeek, if_pos ok]
      rfl
    · intro h joined simplex ok cycle queued
      refine ⟨fun good ffs op => ?_, fun good op => ?_⟩
      · exact next_later begins op (by decide)
          ((bpPokeBody_serves names alive h joined good ffs).trans (acceptPoke_simplex alive false simplex ok cycle))
      · exact next_later begins op (by decide)
          ((memPokeBody_serves names alive h joined good).trans (acceptPoke_simplex alive true simplex ok cycle))
  · intro b p a q
    obtain ⟨length, bytes⟩ := pokeData_mem p.req
    obtain ⟨emem, rest⟩ := applyPoke_frame b p
    refine ⟨fun mem outside => ?_, fun mem wf i low given => ?_, emem, rest⟩
    · rw [applyPoke_mem mem]
      exact Stores.memGet_memPuts_outside _ _ _ _ _ (by rwa [length])
    · rw [applyPoke_mem mem, Stores.memGet_memPuts_inside _ _ wf _ _ _ (by rwa [length])]
      have byte := bytes i low given
      rw [List.getElem?_eq_getElem (by rwa [length])] at byte
      rw [List.getD_eq_getElem?_getD, ← byte]
      rfl
  · intro named firstOpen current held
    refine ⟨fun next => ?_, fun given early => ?_, fun given open_ far => ?_, fun given open_ near => ?_⟩
    · rw [next, r62_nextCycle]
      rfl
    · simp [r62, given, firstOf, early]
    · simpa [r62, given, firstOf, show ¬ named < firstOpen by omega] using far
    · have inside : ¬ current + 2 ^ 24 < named := by omega
      simp only [r62, given, if_false, firstOf, show ¬ named < firstOpen by omega, inside, decide_false, Bool.false_eq_true,
        decide_eq_true_eq]

end Sys2Proof.CycleDescriptors
end

section
/-! ### Rates, pauses, steps, and the figures of a tile -/

namespace Sys2Proof.CycleDescriptors

open Sys2Proof Sys2Proof.Machine Sys2Proof.Descriptors

variable {q : Req} {k : Casement} {s : State}

section
variable (h : Serves q .poke none k s)
include h

theorem cycleRateBody_serves (good : badRate q = false) (cycle : dW64 q.d 40 = nextCycle) :
    cycleRateBody q s = (.later, modCase (markChanged s (dCase q.d)) (dCase q.d) (fun k => { k with
      rates := k.rates ++ [{ req := q, cyc := BitVec.ofNat 64 (overTiles q openRelease s) }] })) := by
  unfold cycleRateBody
  rw [checked_pass (by
    rw [List.append_assoc, firstOf_append (r59_pass h), List.singleton_append, firstOf_cons_false good, cycle, r62_nextCycle]; rfl)]
  rw [cycle, namedCycle_next]

theorem cyclePauseBody_serves (good : dirty shPause q = false) (free : k.pause = none) (cycle : dW64 q.d 40 = nextCycle) :
    cyclePauseBody q s = (.later, setCase s (dCase q.d) { k with
      pause := some (BitVec.ofNat 64 (overTiles q openClose s), q) }) := by
  have open_ : pausePending q s = false := by simp [pausePending, h.1, free]
  unfold cyclePauseBody
  rw [checked_pass (by
    rw [List.append_assoc, firstOf_append (r59_pass h), List.cons_append, firstOf_cons_false good, List.singleton_append,
      firstOf_cons_false open_, cycle, r62_nextCycle]; rfl)]
  rw [cycle, namedCycle_next, modCase_of_some h.1]

theorem cycleStepBody_serves (good : dirty shStep q = false) (paused : k.st = .paused) :
    cycleStepBody q s = (.later, stepCase q s) := by
  have moves : heldCase q s = false := by simp [heldCase, h.1, paused]
  have still : stillCase q s = true := by simp [stillCase, h.1, caseStill, paused]
  unfold cycleStepBody stepChecks
  refine checked_pass ?_
  rw [moves, if_neg Bool.false_ne_true, firstOf_append (r59_pass h), firstOf_cons_false (by rw [good, still]; rfl)]
  rfl

end

theorem stepCase_zero (found : getCase s (dCase q.d) = some k) (power : k.pwr = .run) (zero : dW32 q.d 32 = 0) :
    stepCase q s = settleFaultN (wakeRouters (setCase s (dCase q.d) { k with
      st := .running, chan := { k.chan with fault := false }, halt := !s.dev.sleepReq.isEmpty, resume := k.resume ++ [q] })) := by
  simp [stepCase, modCase_of_some found, power, zero]

theorem stepCase_count (found : getCase s (dCase q.d) = some k) (power : k.pwr = .run) (some_ : dW32 q.d 32 ≠ 0) :
    stepCase q s = settleFaultN (wakeRouters (setCase s (dCase q.d) { k with
      st := .running, chan := { k.chan with fault := false }, halt := !s.dev.sleepReq.isEmpty,
      stepTo := k.stepTo ++ [(BitVec.ofNat 64 (caseCycle k s + dW32 q.d 32), q)] })) := by
  simp [stepCase, modCase_of_some found, power, some_]

section
variable (names : NamesTile q k) (h : Serves q .peek (some (dByte q.d 28)) k s) (long : 64 ≤ q.d.length.toNat)
  (ok : q.io.bufOk = true)
include names h long ok

theorem scheduleInfoBody_serves (good : dirty shTileStatus q = false) :
    scheduleInfoBody q s = (.done .ok 0, hostWrite s q.host q.d.addrA (scheduleBytes (getTile s (dByte q.d 28)) k)) := by
  have found := h.1
  unfold scheduleInfoBody
  rw [checked_pass (by rw [firstOf_append (r59Tile_pass h names), firstOf_cons_false (by rw [good, short_false long]; rfl)]; rfl)]
  simp only [found, replyCopy_ok ok]

theorem lintelStatusBody_serves (good : dirty shTileStatus q = false) :
    lintelStatusBody q s = (.done .ok 0, hostWrite s q.host q.d.addrA (lintelBytes s (dByte q.d 28))) := by
  unfold lintelStatusBody
  rw [checked_pass (by rw [firstOf_append (r59Tile_pass h names), firstOf_cons_false (by rw [good, short_false long]; rfl)]; rfl)]
  exact replyCopy_ok ok

theorem storeStatusBody_serves (good : dirty shTileClear q = false) : storeStatusBody q s =
    let u := hostWrite s q.host q.d.addrA (storeBytes (dByte q.d 28) (getTile s (dByte q.d 28)))
    (.done .ok 0, if (dByte q.d 29).testBit 0 then modTile u (dByte q.d 28) clearStore else u) := by
  unfold storeStatusBody
  rw [checked_pass (by rw [firstOf_append (r59Tile_pass h names), firstOf_cons_false (by rw [good, short_false long]; rfl)]; rfl)]
  simp only [replyCopy_ok ok, ok, Bool.true_and, bitAt]
  split <;> rfl

end

/-- Settles O19: rates and pauses wait, steps go on, and the figures of a tile are copied. -/
theorem cycleDescriptorsTakeEffect : Obligations.CycleDescriptorsTakeEffect := by
  constructor
  · intro q s0 s k begins h
    refine ⟨fun good cycle op => ?_, fun good free cycle op => ?_, fun good paused power => ⟨fun zero op => ?_, fun count op => ?_⟩⟩
    · exact next_later begins op (by decide) (cycleRateBody_serves h good cycle)
    · exact next_later begins op (by decide) (cyclePauseBody_serves h good free cycle)
    · rw [← stepCase_zero h.1 power zero]
      exact next_later begins op (by decide) (cycleStepBody_serves h good paused)
    · rw [← stepCase_count h.1 power count]
      exact next_later begins op (by decide) (cycleStepBody_serves h good paused)
  · intro q s0 s k begins names h long ok t x
    refine ⟨fun good op => ?_, fun good op => ?_, fun good keep op => ?_, fun good clear op => ?_⟩
    · exact next_done begins op (by decide) (scheduleInfoBody_serves names h long ok good) (by decide)
    · exact next_done begins op (by decide) (lintelStatusBody_serves names h long ok good) (by decide)
    · have body := storeStatusBody_serves names h long ok good
      rw [keep] at body
      exact next_done begins op (by decide) body (by decide)
    · have body := storeStatusBody_serves names h long ok good
      rw [clear] at body
      exact next_done begins op (by decide) body (by decide)

end Sys2Proof.CycleDescriptors
end

section
/-! ### The logic fabric: edges, both ports of its RAM, and its descriptors -/

namespace Sys2Proof.Fabric

open Sys2Proof Sys2Proof.Machine Sys2Proof.Descriptors

/-! #### Events -/

/-- Settles O20: an edge, an access of port A and a clock restart, each by the branch that its cause selects. -/
theorem fabricEventsTakeEffect : Obligations.FabricEventsTakeEffect := by
  refine ⟨?_, ?_, ?_⟩
  · intro t ks rising broken s edges
    have some_ : (edgeClocks s t ks rising).isEmpty = false := by simpa using edges
    simp only [exec, execFabricClockEdge, some_, Bool.false_eq_true, if_false]
  · intro t q ups meets broken p s s0 taken
    simp only [exec, execFabricRamPortAAccess]
    rw [show mfind (getTile (modFab s t fun y => ramUpset y q ups) t).fab.portA q = some p from taken] <;> rfl
  · intro t k q s held
    simp only [exec, execFabricClockRestart, restartClock, held, Option.isSome_some, if_true, fclkKHz]

/-! #### Port A of a RAM block -/

section
variable {t q : Nat} {s : State}

theorem getTile_post (u : State) (code src b0 b1 w v : Nat) : getTile (post u code src b0 b1 w) v = getTile u v := rfl

theorem postTile_works (works : (getTile s t).ctl.restarting = false) (code src b0 b1 w : Nat) :
    postTile s t code src b0 b1 w = post s code src b0 b1 w := by
  simp [postTile, works]

/-- What a read through port A leaves: its read data, its parity flag, and counts and postings of a parity failure. -/
theorem portARead_tile (works : (getTile s t).ctl.restarting = false) (row data : Nat) (bad : Bool) :
    ∃ fab, getTile (portARead s t q row data bad) t = { getTile s t with fab := fab } ∧
      mget 0 fab.readData q = BitVec.ofNat 32 data ∧ fab.ram = (getTile s t).fab.ram ∧ fab.ffs = (getTile s t).fab.ffs ∧
      (portARead s t q row data bad).dev = s.dev ∧ (portARead s t q row data bad).cases = s.cases := by
  unfold portARead
  extract_lets s1
  have tile : getTile s1 t = { getTile s t with fab := { (getTile s t).fab with
      readData := mset (getTile s t).fab.readData q (BitVec.ofNat 32 data),
      parityFlag := setBit (getTile s t).fab.parityFlag q bad } } := getTile_modFab_self _ _ _
  split
  · unfold ramParityFail
    rw [postTile_works (by rw [getTile_modFab_self, tile]; exact works)]
    rw [getTile_post, getTile_modFab_self, tile]
    exact ⟨_, rfl, mget_mset_self _ _ _ _, rfl, rfl, rfl, rfl⟩
  · exact ⟨_, tile, mget_mset_self _ _ _ _, rfl, rfl, rfl, rfl⟩

/-- An access of port A that meets no port B write. -/
theorem portAAccess_alone (works : (getTile s t).ctl.restarting = false) (p : PortA) :
    let x := getTile s t
    let w := ramWidth x q
    let u := portAAccess s t q p false
    ∃ fab, getTile u t = { x with fab := fab } ∧
      mget 0 fab.readData q = BitVec.ofNat 32 (ramBits x.fab.ram q (p.addr.toNat % (32768 / w) * w) w) ∧
      ((p.we = false ∨ x.fab.writesOn = false) → fab.ram = x.fab.ram) ∧ fab.ffs = x.fab.ffs ∧ u.dev = s.dev ∧ u.cases = s.cases := by
  intro x w u
  obtain ⟨fab, tile, data, ram, ffs, dev, cases_⟩ := portARead_tile (q := q) works
    (p.addr.toNat % (32768 / w) * w / 32) (ramBits x.fab.ram q (p.addr.toNat % (32768 / w) * w) w)
    ((ramTouched q (p.addr.toNat % (32768 / w) * w) w).any fun b => x.fab.badParity.contains b)
  cases writes : p.we && x.fab.writesOn with
  | false =>
    have read : u = portARead s t q (p.addr.toNat % (32768 / w) * w / 32) (ramBits x.fab.ram q (p.addr.toNat % (32768 / w) * w) w)
        ((ramTouched q (p.addr.toNat % (32768 / w) * w) w).any fun b => x.fab.badParity.contains b) := by
      simp only [u, portAAccess, Bool.false_and, Bool.false_eq_true, if_false]
      rw [show (p.we && (getTile s t).fab.writesOn) = false from writes]
      rfl
    rw [read]
    exact ⟨fab, tile, data, fun _ => ram, ffs, dev, cases_⟩
  | true =>
    have write : u = portAWrite (portARead s t q (p.addr.toNat % (32768 / w) * w / 32)
        (ramBits x.fab.ram q (p.addr.toNat % (32768 / w) * w) w)
        ((ramTouched q (p.addr.toNat % (32768 / w) * w) w).any fun b => x.fab.badParity.contains b)) t q
        (p.addr.toNat % (32768 / w)) p.din.toNat := by
      simp only [u, portAAccess, Bool.false_and, Bool.false_eq_true, if_false]
      rw [show (p.we && (getTile s t).fab.writesOn) = true from writes]
      rfl
    rw [write, portAWrite, getTile_modFab_self, tile]
    refine ⟨_, rfl, data, fun off => ?_, ffs, dev, cases_⟩
    rw [Bool.and_eq_true] at writes
    rcases off with h | h
    · exact absurd (h.symm.trans writes.1) Bool.false_ne_true
    · exact absurd (h.symm.trans writes.2) Bool.false_ne_true

end

/-! #### Port B of a RAM block -/

section
variable (s : State) (t : Nat) (p : PortB)

theorem portBRow_rest : (portBRow s t p).2.pos = p.pos + min p.left (4 - p.pos % 4) ∧
    (portBRow s t p).2.left = p.left - min p.left (4 - p.pos % 4) ∧ (portBRow s t p).2.req = p.req ∧
    (portBRow s t p).2.write = p.write := by
  unfold portBRow
  extract_lets y n row a rest
  split <;> exact ⟨rfl, rfl, rfl, rfl⟩

theorem portBRow_write (write : p.write = true) :
    let n := min p.left (4 - p.pos % 4)
    let first := 4096 * p.block + p.pos
    (getTile (portBRow s t p).1 t).fab.ram = memPuts zeroes (getTile s t).fab.ram first (p.data.take n) ∧
      (∀ v : Nat, v ≠ t → getTile (portBRow s t p).1 v = getTile s v) ∧
      (portBRow s t p).2 = { p with pos := p.pos + n, left := p.left - n, data := p.data.drop n } := by
  intro n first
  unfold portBRow
  simp only [write, if_true, getTile_modFab_self]
  exact ⟨rfl, fun v hv => getTile_modFab_ne s _ hv, rfl⟩

end

/-- Settles O21: port A by `portAAccess_alone`, a row of port B by `portBRow_write`, the last row by the length that is left. -/
theorem fabricRamPorts : Obligations.FabricRamPorts := by
  refine ⟨?_, ?_, ?_⟩
  · intro t q p s works x w a u
    obtain ⟨fab, tile, data, ram, ffs, dev, cases_⟩ := portAAccess_alone (q := q) works p
    rw [show getTile u t = _ from tile]
    exact ⟨data, ram, rfl, rfl, ffs, dev, cases_⟩
  · intro t a p s write n first u
    obtain ⟨ram, others, rest⟩ := portBRow_write s t p write
    refine ⟨fun outside => ?_, fun wf i low given => ?_, others, rest⟩
    · rw [show (getTile u t).fab.ram = _ from ram]
      exact Stores.memGet_memPuts_outside _ _ _ _ _ (by rw [List.length_take]; omega)
    · have length : i < (p.data.take n).length := by rw [List.length_take]; omega
      rw [show (getTile u t).fab.ram = _ from ram, Stores.memGet_memPuts_inside _ _ wf _ _ _ length, List.getElem_take,
        List.getD_eq_getElem?_getD, List.getElem?_eq_getElem given]
      rfl
  · intro t p s only m
    obtain ⟨pos, left, req, write⟩ := portBRow_rest s t p
    refine ⟨fun more => ?_, fun last q hq => ?_⟩
    · have some_ : ¬ (portBRow s t p).2.left = 0 := by omega
      simp only [portBStep, only, some_, if_false]
      rfl
    · have none_ : (portBRow s t p).2.left = 0 := by omega
      have step : portBStep s t = portBDone (modFab m.1 t (fun y => { y with portB := [] })) m.2 := by
        simp only [portBStep, only, none_, if_true]
        rfl
      intro done
      rw [step, portBDone, show m.2.req = some q from req.trans hq]
      refine ⟨fun writes => ?_, fun reads ok => ?_⟩
      · simp only [show m.2.write = true from write.trans writes, if_true]
        rfl
      · simp only [show m.2.write = false from write.trans reads, ok, Bool.false_eq_true, if_false, if_true]
        rfl

/-! #### Descriptors -/

section
variable {q : Req} {k : Casement} {s : State} (names : NamesTile q k)
include names

theorem fabricRamReadBody_serves (h : Serves q .peek (some (dByte q.d 28)) k s) (good : badRamFields q = false) :
    fabricRamReadBody q s = (.later, portBQueue s (dByte q.d 28)
      { req := some q, write := false, block := dByte q.d 29, pos := dW16 q.d 32, left := dW16 q.d 34, data := [] }) :=
  checked_pass (by rw [firstOf_append (r59Tile_pass h names), firstOf_cons_false good]; rfl)

theorem fabricRamWriteBody_serves (h : Serves q .poke (some (dByte q.d 28)) k s) (good : badRamFields q = false)
    (ok : q.io.bufOk = true) : fabricRamWriteBody q s = (.later, portBQueue s (dByte q.d 28)
      { req := some q, write := true, block := dByte q.d 29, pos := dW16 q.d 32, left := dW16 q.d 34,
        data := padTo (dW16 q.d 34) (q.io.dataA.take (dW16 q.d 34)) }) := by
  unfold fabricRamWriteBody
  rw [checked_pass (by rw [firstOf_append (r59Tile_pass h names), firstOf_cons_false good]; rfl), if_pos ok]

theorem fabricStatusBody_serves (h : Serves q .peek (some (dByte q.d 28)) k s) (good : dirty shFabStatus q = false)
    (long : 64 ≤ q.d.length.toNat) (ok : q.io.bufOk = true) : fabricStatusBody q s =
      let copied := hostWrite s q.host q.d.addrA (fabricStatusBytes (getTile s (dByte q.d 28)))
      (.done .ok 0, if (dByte q.d 29).testBit 0 then modFab copied (dByte q.d 28)
        (fun y => { y with parityCount := 0, collisions := 0, scanPasses := 0, upsets := 0 }) else copied) := by
  unfold fabricStatusBody
  rw [checked_pass (by rw [firstOf_append (r59Tile_pass h names), firstOf_cons_false (by rw [good, short_false long]; rfl)]; rfl)]
  simp only [replyCopy_ok ok, ok, Bool.true_and, bitAt]
  split <;> rfl

theorem fabricClockBody_serves (h : Serves q .poke (some (dByte q.d 28)) k s) (good : dirty shFabClock q = false)
    (clock : dByte q.d 29 ≤ 3) (ratio : badFclk (dByte q.d 30) (dByte q.d 31) = false)
    (used : (fclkWord (getTile s (dByte q.d 28)) (dByte q.d 29)).testBit 16 = true) : fabricClockBody q s =
      (.later, if (getTile s (dByte q.d 28)).fab.clkHold.isEmpty then holdClock (markChanged s (dCase q.d)) q
        else modFab (markChanged s (dCase q.d)) (dByte q.d 28) (fun y => { y with clkWait := y.clkWait ++ [q] })) := by
  have low : ¬ 3 < dByte q.d 29 := by omega
  unfold fabricClockBody
  rw [checked_pass (by
    rw [firstOf_append (r59Tile_pass h names), firstOf_cons_false (by simp only [good, low, ratio, used, bitAt]; rfl)]; rfl)]
  simp only [markChanged, getTile_modDev]
  exact (apply_ite (Prod.mk Reply.later) _ _ _).symm

end

/-- Settles O22: what each descriptor's body answers. -/
theorem fabricDescriptorsTakeEffect : Obligations.FabricDescriptorsTakeEffect := by
  intro q s0 s k begins names t
  refine ⟨fun h good op => ?_, fun h good ok op => ?_, ?_, fun h good clock ratio used => ⟨fun free op => ?_, fun busy op => ?_⟩⟩
  · exact next_later begins op (by decide) (fabricRamReadBody_serves names h good)
  · exact next_later begins op (by decide) (fabricRamWriteBody_serves names h good ok)
  · intro h good long ok copied
    have body := fabricStatusBody_serves names h good long ok
    refine ⟨fun keep op => ?_, fun clear op => ?_⟩
    · rw [keep] at body
      exact next_done begins op (by decide) body (by decide)
    · rw [clear] at body
      exact next_done begins op (by decide) body (by decide)
  · have body := fabricClockBody_serves names h good clock ratio used
    rw [free] at body
    exact next_later begins op (by decide) body
  · have body := fabricClockBody_serves names h good clock ratio used
    rw [if_neg (by simpa using busy)] at body
    exact next_later begins op (by decide) body

end Sys2Proof.Fabric
end

section
/-! ### Pins: events and descriptors -/

namespace Sys2Proof.Pins

open Sys2Proof Sys2Proof.Machine Sys2Proof.Descriptors

/-! #### Events -/

theorem getLsbD_recBits (w : BitVec 32) (lo n i : Nat) (h : i < n) :
    (BitVec.ofNat n (recBits w.toNat lo n)).getLsbD i = w.getLsbD (lo + i) := by
  simp only [recBits, bitsOf, BitVec.getLsbD_ofNat, h, Nat.testBit_mod_two_pow, Nat.testBit_div_two_pow, BitVec.testBit_toNat,
    decide_true, Bool.true_and, Nat.add_comm]

/-- A masked store into a latch, bit by bit. -/
theorem getLsbD_masked (v m o : BitVec 12) (n : Nat) (h : n < 12) :
    ((v &&& ~~~m) ||| (o &&& m)).getLsbD n = if m.getLsbD n then o.getLsbD n else v.getLsbD n := by
  simp only [BitVec.getLsbD_or, BitVec.getLsbD_and, BitVec.getLsbD_not, h, decide_true, Bool.true_and]
  cases m.getLsbD n <;> simp

section
variable {t : TileId} {w : BitVec 32} {p : BitVec 11} {s : State}

/-- A lock write whose key and pin are those of a step of the sequence, and one that is of neither step. -/
theorem pinLockWrite_first (key : w.toNat % 2 ^ 16 = 0x5A5A) (names : bitsOf w.toNat 16 11 = p.toNat) (exists_ : p.toNat < 1728)
    (own : pinTile p.toNat = t.val) : exec (.pinLockWrite t w) s = .next (modPin s t (fun y => { y with lockSeq := some p })) := by
  have first : recBits w.toNat 0 16 = 0x5A5A := by simpa [recBits, bitsOf] using key
  have pin : recBits w.toNat 16 11 = p.toNat := names
  simp [exec, execPinLockWrite, first, pin, exists_, own]

theorem pinLockWrite_second (key : w.toNat % 2 ^ 16 = 0xA5A5) (names : bitsOf w.toNat 16 11 = p.toNat) (exists_ : p.toNat < 1728)
    (own : pinTile p.toNat = t.val) (begun : (getTile s t).pin.lockSeq = some p) (open_ : pinLocked s p.toNat = false) :
    exec (.pinLockWrite t w) s = .next (lockPin (modPin s t (fun y => { y with lockSeq := none })) p.toNat) := by
  have second : recBits w.toNat 0 16 = 0xA5A5 := by simpa [recBits, bitsOf] using key
  have pin : recBits w.toNat 16 11 = p.toNat := names
  simp [exec, execPinLockWrite, second, pin, exists_, own, begun, open_]

theorem pinLockWrite_other (key : w.toNat % 2 ^ 16 ≠ 0x5A5A)
    (other : (getTile s t).pin.lockSeq ≠ some (BitVec.ofNat 11 (bitsOf w.toNat 16 11))) :
    exec (.pinLockWrite t w) s = .next (modPin s t (fun y => { y with lockSeq := none })) := by
  have first : recBits w.toNat 0 16 ≠ 0x5A5A := by simpa [recBits, bitsOf] using key
  have seq : ((getTile s t).pin.lockSeq == some (BitVec.ofNat 11 (recBits w.toNat 16 11))) = false := by
    simpa [recBits] using other
  simp only [exec, execPinLockWrite, first, seq, decide_false, Bool.false_and, Bool.and_false, Bool.false_eq_true, if_false]

end

/-- Settles O23: a window store changes the latches bit by bit, a lock write takes the step that its key names. -/
theorem pinEventsTakeEffect : Obligations.PinEventsTakeEffect := by
  refine ⟨⟨fun _ _ _ => rfl, fun _ _ _ _ => rfl, ?_, ?_, ?_⟩, ?_⟩
  · intro t m w s
    refine ⟨_, rfl, fun n low => ?_, fun v hv => getTile_modPin_ne s _ hv, rfl, rfl, rfl⟩
    rw [getTile_modPin_self]
    have mask : BitVec.ofNat 12 m.toNat = m := by simp
    have level := getLsbD_recBits w 0 12 n low
    have enable := getLsbD_recBits w 16 12 n low
    refine ⟨?_, ?_⟩
    · rw [getLsbD_masked _ _ _ n low, mask, level, Nat.zero_add]
    · have bit : bitAt w.toNat 31 = w.getLsbD 31 := rfl
      simp only [bit]
      cases w.getLsbD 31 with
      | false => simp
      | true => simpa [mask, enable] using getLsbD_masked (getTile s t).pin.enLatch m (BitVec.ofNat 12 (recBits w.toNat 16 12)) n low
  · exact fun t w p s key names exists_ own => pinLockWrite_first key names exists_ own
  · exact fun t w p s key names exists_ own begun open_ => pinLockWrite_second key names exists_ own begun open_
  · exact fun t w s key other => pinLockWrite_other key other

/-! #### Descriptors -/

section
variable {q : Req} {k : Casement} {a : Access} {s : State}

theorem r59Pins_pass (h : Serves q a (some (dByte q.d 28)) k s) {mine : Bool} (own : mine = true) :
    firstOf (r59Pins q a mine s) = none := by
  rw [own]
  exact r59_pass h

theorem pinByte_of (tile : dByte q.d 28 < 96) (low : dByte q.d 29 < 12) : pinByte q = some (12 * dByte q.d 28 + dByte q.d 29) := by
  simp [pinByte, tile, pinIndex, low]

theorem minePin_of {p : Nat} (own : pinOf s p (dCase q.d) = true) : minePin q (some p) s = true := own

theorem pinWriteBody_serves (h : Serves q .poke (some (dByte q.d 28)) k s) (own : mineMask q s = true) (good : pinWriteBad q = false) :
    pinWriteBody q s = (.done .ok (edgeTime s).1.toNat,
      windowStore (edgeTime s).2 (dByte q.d 28) (dW16 q.d 30 % 4096) (dW32 q.d 32)) :=
  checked_pass (by rw [firstOf_append (r59Pins_pass h own), firstOf_cons_false good]; rfl)

theorem pinReadBody_serves (h : Serves q .peek (some (dByte q.d 28)) k s) (own : mineTile q s = true)
    (good : dirty shPinRead q = false) :
    pinReadBody q s = (.done .ok (pinReadResult s (dByte q.d 28)), { s with fresh := s.fresh + 1 }) :=
  checked_pass (by rw [firstOf_append (r59Pins_pass h own), firstOf_cons_false good]; rfl)

section
variable (h : Serves q .poke (some (dByte q.d 28)) k s) (tile : dByte q.d 28 < 96) (low : dByte q.d 29 < 12)
  (own : pinOf s (12 * dByte q.d 28 + dByte q.d 29) (dCase q.d) = true) (good : dirty shPinSetup q = false)
  (record : badPinRecord (dW32 q.d 32) (dW32 q.d 36) (dW32 q.d 40) = false)
  (slot : slotConflict (pairNow s) (dW32 q.d 32) (dW32 q.d 36) (dW32 q.d 40) = none)
include h tile low own good record slot

theorem pinSetupBody_open (open_ : pinLocked s (12 * dByte q.d 28 + dByte q.d 29) = false) :
    pinSetupBody q s = (.done .ok (edgeTime s).1.toNat, markChanged
      (changePin (edgeTime s).2 (12 * dByte q.d 28 + dByte q.d 29) (dW32 q.d 32) (dW32 q.d 36) (dW32 q.d 40)) (dCase q.d)) := by
  unfold pinSetupBody
  exact checked_pass (by
    rw [if_pos low, pinByte_of tile low, firstOf_append (r59Pins_pass h (minePin_of own)),
      firstOf_cons_false (by simp [good, record, slot]), firstOf_cons_false open_, firstOf_cons_false (by simp [slot])]; rfl)

theorem pinSetupBody_locked (locked : pinLocked s (12 * dByte q.d 28 + dByte q.d 29) = true) :
    pinSetupBody q s = (.done .locked 0, s) := by
  unfold pinSetupBody
  exact checked_fail (by
    rw [if_pos low, pinByte_of tile low, firstOf_append (r59Pins_pass h (minePin_of own)),
      firstOf_cons_false (by simp [good, record, slot]), firstOf, if_pos locked])

end

theorem pinLineBody_serves (h : Serves q .poke (some (dByte q.d 28)) k s) (own : mineLine q s = true)
    (good : dirty shPinLine q = false) (quad : dByte q.d 29 ≤ 15) (line : dByte q.d 30 ≤ 31)
    (word : badLineWord (dByte q.d 28) (dW32 q.d 32) = false) :
    pinLineBody q s = (.done .ok (edgeTime s).1.toNat, markChanged (settleFabric (edgeTime s).2
      (modTile (edgeTime s).2 (dByte q.d 28) (fun x =>
        cfgWrite x 0x18 (256 + 4 * (32 * dByte q.d 29 + dByte q.d 30)) 4 (dW32 q.d 32)))) (dCase q.d)) := by
  unfold pinLineBody
  exact checked_pass (by
    rw [firstOf_append (r59Pins_pass h own), firstOf_cons_false (by
      simp [good, word, show ¬ 15 < dByte q.d 29 by omega, show ¬ 31 < dByte q.d 30 by omega])]; rfl)

theorem pinLockBody_serves (h : Serves q .peek (some (dByte q.d 28)) k s) (tile : dByte q.d 28 < 96) (low : dByte q.d 29 < 12)
    (own : pinOf s (12 * dByte q.d 28 + dByte q.d 29) (dCase q.d) = true) (good : dirty shPinLock q = false)
    (open_ : lockClosed s (12 * dByte q.d 28 + dByte q.d 29) = false) :
    pinLockBody q s = if pinLocked s (12 * dByte q.d 28 + dByte q.d 29) then (.done .ok 1, s)
      else (.done .ok 0, lockPin s (12 * dByte q.d 28 + dByte q.d 29)) := by
  have pin := pinByte_of tile low
  unfold pinLockBody
  rw [checked_pass (by
    rw [pin, firstOf_append (r59Pins_pass h (minePin_of own)), firstOf_cons_false good]
    exact firstOf_cons_false open_)]
  rw [pin]
  rfl

theorem pinStatusBody_serves (h : Serves q .peek (some (dByte q.d 28)) k s) (own : mineTile q s = true)
    (good : dirty shTileCopy q = false) (long : 64 ≤ q.d.length.toNat) (ok : q.io.bufOk = true) :
    pinStatusBody q s = (.done .ok 0, hostWrite s q.host q.d.addrA (pinStatusBytes s (dByte q.d 28))) := by
  unfold pinStatusBody
  rw [checked_pass (by rw [firstOf_append (r59Pins_pass h own), firstOf_cons_false (by rw [good, short_false long]; rfl)]; rfl)]
  exact replyCopy_ok ok

end

/-- Settles O24: what each descriptor's body answers. -/
theorem pinDescriptorsTakeEffect : Obligations.PinDescriptorsTakeEffect := by
  constructor
  · intro q s0 s k begins tile t p
    refine ⟨fun h own good op => ?_, fun h own good op => ?_, fun h low own good record slot open_ op => ?_,
      fun h own good quad line word op => ?_, fun h low own good open_ => ⟨fun locked op => ?_, fun free op => ?_⟩,
      fun h own good long ok op => ?_⟩
    · exact next_done begins op (by decide) (pinWriteBody_serves h own good) (by decide)
    · exact next_done begins op (by decide) (pinReadBody_serves h own good) (by decide)
    · exact next_done begins op (by decide) (pinSetupBody_open h tile low own good record slot open_) (by decide)
    · exact next_done begins op (by decide) (pinLineBody_serves h own good quad line word) (by decide)
    · have body := pinLockBody_serves h tile low own good open_
      rw [if_pos locked] at body
      exact next_done begins op (by decide) body (by decide)
    · have body := pinLockBody_serves h tile low own good open_
      rw [if_neg (Bool.eq_false_iff.mp free)] at body
      exact next_done begins op (by decide) body (by decide)
    · exact next_done begins op (by decide) (pinStatusBody_serves h own good long ok) (by decide)
  · intro q s0 s k begins tile h low own good record slot locked op
    exact next_done begins op (by decide) (pinSetupBody_locked h tile low own good record slot locked) (by decide)

end Sys2Proof.Pins
end

section
/-! ### Analogue cells: events and descriptors -/

namespace Sys2Proof.Analog

open Sys2Proof Sys2Proof.Machine Sys2Proof.Descriptors

/-! #### Events -/

theorem refFlag_setRefFlag (x : Tile) (a : AnState) (l m : RefLevel) :
    refFlag { x with an := setRefFlag a l } m = (decide (m = l) || refFlag { x with an := a } m) := by
  cases l <;> cases m <;> rfl

/-- Settles O25: what each event writes where its cause is in the state. -/
theorem analogEventsTakeEffect : Obligations.AnalogEventsTakeEffect := by
  refine ⟨fun t o s closed => ?_, fun t l s on inRange => ?_, fun sec s => ?_, fun sec s was => ?_,
    fun t c r s front open_ => ?_, fun t c r s front closed => ?_⟩
  · simp [exec, execCurrentLimitExpiry, closed]
  · have ext : (l == .vrefExt && !s.dev.aref.getLsbD (sectorOf t.val)) = false := by
      by_cases e : l = .vrefExt
      · simp [inRange e]
      · simp [e]
    refine ⟨_, congrArg Host.Outcome.next (if_neg (by simp [on, ext])), ?_⟩
    rw [getTile_modTile_self]
    refine ⟨?_, fun m other => ?_, fun chosen => ?_, rfl, rfl, fun v hv => getTile_modTile_ne s _ hv, rfl, rfl, rfl, rfl⟩
    · cases l <;> rfl
    · exact (refFlag_setRefFlag (getTile s t) _ l m).trans (by rw [decide_eq_false other, Bool.false_or])
    · simp [chosen]
  · simp [exec, execArefRangeChange]
  · simp only [exec, execArefRangeChange, was, Bool.not_false, Bool.and_true, if_true]
  · refine ⟨_, rfl, ?_, fun v hv => getTile_modAn_ne s _ hv, rfl, rfl, rfl⟩
    rw [getTile_modAn_self]
    simp [front, onFirst, open_]
  · simp [exec, execAnOutClose, front, closed]

/-! #### Descriptors -/

section
variable {q : Req} {k : Casement} {s : State}

theorem anCellSetBody_serves (h : Serves q .poke (some (dByte q.d 28)) k s) (names : NamesTile q k)
    (good : dirty shAnCell q = false) (cell : dByte q.d 29 ≤ 7) (record : badCellRecord (dByte q.d 29) (dBits q.d 32 12) = false)
    (free : driverConflict s (dByte q.d 28) (writeCell (getTile s (dByte q.d 28)) (dByte q.d 29) (dBits q.d 32 12)) = false) :
    anCellSetBody q s = beginChange q (writeCell (getTile s (dByte q.d 28)) (dByte q.d 29) (dBits q.d 32 12)) s := by
  unfold anCellSetBody
  exact checked_pass (by
    rw [firstOf_append (r59Tile_pass h names), firstOf_cons_false (by simp [good, record, show ¬ 7 < dByte q.d 29 by omega]),
      firstOf_cons_false free]; rfl)

theorem anNetSetBody_serves (h : Serves q .poke (some (dByte q.d 28)) k s) (names : NamesTile q k)
    (good : dirty shAnNet q = false) (net : dByte q.d 29 ≤ 31) (record : dW32 q.d 32 < 64)
    (free : driverConflict s (dByte q.d 28) (cfgWrite (getTile s (dByte q.d 28)) 0x20 (96 + 4 * dByte q.d 29) 4 (dW32 q.d 32)) = false)
    (trunk : (bitAt (dW32 q.d 32) 2 &&
      trunkOther s (4 * sectorOf (dByte q.d 28) + recBits (dW32 q.d 32) 3 2) (dCase q.d).val) = false) :
    anNetSetBody q s = beginChange q (cfgWrite (getTile s (dByte q.d 28)) 0x20 (96 + 4 * dByte q.d 29) 4 (dW32 q.d 32))
      (if bitAt (dW32 q.d 32) 2
        then modDev s (fun d => { d with
          trunks := mset d.trunks (4 * sectorOf (dByte q.d 28) + recBits (dW32 q.d 32) 3 2) (dCase q.d) }) else s) := by
  unfold anNetSetBody
  exact checked_pass (by
    rw [firstOf_append (r59Tile_pass h names), firstOf_cons_false (by
      simp [good, show ¬ 31 < dByte q.d 29 by omega, show ¬ 64 ≤ dW32 q.d 32 by omega]), firstOf_cons_false trunk,
      firstOf_cons_false free]; rfl)

theorem anPinSetBody_serves (h : Serves q .poke (some (dByte q.d 28)) k s) (tile : dByte q.d 28 < 96) (pin : dByte q.d 29 < 6)
    (own : pinOf s (1152 + 6 * dByte q.d 28 + dByte q.d 29) (dCase q.d) = true)
    (net : dByte q.d 32 = 63 ∨ k.region.getLsbD (dByte q.d 28) = true) (good : dirty shAnPin q = false)
    (field : badNetField (dByte q.d 32) = false)
    (lock : pinLocked s (1152 + 6 * dByte q.d 28 + dByte q.d 29) = true →
      ainSelect (getTile s (dByte q.d 28)) (dByte q.d 29) = dByte q.d 32) :
    anPinSetBody q s = beginChange q (cfgWrite (getTile s (dByte q.d 28)) 0x18 (152 + dByte q.d 29) 1 (dByte q.d 32)) s := by
  have mine : (dByte q.d 32 == 63 || tileInside q (dByte q.d 28) s) = true := by
    rcases net with none_ | inside
    · simp [none_]
    · simp [tileInside_of_names h.1 ⟨tile, inside⟩]
  have inside : (decide (dByte q.d 28 < 96) && decide (dByte q.d 29 < 6) &&
      pinOf s (1152 + 6 * dByte q.d 28 + dByte q.d 29) (dCase q.d).val &&
      (dByte q.d 32 == 63 || tileInside q (dByte q.d 28) s)) = true := by
    rw [mine, own, decide_eq_true tile, decide_eq_true pin]
    rfl
  have open_ : (pinLocked s (1152 + 6 * dByte q.d 28 + dByte q.d 29) &&
      ainSelect (getTile s (dByte q.d 28)) (dByte q.d 29) != dByte q.d 32) = false := by
    cases held : pinLocked s (1152 + 6 * dByte q.d 28 + dByte q.d 29) with
    | false => rfl
    | true => simp [lock held]
  unfold anPinSetBody
  refine checked_pass ?_
  rw [inside, firstOf_append (r59_pass h), firstOf_cons_false (by simp [good, field]), firstOf_cons_false open_]
  rfl

theorem anStatusBody_serves (h : Serves q .peek (some (dByte q.d 28)) k s) (names : NamesTile q k)
    (good : dirty shTileCopy q = false) (long : 256 ≤ q.d.length.toNat) (ok : q.io.bufOk = true) :
    anStatusBody q s = (.done .ok 0, hostWrite s q.host q.d.addrA (anStatusBytes s (dByte q.d 28))) := by
  unfold anStatusBody
  rw [checked_pass (by
    rw [firstOf_append (r59Tile_pass h names), firstOf_cons_false (by rw [good, short_false long]; rfl)]; rfl)]
  exact replyCopy_ok ok

end

/-- Settles O26: each set-up begins the change of the cells that it writes, and the status is copied. -/
theorem analogDescriptorsTakeEffect : Obligations.AnalogDescriptorsTakeEffect := by
  intro q s0 s k begins tile t x began
  refine ⟨fun inside h good cell record free op => ?_, fun inside h good net record free => ⟨fun own op => ?_, fun trunk free_ op => ?_⟩,
    fun h pin own net good field lock op => ?_, fun inside h good long ok op => ?_⟩
  · exact next_later begins op (by decide) (anCellSetBody_serves h ⟨tile, inside⟩ good cell record free) 
  · have body := anNetSetBody_serves h ⟨tile, inside⟩ good net record free (by simp only [bitAt, own, Bool.false_and])
    rw [if_neg (by simp only [bitAt, own]; decide)] at body
    exact next_later begins op (by decide) body
  · have body := anNetSetBody_serves h ⟨tile, inside⟩ good net record free (by rw [free_, Bool.and_false])
    rw [if_pos (show bitAt (dW32 q.d 32) 2 = true from trunk)] at body
    exact next_later begins op (by decide) body
  · exact next_later begins op (by decide) (anPinSetBody_serves h tile pin own net good field lock)
  · exact next_done begins op (by decide) (anStatusBody_serves h ⟨tile, inside⟩ good long ok) (by decide)

end Sys2Proof.Analog
end

section
/-! ### Comparators and timers -/

namespace Sys2Proof.ComparatorTimers

open Sys2Proof Sys2Proof.Machine Sys2Proof.Descriptors

/-! #### A timer wrap where the list of tiles is out of order

A wrap writes its tile back before it counts on, even where no set-up waits. In a list of tiles that is not in order this adds
an entry, so that a pin of the tile is found twice and no longer drives a timer input. The state below has such a list: timer 0
of tile 3 wraps, and timer 1 counts an edge of its input by the statement, and none by the model. -/

/-- Timer 0 in mode 3 with COMPARE 1 and PERIOD 0; timer 1 counts both edges of input 0, which pin 0 of the tile drives. -/
def twoTimers : Tile :=
  let x := cfgWrite (cfgWrite (cfgWrite (cfgWrite Tile.cold 0x22 128 4 3) 0x22 136 4 1) 0x22 144 4 1796) 0x18 8 4 897
  { x with
    ct := { x.ct with tmrs := [(0, { Tmr.cold with running := true })] }
    dom := { x.dom with lf := .on }
    pin := { x.pin with released := 1, board := [(0, .level true true)] } }

def outOfOrder : State :=
  { State.reset with
    dev := { Device.cold with now := 100, fullUp := true, pinCase := [(36, 0)] }
    tiles := [(5, Tile.cold), (3, twoTimers)] }

def wrappedByStatement : State :=
  timerTrigger (changeTmr outOfOrder 3 0 (fun m =>
    { countedTo outOfOrder 3 (tmPeriod (getTile outOfOrder 3) 0 + 1) m 0 with hit := false, out := true })) 3 0 true

theorem outOfOrder_wraps : tmTicks outOfOrder 3 0 = true ∧ compareDue outOfOrder 3 0 = false ∧
    tmReached outOfOrder 3 0 (tmPeriod (getTile outOfOrder 3) 0 + 1) = true := by decide +kernel

theorem outOfOrder_set_up : (getTmr (getTile outOfOrder 3) 0).next = none ∧ tmMode (getTile outOfOrder 3) 0 = 3 ∧
    tmCmp (getTile outOfOrder 3) 0 ≠ 0 := by decide +kernel

theorem edges_wrapTmr_outOfOrder : (getTile (wrapTmr outOfOrder 3 0) 3).edges = [] := by decide +kernel

theorem edges_wrappedByStatement : (getTile wrappedByStatement 3).edges ≠ [] := by decide +kernel

theorem exec_timerWrap_outOfOrder : exec (.timerWrap 3 0) outOfOrder = .next (wrapTmr outOfOrder 3 0) := by
  obtain ⟨ticks, notDue, reached⟩ := outOfOrder_wraps
  obtain ⟨_, mode, _⟩ := outOfOrder_set_up
  exact congrArg Host.Outcome.next ((if_pos (by
    show (tmTicks outOfOrder 3 0 && (tmMode (getTile outOfOrder 3) 0 = 1 || tmMode (getTile outOfOrder 3) 0 = 3 ||
      tmMode (getTile outOfOrder 3) 0 = 4) && tmReached outOfOrder 3 0 (tmPeriod (getTile outOfOrder 3) 0 + 1)) = true
    rw [ticks, mode, reached]; rfl)).trans (congrArg (fun s => wrapTmr s 3 0) (if_neg (Bool.eq_false_iff.mp notDue))))

/-- Refutes O28: the wrap of a timer in mode 3, in a state whose list of tiles is out of order. -/
theorem not_comparatorTimerEventsTakeEffect : ¬ Obligations.ComparatorTimerEventsTakeEffect := by
  intro h
  obtain ⟨_, _, _, wrap, _⟩ := h
  obtain ⟨ticks, notDue, reached⟩ := outOfOrder_wraps
  obtain ⟨next, mode, compare_⟩ := outOfOrder_set_up
  have claim : exec (.timerWrap 3 0) outOfOrder = .next wrappedByStatement :=
    (wrap 3 0 outOfOrder ticks notDue reached next).2.1 mode compare_
  rw [exec_timerWrap_outOfOrder] at claim
  have same : wrapTmr outOfOrder 3 0 = wrappedByStatement := Host.Outcome.next.inj claim
  exact edges_wrappedByStatement (same ▸ edges_wrapTmr_outOfOrder)

/-! #### Descriptors -/

section
variable {q : Req} {k : Casement} {s : State}

theorem inside_unit (h : getCase s (dCase q.d) = some k) (names : NamesTile q k) {n : Nat} (unit : dByte q.d 29 < n) :
    (tileInside q (dByte q.d 28) s && decide (dByte q.d 29 < n)) = true := by
  rw [tileInside_of_names h names, decide_eq_true unit]
  rfl

theorem cmpSetBody_serves (h : Serves q .poke (some (dByte q.d 28)) k s) (names : NamesTile q k) (unit : dByte q.d 29 < 16)
    (input : cmpInputOk q (dW32 q.d 32) s = true) (good : dirty shCmpSet q = false)
    (record : badCmpRecord (dW32 q.d 32) (dW32 q.d 36) = false) :
    cmpSetBody q s = (.done .ok (edgeTime s).1.toNat,
      markChanged (changeCmp (edgeTime s).2 (dByte q.d 28) (dByte q.d 29) (dW32 q.d 32) (dW32 q.d 36)) (dCase q.d)) := by
  unfold cmpSetBody
  exact checked_pass (by
    rw [inside_unit h.1 names unit, input, Bool.and_true, firstOf_append (r59_pass h), firstOf_cons_false (by simp [good, record])]
    rfl)

theorem cmpEvbindBody_serves (h : Serves q .poke (some (dByte q.d 28)) k s) (names : NamesTile q k) (unit : dByte q.d 29 < 16)
    (good : dirty shCmpEv q = false) {r : Ring} (ring : mfind s.hif.rings (dW16 q.d 32) = some r) (own : r.owner = q.host)
    (kind : r.kind = .event) :
    cmpEvbindBody q s = (.done .ok 0, markChanged (modCmp s (dByte q.d 28) (dByte q.d 29) (fun y => { y with
      bound := if bitAt (dByte q.d 30) 0 then some (BitVec.ofNat 16 (dW16 q.d 32)) else none, held := none })) (dCase q.d)) := by
  unfold cmpEvbindBody
  exact checked_pass (by
    rw [inside_unit h.1 names unit, firstOf_append (r59_pass h), firstOf_cons_false good, firstOf_cons_false (by simp [ring, own]),
      firstOf_cons_false (by simp [ring, kind])]
    rfl)

theorem cmpCheckBody_serves (h : Serves q .poke (some (dByte q.d 28)) k s) (names : NamesTile q k) (unit : dByte q.d 29 < 16)
    (good : dirty shCmpCheck q = false) (check : badCheck (getTile s (dByte q.d 28)) (dByte q.d 29) (dByte q.d 30) = false)
    (idle : (getCmp (getTile s (dByte q.d 28)) (dByte q.d 29)).check = none) :
    cmpCheckBody q s = (.later, modCmp s (dByte q.d 28) (dByte q.d 29) (fun c => { c with check := some (q, c.d) })) := by
  unfold cmpCheckBody
  exact checked_pass (by
    rw [inside_unit h.1 names unit, firstOf_append (r59_pass h), firstOf_cons_false (by simp [good, check]),
      firstOf_cons_false (by simp [idle])]
    rfl)

theorem tmSetBody_serves (h : Serves q .poke (some (dByte q.d 28)) k s) (names : NamesTile q k) (unit : dByte q.d 29 < 8)
    (good : dirty shTmSet q = false) (record : badTmRecord (dByte q.d 29) (dW32 q.d 32) = false) :
    tmSetBody q s = (.done .ok (edgeTime s).1.toNat, markChanged
      (changeTm (edgeTime s).2 (dByte q.d 28) (dByte q.d 29) (dW32 q.d 32) (dW32 q.d 36) (dW32 q.d 40)) (dCase q.d)) := by
  unfold tmSetBody
  exact checked_pass (by
    rw [inside_unit h.1 names unit, firstOf_append (r59_pass h), firstOf_cons_false (by simp [good, record])]; rfl)

theorem tmArmBody_serves (h : Serves q .poke (some (dByte q.d 28)) k s) (names : NamesTile q k) (unit : dByte q.d 29 < 8)
    (good : dirty shTmArm q = false) :
    tmArmBody q s = (.done .ok (edgeTime s).1.toNat, if bitAt (dByte q.d 30) 0
      then startTmr (edgeTime s).2 (dByte q.d 28) (dByte q.d 29) else stopTmr (edgeTime s).2 (dByte q.d 28) (dByte q.d 29)) := by
  unfold tmArmBody
  exact checked_pass (by rw [inside_unit h.1 names unit, firstOf_append (r59_pass h), firstOf_cons_false good]; rfl)

theorem tmReadBody_serves (h : Serves q .peek (some (dByte q.d 28)) k s) (names : NamesTile q k) (unit : dByte q.d 29 < 8)
    (good : dirty shTmRead q = false) (some_ : 1 ≤ dByte q.d 30) (last : dByte q.d 29 + dByte q.d 30 ≤ 8)
    (long : 16 * dByte q.d 30 ≤ q.d.length.toNat) (ok : q.io.bufOk = true) :
    tmReadBody q s = (.done .ok (dByte q.d 30), hostWrite s q.host q.d.addrA
      ((List.range (dByte q.d 30)).flatMap (fun i => tmBytes s (dByte q.d 28) (dByte q.d 29 + i)))) := by
  unfold tmReadBody
  rw [checked_pass (by
    rw [inside_unit h.1 names unit, firstOf_append (r59_pass h), firstOf_cons_false (by
      simp [good, short_false long, show ¬ dByte q.d 30 < 1 by omega, show ¬ 8 < dByte q.d 29 + dByte q.d 30 by omega])]
    rfl)]
  exact replyCopy_ok ok

theorem ctStatusBody_serves (h : Serves q .peek (some (dByte q.d 28)) k s) (names : NamesTile q k)
    (good : dirty shTileCopy q = false) (long : 64 ≤ q.d.length.toNat) (ok : q.io.bufOk = true) :
    ctStatusBody q s = (.done .ok 0, hostWrite s q.host q.d.addrA (ctStatusBytes (getTile s (dByte q.d 28)))) := by
  unfold ctStatusBody
  rw [checked_pass (by
    rw [firstOf_append (r59Tile_pass h names), firstOf_cons_false (by rw [good, short_false long]; rfl)]; rfl)]
  exact replyCopy_ok ok

end

/-- Settles O29: what each descriptor's body answers. -/
theorem comparatorTimerDescriptorsTakeEffect : Obligations.ComparatorTimerDescriptorsTakeEffect := by
  intro q s0 s c begins names t k
  refine ⟨fun h unit input good record op => ?_, fun r h unit good ring own kind op => ?_, fun h unit good check idle op => ?_,
    fun h unit good record op => ?_, fun h unit good op => ?_, fun h unit good some_ last long ok op => ?_,
    fun h good long ok op => ?_⟩
  · exact next_done begins op (by decide) (cmpSetBody_serves h names unit input good record) (by decide)
  · exact next_done begins op (by decide) (cmpEvbindBody_serves h names unit good ring own kind) (by decide)
  · exact next_later begins op (by decide) (cmpCheckBody_serves h names unit good check idle)
  · exact next_done begins op (by decide) (tmSetBody_serves h names unit good record) (by decide)
  · exact next_done begins op (by decide) (tmArmBody_serves h names unit good) (by decide)
  · exact next_done begins op (by decide) (tmReadBody_serves h names unit good some_ last long ok) (by decide)
  · exact next_done begins op (by decide) (ctStatusBody_serves h names good long ok) (by decide)

end Sys2Proof.ComparatorTimers
end

section
/-! ### Converters -/

namespace Sys2Proof.Converters

open Sys2Proof Sys2Proof.Machine Sys2Proof.Descriptors

/-! #### Events -/

theorem units_countIssue (x : Tile) (f : ConvFor) : (countIssue x f).accs = x.cv.accs ∧ (countIssue x f).trks = x.cv.trks := by
  cases f <;> exact ⟨rfl, rfl⟩

theorem cvRequest_free {s : State} {t j : Nat} (free : (getTile s t).cv.injPending.getLsbD j = false) (idle : (getTile s t).cv.inj = none) :
    cvRequest s t j = (false, cvPump (modCv s t (fun v => { v with injPending := setBit v.injPending j true })) t) := by
  simp only [cvRequest, free, idle, Bool.or_false, Bool.false_eq_true, if_false]

theorem getTile_dropEdge_cv (s : State) (t : Nat) (n : EdgeNote) : (getTile (dropEdge s t n) t).cv = (getTile s t).cv := by
  simp [dropEdge]

/-- Settles O30: what each event does where its cause is in the state. -/
theorem converterEventsTakeEffect : Obligations.ConverterEventsTakeEffect := by
  refine ⟨fun t s delay awake => ?_, fun t f r i k s on awake conv slice => ?_, fun t k w e c s awake found for_ ref now => ?_,
    fun t j n s on awake due armed free idle => ?_, fun t a n s on awake due armed => ?_⟩
  · simp [exec, execTriggerDelayExpiry, delay, awake]
  · refine ⟨_, by
      simp only [exec, execConversionIssue, on, awake, conv, slice, Bool.not_true, Bool.or_self, Bool.false_eq_true, if_false]
      rfl, ?_⟩
    obtain ⟨accs, trks⟩ := units_countIssue (getTile s t) f
    rw [getTile_modCv_self]
    exact ⟨rfl, accs, trks, fun v hv => getTile_modCv_ne s _ hv, rfl, rfl, rfl, rfl⟩
  · have entry : (ConvFor.entry e == ConvFor.capture) = false := rfl
    simp only [exec, execConversionComplete, awake, Bool.not_false, Bool.and_true, found, for_,
      ref, now, entry, Bool.false_eq_true, if_false]
  · have free' : (getTile (dropEdge s t n) t).cv.injPending.getLsbD j = false := by rw [getTile_dropEdge_cv]; exact free
    have idle' : (getTile (dropEdge s t n) t).cv.inj = none := by rw [getTile_dropEdge_cv]; exact idle
    have source : bitAt (cvSlotSource (getTile s t) j) 12 = true := armed
    simp only [exec, execInjSourceEdge, due, on, awake, source, Bool.not_true, Bool.or_self, Bool.false_eq_true, if_false, if_true,
      cvRequest_free free' idle']
  · have record : bitAt (accRec (getTile s t) a) 12 = true := armed
    simp only [exec, execAccSnapEdge, due, on, awake, record, Bool.not_true, Bool.or_self, Bool.false_eq_true, if_false, if_true]

/-! #### Merged results and snaps -/

theorem full_accMerge {a : AccSet} (room : a.full = false) (x : Nat) :
    (accMerge a x).full = true ↔ a.count.toNat = 16777214 := by
  simp only [accMerge, room, Bool.false_eq_true, if_false, beq_iff_eq]
  omega

theorem trkMerge_spec (k : TrkSet) {x : Nat} (code : x < 16384) :
    (trkMerge k x).min.toNat = min k.min.toNat x ∧ (trkMerge k x).max.toNat = max k.max.toNat x ∧
    (trkMerge k x).count.toNat = min 16777215 (k.count.toNat + 1) := by
  have low := k.min.isLt
  have high := k.max.isLt
  have count := k.count.isLt
  simp only [trkMerge, satAdd, BitVec.toNat_ofNat]
  omega

theorem getAcc_setAcc_self (x : Tile) (n : Nat) (a : Acc) : getAcc (setAcc x n a) n = a := mget_mset_self _ _ _ _

theorem getAcc_setAcc_ne (x : Tile) {m n : Nat} (a : Acc) (h : m ≠ n) : getAcc (setAcc x n a) m = getAcc x m :=
  mget_mset_ne _ _ _ _ _ h

theorem getTrk_setTrk_self (x : Tile) (n : Nat) (k : Trk) : getTrk (setTrk x n k) n = k := mget_mset_self _ _ _ _

theorem getTrk_setTrk_ne (x : Tile) {m n : Nat} (k : Trk) (h : m ≠ n) : getTrk (setTrk x n k) m = getTrk x m :=
  mget_mset_ne _ _ _ _ _ h

/-- The tile with both live sets of unit n moved into the snapshot sets. -/
def snapped (x : Tile) (n : Nat) (time : Time) : Tile :=
  setTrk (setAcc x n { live := AccSet.empty, snap := { (getAcc x n).live with time := time }, snapAt := some time })
    n { live := TrkSet.empty, snap := { (getTrk x n).live with time := time } }

section
variable {s : State} {t n : Nat} {time : Time}

theorem snapAcc_again (same : (getAcc (getTile s t) n).snapAt = some time) : snapAcc s t n time = s := by
  simp [snapAcc, same]

theorem snapAcc_first (fresh : (getAcc (getTile s t) n).snapAt ≠ some time)
    (kept : (getTile s t).cv.expMask.getLsbD n = false) : snapAcc s t n time = setTile s t (snapped (getTile s t) n time) := by
  have differs : ((getAcc (getTile s t) n).snapAt == some time) = false := by simpa using fresh
  simp only [snapAcc, differs, kept, Bool.false_eq_true, if_false]
  rfl

theorem snapAt_snapped (x : Tile) : (getAcc (snapped x n time) n).snapAt = some time :=
  congrArg Acc.snapAt (getAcc_setAcc_self x n _)

end

/-- Settles O32: the merges by their sums, a snap by the tile that it leaves. -/
theorem resultsMergeAndSnap : Obligations.ResultsMergeAndSnap := by
  refine ⟨⟨fun a x room code => ?_, fun a x full => if_pos full, fun k x code => trkMerge_spec k code⟩, fun s t n time kept => ?_⟩
  · have merged : accMerge a x = _ := if_neg (Bool.eq_false_iff.mp room)
    refine ⟨by rw [merged], by rw [merged, Nat.pow_two], by rw [merged], by rw [merged], full_accMerge room x⟩
  · refine ⟨fun fresh => ?_, ?_⟩
    · rw [snapAcc_first fresh kept, getTile_setTile_self]
      refine ⟨getAcc_setAcc_self _ n _, getTrk_setTrk_self _ n _, fun m other => ⟨?_, ?_⟩, rfl, fun u hu => getTile_setTile_ne s _ hu⟩
      · exact getAcc_setAcc_ne _ _ other
      · exact getTrk_setTrk_ne _ _ other
    · by_cases same : (getAcc (getTile s t) n).snapAt = some time
      · rw [snapAcc_again same, snapAcc_again same]
      · rw [snapAcc_first same kept]
        exact snapAcc_again (by rw [getTile_setTile_self]; exact snapAt_snapped _)

/-! #### Descriptors -/

section
variable {q : Req} {k : Casement} {s : State}

/-- A set-up of the shadow registers, which waits for its boundary. -/
theorem cvSetupBody_serves (h : Serves q .poke (some (dByte q.d 28)) k s) (names : NamesTile q k)
    (good : dirty shCvSetup q = false) (ctrl : badCvCtrl (dW32 q.d 32) = false) :
    cvSetupBody q s = shadowWait q (cfgWrite (getTile s (dByte q.d 28)) 0x21 0 4 (dW32 q.d 32)) s := by
  unfold cvSetupBody
  exact checked_pass (by rw [firstOf_append (r59Tile_pass h names), firstOf_cons_false (by simp [good, ctrl])]; rfl)

theorem cvSeqSetBody_serves (h : Serves q .poke (some (dByte q.d 28)) k s) (names : NamesTile q k)
    (good : dirty shCvSeq q = false) (first : dByte q.d 29 ≤ 15) (some_ : 1 ≤ dByte q.d 30)
    (last : dByte q.d 29 + dByte q.d 30 ≤ 16) (ok : q.io.bufOk = true) {y : Tile}
    (hy : y = cfgWrite (getTile s (dByte q.d 28)) 0x21 (8 + 8 * dByte q.d 29) (8 * dByte q.d 30)
      (leNat (q.io.dataA.take (8 * dByte q.d 30))))
    (entries : ∀ i : Nat, i < dByte q.d 30 → dirtyEntry (cvShadowEntry y (dByte q.d 29 + i)) = false)
    (table : badCvTable (cvShadowEntry y) = false) : cvSeqSetBody q s = shadowWait q y s := by
  have clean : ((List.range (dByte q.d 30)).map (fun i => cvShadowEntry y (dByte q.d 29 + i))).any dirtyEntry = false := by
    simpa using entries
  unfold cvSeqSetBody
  rw [checked_pass (by
    rw [firstOf_append (r59Tile_pass h names), firstOf_cons_false (by
      simp [good, show ¬ 15 < dByte q.d 29 by omega, show dByte q.d 30 ≠ 0 by omega,
        show ¬ 16 < dByte q.d 29 + dByte q.d 30 by omega])]
    rfl)]
  dsimp only
  rw [← hy, ok, clean, table]
  rfl

theorem cvInjSetBody_serves (h : Serves q .poke (some (dByte q.d 28)) k s) (names : NamesTile q k)
    (good : dirty shCvInjSet q = false) (slot : dByte q.d 29 ≤ 3) (record : badCvSlot (dW64 q.d 32) (dW16 q.d 40) = false)
    (idle : (getTile s (dByte q.d 28)).cv.inj = none) :
    cvInjSetBody q s = (.done .ok 0, markChanged (if (getTile s (dByte q.d 28)).cv.injPending.getLsbD (dByte q.d 29)
      then modCv s (dByte q.d 28) (fun v => { v with injChange := mset v.injChange (dByte q.d 29) q })
      else modTile s (dByte q.d 28) (fun x => cfgWrite x 0x21 (136 + 16 * dByte q.d 29) 10 (dBits q.d 32 10))) (dCase q.d)) := by
  unfold cvInjSetBody
  rw [checked_pass (by
    rw [firstOf_append (r59Tile_pass h names), firstOf_cons_false (by simp [good, record, show ¬ 3 < dByte q.d 29 by omega])]
    rfl)]
  dsimp only
  rw [idle, Bool.or_false]

theorem cvTrigger_starts {t : Nat} (on : (getTile s t).cv.on = true) (mode : cvMode (getTile s t) = 1)
    (free : capturing (getTile s t) = false) (latched : (getTile s t).cv.latched = false) (delay : (getTile s t).cv.delay = false)
    (idle : (getTile s t).cv.seq = none) : cvTrigger s t = (.taken, modCv s t (fun v => { v with delay := true })) := by
  simp [cvTrigger, on, mode, free, latched, delay, idle]

theorem cvStartBody_serves (h : Serves q .poke (some (dByte q.d 28)) k s) (names : NamesTile q k)
    (good : dirty shCvStart q = false)
    (starts : cvTrigger s (dByte q.d 28) = (.taken, modCv s (dByte q.d 28) (fun v => { v with delay := true }))) :
    cvStartBody q s = (.done .ok 0, modCv s (dByte q.d 28) (fun v => { v with delay := true })) := by
  unfold cvStartBody
  rw [checked_pass (by rw [firstOf_append (r59Tile_pass h names), firstOf_cons_false good]; rfl)]
  dsimp only
  rw [starts]

theorem cvInjectBody_serves (h : Serves q .poke (some (dByte q.d 28)) k s) (names : NamesTile q k)
    (good : dirty shCvInject q = false) (slot : dByte q.d 29 ≤ 3)
    (armed : bitAt (cvSlotSource (getTile s (dByte q.d 28)) (dByte q.d 29)) 12 = true)
    (free : capturing (getTile s (dByte q.d 28)) = false)
    (open_ : (getTile s (dByte q.d 28)).cv.injPending.getLsbD (dByte q.d 29) = false)
    (idle : (getTile s (dByte q.d 28)).cv.inj = none) :
    cvInjectBody q s = (.later, (cvRequest (modCv s (dByte q.d 28) (fun v =>
      { v with injWait := mset v.injWait (dByte q.d 29) q })) (dByte q.d 28) (dByte q.d 29)).2) := by
  unfold cvInjectBody
  rw [checked_pass (by
    rw [firstOf_append (r59Tile_pass h names), firstOf_cons_false (by simp [good, armed, show ¬ 3 < dByte q.d 29 by omega])]
    rfl)]
  dsimp only
  rw [open_, idle, free]
  rfl

theorem cvAccSetBody_serves (h : Serves q .poke (some (dByte q.d 28)) k s) (names : NamesTile q k)
    (good : dirty shCvAccSet q = false) (unit : dByte q.d 29 ≤ 31) (record : badAccRecord (dW64 q.d 32) = false) :
    cvAccSetBody q s = (.done .ok 0, markChanged (settleFabric s (modTile s (dByte q.d 28) (fun x =>
      cfgWrite x 0x21 (200 + 8 * dByte q.d 29) 8 (dW64 q.d 32)))) (dCase q.d)) := by
  unfold cvAccSetBody
  exact checked_pass (by
    rw [firstOf_append (r59Tile_pass h names), firstOf_cons_false (by simp [good, record, show ¬ 31 < dByte q.d 29 by omega])]
    rfl)

theorem read_snapshot (mode : dByte q.d 31 = 1) : readClear q = false ∧ readSnap q = true := by
  simp only [readClear, readSnap, mode]
  decide

theorem cvAccReadBody_serves (h : Serves q .peek (some (dByte q.d 28)) k s) (names : NamesTile q k) (good : badCvRead q 32 = false)
    (mode : dByte q.d 31 = 1) (ok : q.io.bufOk = true) :
    cvAccReadBody q s = (.done .ok (dByte q.d 30), hostWrite (edgeTime s).2 q.host q.d.addrA
      ((readUnits q).flatMap (fun n => accBytes (getAcc (getTile s (dByte q.d 28)) n).snap
        (getAcc (getTile s (dByte q.d 28)) n).snap.time))) := by
  obtain ⟨clear, snap⟩ := read_snapshot mode
  unfold cvAccReadBody
  rw [clear, checked_pass (by rw [if_neg Bool.false_ne_true, firstOf_append (r59Tile_pass h names), firstOf_cons_false good]; rfl)]
  simp only [snap, ok, if_true, Bool.false_eq_true, if_false]
  exact replyCopy_ok ok

theorem cvTrkReadBody_serves (h : Serves q .peek (some (dByte q.d 28)) k s) (names : NamesTile q k) (good : badCvRead q 16 = false)
    (mode : dByte q.d 31 = 1) (ok : q.io.bufOk = true) :
    cvTrkReadBody q s = (.done .ok (dByte q.d 30), hostWrite (edgeTime s).2 q.host q.d.addrA
      ((readUnits q).flatMap (fun n => trkBytes (getTrk (getTile s (dByte q.d 28)) n).snap
        (getTrk (getTile s (dByte q.d 28)) n).snap.time))) := by
  obtain ⟨clear, snap⟩ := read_snapshot mode
  unfold cvTrkReadBody
  rw [checked_pass (by rw [firstOf_append (r59Tile_pass h names), firstOf_cons_false good]; rfl)]
  simp only [clear, snap, ok, if_true, Bool.false_eq_true, if_false]
  exact replyCopy_ok ok

theorem cvSnapBody_serves (h : Serves q .poke (some (dByte q.d 28)) k s) (names : NamesTile q k) (good : dirty shCvSnap q = false) :
    cvSnapBody q s = (.done .ok (edgeTime s).1.toNat, settleFabric s
      (((List.range 32).filter (fun n => bitAt (dW32 q.d 32) n)).foldl (fun u n => snapAcc u (dByte q.d 28) n (edgeTime s).1)
        (edgeTime s).2)) := by
  unfold cvSnapBody
  exact checked_pass (by rw [firstOf_append (r59Tile_pass h names), firstOf_cons_false good]; rfl)

theorem cvStatusBody_serves (h : Serves q .peek (some (dByte q.d 28)) k s) (names : NamesTile q k)
    (good : dirty shTileCopy q = false) (long : 64 ≤ q.d.length.toNat) (ok : q.io.bufOk = true) :
    cvStatusBody q s = (.done .ok 0, hostWrite s q.host q.d.addrA (cvStatusBytes (getTile s (dByte q.d 28)))) := by
  unfold cvStatusBody
  rw [checked_pass (by
    rw [firstOf_append (r59Tile_pass h names), firstOf_cons_false (by rw [good, short_false long]; rfl)]; rfl)]
  exact replyCopy_ok ok

end

/-- Settles O33: what each descriptor's body answers. -/
theorem converterDescriptorsTakeEffect : Obligations.ConverterDescriptorsTakeEffect := by
  intro q s0 s c begins names t k waits x
  refine ⟨fun h good ctrl op => ?_, ?_, fun h good slot record idle => ⟨fun free op => ?_, fun pending op => ?_⟩,
    fun h good on mode free latched delay idle op => ?_, fun h good slot armed free open_ idle op => ?_,
    fun h good unit record op => ?_, fun h good mode ok op => ?_, fun h good mode ok op => ?_, fun h good op => ?_,
    fun h good long ok op => ?_⟩
  · exact next_later begins op (by decide) (cvSetupBody_serves h names good ctrl)
  · intro h good first some_ last ok y entries table op
    exact next_later begins op (by decide) (cvSeqSetBody_serves h names good first some_ last ok rfl entries table)
  · have body := cvInjSetBody_serves h names good slot record idle
    rw [if_neg (Bool.eq_false_iff.mp free)] at body
    exact next_done begins op (by decide) body (by decide)
  · have body := cvInjSetBody_serves h names good slot record idle
    rw [if_pos pending] at body
    exact next_done begins op (by decide) body (by decide)
  · exact next_done begins op (by decide)
      (cvStartBody_serves h names good (cvTrigger_starts on mode free latched delay idle)) (by decide)
  · exact next_later begins op (by decide) (cvInjectBody_serves h names good slot armed free open_ idle)
  · exact next_done begins op (by decide) (cvAccSetBody_serves h names good unit record) (by decide)
  · exact next_done begins op (by decide) (cvAccReadBody_serves h names good mode ok) (by decide)
  · exact next_done begins op (by decide) (cvTrkReadBody_serves h names good mode ok) (by decide)
  · exact next_done begins op (by decide) (cvSnapBody_serves h names good) (by decide)
  · exact next_done begins op (by decide) (cvStatusBody_serves h names good long ok) (by decide)

end Sys2Proof.Converters
end

section
/-! ### Calibration -/

namespace Sys2Proof.Calibration

open Sys2Proof Sys2Proof.Machine Sys2Proof.Descriptors

/-! #### The rows of CAL_COMPUTE -/

section
variable {b : CalBlock} {lo hi : CapPoint}

def Monotonic (lo hi : CapPoint) : Prop := lo.sum * hi.n < hi.sum * lo.n ∧ lo.ideal < hi.ideal

def Clipped (lo hi : CapPoint) : Prop := lo.min = 0 ∨ hi.min = 0 ∨ lo.max = 16383 ∨ hi.max = 16383

theorem calJudge_not_monotonic (h : ¬ Monotonic lo hi) : (calJudge b lo hi).1 = 3 := by
  have row : (hi.sum * lo.n ≤ lo.sum * hi.n || hi.ideal ≤ lo.ideal) = true := by
    simp only [Monotonic, not_and_or, Nat.not_lt] at h
    simpa using h
  rw [calJudge, if_pos row]

theorem calJudge_monotonic (h : Monotonic lo hi) : calJudge b lo hi =
    if lo.min = 0 || hi.min = 0 || lo.max = 16383 || hi.max = 16383 then (4, calWord (calOfs lo (calGq lo hi)) (calGq lo hi))
    else if b.ofsLimit.toNat < (calOfs lo (calGq lo hi)).natAbs then (1, calWord (calOfs lo (calGq lo hi)) (calGq lo hi))
    else if b.gainLimit.toNat < (calGq lo hi - 65536).natAbs then (2, calWord (calOfs lo (calGq lo hi)) (calGq lo hi))
    else (0, calWord (calOfs lo (calGq lo hi)) (calGq lo hi)) := by
  have row : ¬ (hi.sum * lo.n ≤ lo.sum * hi.n || hi.ideal ≤ lo.ideal) = true := by
    obtain ⟨sum, ideal⟩ := h
    simp only [Bool.or_eq_true, decide_eq_true_eq]
    omega
  rw [calJudge, if_neg row]

theorem clipped_iff : (lo.min = 0 || hi.min = 0 || lo.max = 16383 || hi.max = 16383) = true ↔ Clipped lo hi := by
  simp [Clipped, or_assoc]

theorem calJudge_clipped (h : Monotonic lo hi) (clipped : Clipped lo hi) : (calJudge b lo hi).1 = 4 := by
  rw [calJudge_monotonic h, if_pos (clipped_iff.mpr clipped)]

section
variable (h : Monotonic lo hi) (clear : ¬ Clipped lo hi)
include h clear

theorem calJudge_clear : calJudge b lo hi =
    if b.ofsLimit.toNat < (calOfs lo (calGq lo hi)).natAbs then (1, calWord (calOfs lo (calGq lo hi)) (calGq lo hi))
    else if b.gainLimit.toNat < (calGq lo hi - 65536).natAbs then (2, calWord (calOfs lo (calGq lo hi)) (calGq lo hi))
    else (0, calWord (calOfs lo (calGq lo hi)) (calGq lo hi)) := by
  rw [calJudge_monotonic h, if_neg (fun c => clear (clipped_iff.mp c))]

theorem calJudge_offset (wide : (b.ofsLimit.toNat : Int) < |calOfs lo (calGq lo hi)|) : (calJudge b lo hi).1 = 1 := by
  rw [Int.abs_eq_natAbs] at wide
  rw [calJudge_clear h clear, if_pos (by omega)]

theorem calJudge_gain (offset : |calOfs lo (calGq lo hi)| ≤ b.ofsLimit.toNat)
    (wide : (b.gainLimit.toNat : Int) < |calGq lo hi - 65536|) : (calJudge b lo hi).1 = 2 := by
  rw [Int.abs_eq_natAbs] at offset wide
  rw [calJudge_clear h clear, if_neg (by omega), if_pos (by omega)]

theorem calJudge_stands (offset : |calOfs lo (calGq lo hi)| ≤ b.ofsLimit.toNat)
    (gain : |calGq lo hi - 65536| ≤ b.gainLimit.toNat) :
    calJudge b lo hi = (0, calWord (calOfs lo (calGq lo hi)) (calGq lo hi)) := by
  rw [Int.abs_eq_natAbs] at offset gain
  rw [calJudge_clear h clear, if_neg (by omega), if_neg (by omega)]

end

end

/-! #### A commit -/

section
variable {y : CalState} {c : CalCommit}

def toA (y : CalState) : Bool := y.factory || y.useB

theorem commitNext_A (a : toA y = true) (early : c.steps < 3) : commitNext y c =
    { y with copyA := commitStep c.block c.steps y.copyA, commit := some { c with steps := c.steps + 1 } } := by
  have a' : (y.factory || y.useB) = true := a
  simp only [commitNext, a', early, if_true]

theorem commitNext_B (b : toA y = false) (early : c.steps < 3) : commitNext y c =
    { y with copyB := commitStep c.block c.steps y.copyB, commit := some { c with steps := c.steps + 1 } } := by
  have b' : (y.factory || y.useB) = false := b
  simp only [commitNext, b', early, if_true, Bool.false_eq_true, if_false]

theorem commitNext_last_A (a : toA y = true) (last : c.steps = 3) : commitNext y c =
    { y with copyA := { y.copyA with mark := 0xA5 }, commit := none, useB := false, factory := false } := by
  have a' : (y.factory || y.useB) = true := a
  simp [commitNext, a', last, commitStep]

theorem commitNext_last_B (b : toA y = false) (last : c.steps = 3) : commitNext y c =
    { y with copyB := { y.copyB with mark := 0xA5 }, commit := none, useB := true, factory := false } := by
  have b' : (y.factory || y.useB) = false := b
  simp only [commitNext, b', last, commitStep]
  rfl

end

theorem commitTick_step {s : State} {t : Nat} {c : CalCommit} (under : (getTile s t).cal.commit = some c) (early : c.steps < 3) :
    commitTick s t = modCal s t (fun y => commitNext y c) := by
  simp only [commitTick, under, early, if_true]

theorem commitTick_last {s : State} {t : Nat} {c : CalCommit} (under : (getTile s t).cal.commit = some c) (last : c.steps = 3) :
    commitTick s t = commitDone (modCal s t (fun y => commitNext y c)) t c := by
  simp [commitTick, under, last]

/-! #### Descriptors and the end of a cell zero -/

section
variable {q : Req} {k : Casement} {s : State}

theorem calCaptureBody_serves (h : Serves q .poke (some (dByte q.d 28)) k s) (names : NamesTile q k)
    (good : dirty shCalCapture q = false) (set : dByte q.d 29 ≤ 19) (point : dByte q.d 30 ≤ 1) (least : 16 ≤ dW32 q.d 32)
    (most : dW32 q.d 32 ≤ 65536) (ideal : dW16 q.d 36 ≤ 16383)
    (entry : badCvEntry (setRecord (getTile s (dByte q.d 28)) (dByte q.d 29)) = false)
    (idle : calBusy (getTile s (dByte q.d 28)) = false) :
    calCaptureBody q s = requestCapture q (.system (dByte q.d 29) (dByte q.d 30 == 1))
      (setRecord (getTile s (dByte q.d 28)) (dByte q.d 29)) (dW32 q.d 32) s := by
  unfold calCaptureBody
  exact checked_pass (by
    rw [firstOf_append (r59Tile_pass h names), firstOf_cons_false (by
      simp [good, entry, show ¬ 19 < dByte q.d 29 by omega, show ¬ 1 < dByte q.d 30 by omega, show ¬ dW32 q.d 32 < 16 by omega,
        show ¬ 65536 < dW32 q.d 32 by omega, show ¬ 16383 < dW16 q.d 36 by omega]), firstOf_cons_false idle]; rfl)

theorem calComputeBody_serves (h : Serves q .poke (some (dByte q.d 28)) k s) (names : NamesTile q k)
    (good : dirty shCalSet q = false) (set : dByte q.d 29 ≤ 19) (idle : calBusy (getTile s (dByte q.d 28)) = false)
    {lo hi : CapPoint} (points : calPoints (getTile s (dByte q.d 28)) (dByte q.d 29) = some (lo, hi)) :
    calComputeBody q s = if (calJudge (calBlock (getTile s (dByte q.d 28))) lo hi).1 = 0
      then (.later, modTile s (dByte q.d 28) (beginCommit q (.apply (dByte q.d 29))
        (calDated { calBlock (getTile s (dByte q.d 28)) with
          sets := mset (calBlock (getTile s (dByte q.d 28))).sets (dByte q.d 29)
            (BitVec.ofNat 32 (calJudge (calBlock (getTile s (dByte q.d 28))) lo hi).2) } (dByte q.d 29) s.dev.now)))
      else (.done .plausibilityFail ((calJudge (calBlock (getTile s (dByte q.d 28))) lo hi).2 +
          2 ^ 32 * (calJudge (calBlock (getTile s (dByte q.d 28))) lo hi).1),
        postTile s (dByte q.d 28) 0x902 1 (dByte q.d 28) (dByte q.d 29) (calJudge (calBlock (getTile s (dByte q.d 28))) lo hi).1) := by
  unfold calComputeBody
  rw [checked_pass (by
    rw [firstOf_append (r59Tile_pass h names), firstOf_cons_false (by simp [good, show ¬ 19 < dByte q.d 29 by omega]),
      firstOf_cons_false idle, firstOf_cons_false (by rw [points]; rfl)]; rfl)]
  dsimp only
  rw [points]

theorem calCellZeroBody_serves (h : Serves q .poke (some (dByte q.d 28)) k s) (names : NamesTile q k)
    (good : dirty shCalSet q = false) (cell : dByte q.d 29 ≤ 7)
    (config : acConfig (acRecord (getTile s (dByte q.d 28)) (dByte q.d 29)) = 1 ∨
      acConfig (acRecord (getTile s (dByte q.d 28)) (dByte q.d 29)) = 5 ∨
      acConfig (acRecord (getTile s (dByte q.d 28)) (dByte q.d 29)) = 7)
    (idle : calBusy (getTile s (dByte q.d 28)) = false) :
    calCellZeroBody q s = requestCapture q
      (.cellZero (dByte q.d 29) 0 0x80 (cellTrim (dByte q.d 28) (getTile s (dByte q.d 28)) (dByte q.d 29))) 0 64 s := by
  unfold calCellZeroBody
  exact checked_pass (by
    rw [firstOf_append (r59Tile_pass h names), firstOf_cons_false (by
      rcases config with c | c | c <;> simp [good, c, show ¬ 7 < dByte q.d 29 by omega]), firstOf_cons_false idle]; rfl)

theorem calSliceBody_serves (h : Serves q .poke (some (dByte q.d 28)) k s) (names : NamesTile q k)
    (good : dirty shCalTile q = false) (idle : calBusy (getTile s (dByte q.d 28)) = false) :
    calSliceBody q s = requestCapture q (.slices 0 []) 0 256 s := by
  unfold calSliceBody
  exact checked_pass (by
    rw [firstOf_append (r59Tile_pass h names), firstOf_cons_false good, firstOf_cons_false idle]; rfl)

theorem calLimitsBody_serves (h : Serves q .poke (some (dByte q.d 28)) k s) (names : NamesTile q k)
    (good : dirty shCalLimits q = false) (offset : dW16 q.d 32 ≤ 5242) (gain : dW16 q.d 34 ≤ 6553)
    (idle : calBusy (getTile s (dByte q.d 28)) = false) :
    calLimitsBody q s = (.later, modTile s (dByte q.d 28) (fun x => beginCommit q .limits { calBlock x with
      ofsLimit := BitVec.ofNat 16 (dW16 q.d 32), gainLimit := BitVec.ofNat 16 (dW16 q.d 34) } x)) := by
  unfold calLimitsBody
  exact checked_pass (by
    rw [firstOf_append (r59Tile_pass h names), firstOf_cons_false (by
      simp [good, show ¬ 5242 < dW16 q.d 32 by omega, show ¬ 6553 < dW16 q.d 34 by omega]), firstOf_cons_false idle]; rfl)

theorem calReadBody_serves (h : Serves q .peek (some (dByte q.d 28)) k s) (names : NamesTile q k)
    (good : dirty shTileCopy q = false) (long : 512 ≤ q.d.length.toNat) (idle : calBusy (getTile s (dByte q.d 28)) = false)
    (ok : q.io.bufOk = true) :
    calReadBody q s = (.done .ok (calBlock (getTile s (dByte q.d 28))).seqNo.toNat, hostWrite s q.host q.d.addrA
      (blockBytes (dByte q.d 28) (calBlock (getTile s (dByte q.d 28)))
        (if (getTile s (dByte q.d 28)).cal.factory then 0 else 0xA5))) := by
  unfold calReadBody
  rw [checked_pass (by
    rw [firstOf_append (r59Tile_pass h names), firstOf_cons_false (by rw [good, short_false long]; rfl),
      firstOf_cons_false idle]; rfl)]
  exact replyCopy_ok ok

end

theorem calCellZeroEnd_commits {t : TileId} {cap : Capture} {k round : Nat} {trim old : BitVec 8} {s : State}
    (under : (getTile s t).cv.capture = some cap) (kind : cap.kind = .cellZero k round trim old) (ended : cap.done = true)
    (low : trim ≠ 0x80) (high : trim ≠ 0x7F) :
    exec (.calCellZeroEnd t) s = .next (cvPump (modTile (modCv s t (fun v => { v with capture := none })) t (fun x =>
      let y := beginCommit cap.req (.cell k)
        (calDated { calBlock (getTile s t) with cells := mset (calBlock (getTile s t)).cells k trim } (20 + k) s.dev.now) x
      { y with cal := { y.cal with cellTrims := mset y.cal.cellTrims k trim } })) t) := by
  cases cap
  subst kind ended
  simp only [exec, execCalCellZeroEnd, under, low, high, decide_false, Bool.or_self, Bool.false_eq_true, if_false]

/-- Settles O34: descriptors by their bodies, the rows of CAL_COMPUTE in their order, a commit by the copy that each step writes. -/
theorem calibrationTakesEffect : Obligations.CalibrationTakesEffect := by
  refine ⟨⟨?_, ?_, ?_⟩, ?_, ?_⟩
  · intro q s0 s c begins names t k x asked
    refine ⟨fun h good set point least most ideal entry idle op => ?_,
      fun lo hi h good set idle points => ⟨fun stands op => ?_, fun fails op => ?_⟩,
      fun h good cell config idle op => ?_, fun h good idle op => ?_, fun h good offset gain idle op => ?_,
      fun h good long idle ok op => ?_⟩
    · exact next_later begins op (by decide) (calCaptureBody_serves h names good set point least most ideal entry idle)
    · have body := calComputeBody_serves h names good set idle points
      rw [if_pos stands] at body
      exact next_later begins op (by decide) body
    · have body := calComputeBody_serves h names good set idle points
      rw [if_neg fails] at body
      exact next_done begins op (by decide) body (by decide)
    · exact next_later begins op (by decide) (calCellZeroBody_serves h names good cell config idle)
    · exact next_later begins op (by decide) (calSliceBody_serves h names good idle)
    · exact next_later begins op (by decide) (calLimitsBody_serves h names good offset gain idle)
    · exact next_done begins op (by decide) (calReadBody_serves h names good long idle ok) (by decide)
  · exact fun t cap k round trim old s under kind ended low high => calCellZeroEnd_commits under kind ended low high
  · intro s t c under s1
    refine ⟨fun early => commitTick_step under early, fun last => ⟨fun k what => ?_, fun k what => ?_, fun what => ?_⟩⟩ <;>
      rw [commitTick_last under last, commitDone, what]
  · exact fun b lo hi => ⟨calJudge_not_monotonic, calJudge_clipped, calJudge_offset, calJudge_gain, calJudge_stands⟩
  · intro y c start a inUse written y1 y2 y3 y4
    cases h : toA y with
    | true =>
      have first : y1 = _ := commitNext_A h (by omega)
      have second : y2 = _ := commitNext_A (by rw [first]; exact h) (show 1 < 3 by decide)
      have third : y3 = _ := commitNext_A (by rw [second, first]; exact h) (show 2 < 3 by decide)
      have fourth : y4 = _ := commitNext_last_A (by rw [third, second, first]; exact h) rfl
      have writesA : a = true := h
      simp [fourth, third, second, first, writesA, inUse, written, start, commitStep, copyGood]
    | false =>
      have first : y1 = _ := commitNext_B h (by omega)
      have second : y2 = _ := commitNext_B (by rw [first]; exact h) (show 1 < 3 by decide)
      have third : y3 = _ := commitNext_B (by rw [second, first]; exact h) (show 2 < 3 by decide)
      have fourth : y4 = _ := commitNext_last_B (by rw [third, second, first]; exact h) rfl
      have writesB : a = false := h
      simp [fourth, third, second, first, writesB, inUse, written, start, commitStep, copyGood]

end Sys2Proof.Calibration
end

section
/-! ### Start-up, and the loader's descriptors -/

namespace Sys2Proof.Loading

open Sys2Proof Sys2Proof.Machine Sys2Proof.Descriptors

/-! #### Start-up -/

theorem nowStartUp_begun {s : State} (phase : s.load.phase = .startUp) : nowStartUp s = s := by
  have due : startUpDue s = false := by simp [startUpDue, phase]
  rw [nowStartUp, due]
  rfl

section
variable {c : CaseId} {s : State} {k : Casement} (load : s.load.purpose = .load) (phase : s.load.phase = .startUp)
include load phase

theorem startUpStep_runs : exec (.startUpStep c) s = .next (startUpNext s c) := by
  simp [exec, execStartUpStep, nowStartUp_begun phase, load, phase]

theorem lockTimeout_stops (found : getCase s c = some k) (loading : k.st = .loading) (first : k.startUp = some 0)
    (alone : s.hub.promo = none) {t : Nat}
    (late : (liveTilesOf s k).find? (fun t => (getTile s t).cyc.clk != .locked) = some t) :
    exec (.startUpLockTimeout c) s = .next (loadStop s .busy 18 t 0xFFFFFFFF) := by
  have spare : spareUnlocked s c = false := by rw [spareUnlocked, alone]
  simp only [exec, execStartUpLockTimeout, nowStartUp_begun phase, spare, found, loading, first, late, load, phase, beq_self_eq_true,
    Bool.and_self, if_true, Bool.false_eq_true, if_false]
  rfl

end

section
variable {s : State} {c : Nat} {k : Casement} (found : getCase s c = some k) (loading : k.st = .loading)
include found loading

omit loading in
theorem startUpNext_waits {n : Nat} (at_ : k.startUp = some n) (code : ((startSteps k.startOrder.toNat)[n]?).getD 0 = 0)
    (open_ : allLocked s (liveTilesOf s k) = false) : startUpNext s c = s := by
  simp [startUpNext, found, at_, code, open_]

theorem startUpNext_locked {n : Nat} (at_ : k.startUp = some n) (early : n < 3)
    (code : ((startSteps k.startOrder.toNat)[n]?).getD 0 = 0) (locked : allLocked s (liveTilesOf s k) = true) :
    startUpNext s c = modCase s c (fun k => { k with startUp := some (n + 1) }) := by
  simp [startUpNext, found, loading, at_, code, locked, show n + 1 < 4 by omega]

theorem startUpNext_acts {n : Nat} (at_ : k.startUp = some n) (early : n < 3)
    (code : ((startSteps k.startOrder.toNat)[n]?).getD 0 ≠ 0) :
    startUpNext s c = modCase (stepAction s c (((startSteps k.startOrder.toNat)[n]?).getD 0) (liveTilesOf s k)) c
      (fun k => { k with startUp := some (n + 1) }) := by
  simp [startUpNext, found, loading, at_, code, show n + 1 < 4 by omega]

theorem startUpNext_last (at_ : k.startUp = some 3) (code : ((startSteps k.startOrder.toNat)[3]?).getD 0 = 3) :
    startUpNext s c = loadOver (caseStarted (modCase (modTiles s (liveTilesOf s k) (fun _ x => stepWrites x)) c
      (fun k => { k with startUp := some 4 })) c) := by
  simp only [startUpNext, found, at_, code, loading]
  rfl

end

/-- Timers of a tile are counted anew, and nothing but tiles and the count of open choices changes. -/
theorem rebaseTmrs_keeps (s : State) (t : Nat) : (rebaseTmrs s t).hub = s.hub ∧ (rebaseTmrs s t).cases = s.cases := by
  unfold rebaseTmrs
  generalize List.range 8 = l
  induction l generalizing s with
  | nil => exact ⟨rfl, rfl⟩
  | cons k l ih =>
    rw [List.foldl_cons]
    refine ⟨(ih _).1.trans ?_, (ih _).2.trans ?_⟩ <;> (dsimp only; split <;> rfl)

/-- Settles O35: each step by what `startUpNext` does with it. -/
theorem startUpTakesEffect : Obligations.StartUpTakesEffect := by
  refine ⟨?_, ?_, ?_, ?_⟩
  · intro c s k n load phase found loading at_ early code
    refine ⟨fun first locked => ?_, fun other => ?_, fun first open_ => ?_⟩ <;> rw [startUpStep_runs load phase]
    · rw [startUpNext_locked found loading at_ early first locked]
    · rw [startUpNext_acts found loading at_ early other]
    · rw [startUpNext_waits found at_ first open_]
  · intro c s k load phase found loading at_ code
    rw [startUpStep_runs load phase, startUpNext_last found loading at_ code]
  · exact fun c s k t load phase found loading first alone late => lockTimeout_stops load phase found loading first alone late
  · intro t s locking sysref on alone unowned
    obtain ⟨hub, cases_⟩ := rebaseTmrs_keeps s t
    have still (u : State) (f : CycState → CycState) (h : u.hub = s.hub) : spareLocked (modCyc u t f) t = modCyc u t f := by
      rw [spareLocked, modCyc_hub, h, alone]
    have none_ (u : State) (f : CycState → CycState) (h : u.cases = s.cases) : caseOfTile (modCyc u t f) t = none := by
      rw [caseOfTile, modCyc_cases, h]
      exact unowned
    simp [exec, execGeneratorLocked, locking, sysref, on, still _ _ hub, none_ _ _ cases_]

/-! #### Descriptors of the loader -/

section
variable {q : Req} {s : State}

theorem cfgLoadBody_starts (steward : isSteward q s = true) (good : dirty shCfgLoad q = false)
    (full : cfgFull q = true → dCase q.d = 0) (source : badSource q true = false) (idle : cfgLoadBusy q s = false) :
    cfgLoadBody q s = (.later, acceptLoad q s) := by
  have whole : (cfgFull q && (dCase q.d).val != 0) = false := by
    cases h : cfgFull q with
    | false => rfl
    | true => simp [full h]
  simp [cfgLoadBody, steward, good, whole, source, idle]

theorem cfgLoadBody_not_owner (steward : isSteward q s = false) (own : cfgFull q = true ∨ isOwner q s = false) :
    cfgLoadBody q s = refuseLoad .refusedOwnership 1 s := by
  rcases own with full | other
  · simp [cfgLoadBody, steward, full]
  · simp [cfgLoadBody, steward, other]

theorem cfgLoadBody_busy (steward : isSteward q s = true) (good : dirty shCfgLoad q = false)
    (full : cfgFull q = true → dCase q.d = 0) (source : badSource q true = false) (busy : s.load.phase ≠ .idle) :
    cfgLoadBody q s = refuseLoad .busy 2 s := by
  have whole : (cfgFull q && (dCase q.d).val != 0) = false := by
    cases h : cfgFull q with
    | false => rfl
    | true => simp [full h]
  have held : cfgLoadBusy q s = true := by simp [cfgLoadBusy, loaderBusy, busy]
  simp [cfgLoadBody, steward, good, whole, source, held]

theorem dropAnswer_keeps (s : State) : (dropAnswer s).dev = s.dev ∧ (dropAnswer s).rcd = s.rcd := by
  unfold dropAnswer
  split <;> exact ⟨rfl, rfl⟩

theorem acceptLoad_posted (q : Req) (s : State) : (acceptLoad q s).rcd.posted = s.rcd.posted ++
    [mkEv s 0x101 3 (evArg q.host.val (if cfgFull q then 0x80 else (dCase q.d).val) 0) false] := by
  obtain ⟨dev, rcd⟩ := dropAnswer_keeps s
  show (dropAnswer s).rcd.posted ++ [mkEv (dropAnswer s) 0x101 3 _ false] = _
  rw [rcd, mkEv, dev]
  rfl

theorem cfgStatusBody_serves (good : dirty shCfgStatus q = false) (long : 256 ≤ q.d.length.toNat) (ok : q.io.bufOk = true) :
    cfgStatusBody q s = (.done .ok 0, hostWrite s q.host q.d.addrA (cfgStatusBytes s)) := by
  unfold cfgStatusBody
  rw [checked_pass (by rw [firstOf_cons_false (by rw [good, short_false long]; rfl)]; rfl)]
  exact replyCopy_ok ok

/-- The key record, as it is read from host memory. -/
def keyRecord (q : Req) : List Byte := padTo 272 (q.io.dataA.take 272)

theorem cfgKeyBody_reads {action : Nat} (steward : isSteward q s = true) (good : dirty shCfgKey q = false)
    (long : 272 ≤ q.d.length.toNat) : cfgKeyBody action q s = keyAction action q s :=
  checked_pass (by
    rw [firstOf_cons_false (by rw [steward]; rfl), firstOf_cons_false (by rw [good, short_false long]; rfl)]; rfl)

theorem keyAction_first (ok : q.io.bufOk = true) (record : badKeyRecord 1 (keyRecord q) = false)
    (blank : ∀ n : Nat, n < 4 → (keySlot s n).programmed = false) (unsigned : fieldAt (keyRecord q) 64 200 = 0) :
    keyAction 1 q s = (.done .ok (byteAt (keyRecord q) 1), writeSlot 1 (keyRecord q) s) := by
  have all : (List.range 4).all (fun k => !(keySlot s k).programmed) = true := by
    simpa using blank
  have record' : badKeyRecord 1 (padTo 272 (q.io.dataA.take 272)) = false := record
  have unsigned' : fieldAt (padTo 272 (q.io.dataA.take 272)) 64 200 = 0 := unsigned
  simp only [keyAction, ok, record', all, unsigned', Bool.not_true, Bool.false_eq_true, if_false, beq_self_eq_true, Bool.and_self,
    if_true, keyRecord]

/-- The record is signed by the key of a live slot (R348). -/
def signedByLive (r : List Byte) (s : State) : Bool :=
  (liveSlots s).any (fun n => (keySlot s n).hash == sha384 (slice r 64 97)) &&
    ecdsaOk (sha384 (slice r 0 168)) (slice r 64 97) (slice r 168 96)

section
variable (ok : q.io.bufOk = true) (record : badKeyRecord 2 (keyRecord q) = false)
include ok record

theorem keyAction_revoke : keyAction 2 q s = checked (keyRows 2 (keyRecord q) s) (fun s => (.done .ok (byteAt (keyRecord q) 1),
    post (writeSlot 2 (keyRecord q) s) 0x107 3 (byteAt (keyRecord q) 1) 2 0)) s := by
  have record' : badKeyRecord 2 (padTo 272 (q.io.dataA.take 272)) = false := record
  have two : ((2 : Nat) == 1) = false := rfl
  simp only [keyAction, ok, record', two, Bool.not_true, Bool.false_and, Bool.false_eq_true, if_false, keyRecord]

theorem keyAction_unsigned (unsigned : signedByLive (keyRecord q) s = false) : keyAction 2 q s = (.done .authFail 0, s) := by
  rw [keyAction_revoke ok record]
  exact checked_fail (if_pos (show (!signedByLive (keyRecord q) s) = true by rw [unsigned]; rfl))

theorem keyAction_signed (signed : signedByLive (keyRecord q) s = true)
    (programmed : (keySlot s (byteAt (keyRecord q) 1)).programmed = true)
    (live : (keySlot s (byteAt (keyRecord q) 1)).revoked = false) (other : liveSlots s ≠ [byteAt (keyRecord q) 1]) :
    keyAction 2 q s = (.done .ok (byteAt (keyRecord q) 1),
      post (writeSlot 2 (keyRecord q) s) 0x107 3 (byteAt (keyRecord q) 1) 2 0) := by
  rw [keyAction_revoke ok record]
  refine checked_pass ((firstOf_cons_false ?_).trans ?_)
  · show (!signedByLive (keyRecord q) s) = false
    rw [signed]
    rfl
  · simp [firstOf, programmed, live, other]

end

end

/-- Settles O36: what each descriptor's body answers. -/
theorem loaderDescriptorsTakeEffect : Obligations.LoaderDescriptorsTakeEffect := by
  intro q s0 s begins
  refine ⟨fun steward good full source idle op => ?_, fun steward own op => ?_, fun steward good full source busy op => ?_,
    fun good long ok op => ?_, ?_⟩
  · refine ⟨next_later begins op (by decide) (cfgLoadBody_starts steward good full source idle), rfl, rfl, rfl, rfl,
      acceptLoad_posted q s⟩
  · exact next_done begins op (by decide) (cfgLoadBody_not_owner steward own) (by decide)
  · exact next_done begins op (by decide) (cfgLoadBody_busy steward good full source busy) (by decide)
  · exact next_done begins op (by decide) (cfgStatusBody_serves good long ok) (by decide)
  · intro steward good long ok r
    refine ⟨fun record blank unsigned op => ?_, fun record programmed live other op => ?_⟩
    · exact next_done begins op (by decide)
        ((cfgKeyBody_reads steward good long).trans (keyAction_first ok record blank unsigned)) (by decide)
    · cases signed : signedByLive r s with
      | true =>
        rw [if_pos ((Bool.and_eq_true _ _).mp signed)]
        exact next_done begins op (by decide)
          ((cfgKeyBody_reads steward good long).trans (keyAction_signed ok record signed programmed live other)) (by decide)
      | false =>
        rw [if_neg (fun both => Bool.false_ne_true (signed.symm.trans ((Bool.and_eq_true _ _).mpr both)))]
        exact next_done begins op (by decide)
          ((cfgKeyBody_reads steward good long).trans (keyAction_unsigned ok record signed)) (by decide)

end Sys2Proof.Loading
end

section
/-! ### Image bytes, pass 2 and the loader's timeouts -/

namespace Sys2Proof.ImageBytes

open Sys2Proof Sys2Proof.Machine

/-! #### Bytes that a pass takes -/

theorem loadRun_done {ph : LoadPhase} {s : State} (phase : s.load.phase = ph) (waits : loadStep s = none) (n : Nat) :
    loadRun ph n s = s := by
  cases n with
  | zero => rfl
  | succ n => simp [loadRun, phase, waits]

theorem loadRun_step {ph : LoadPhase} {s u : State} (phase : s.load.phase = ph) (step : loadStep s = some u) (n : Nat) :
    loadRun ph (n + 1) s = loadRun ph n u := by
  simp [loadRun, phase, step]

/-- The loader with more bytes that wait. -/
def fed (s : State) (bytes : List Byte) : State := modLoad s (fun l => { l with buf := l.buf ++ bytes, all := l.all ++ bytes })

theorem phase_fed (s : State) (bytes : List Byte) : (fed s bytes).load.phase = s.load.phase := rfl

section
variable {s : State} {bytes : List Byte} (takes : s.load.phase = .pass1 ∨ s.load.phase = .pass2) (host : s.load.fromBsp = false)
  (open_ : s.load.stage ≠ .complete)
include takes host open_

theorem imageData_feeds (ended : Bool) : exec (.imageData bytes ended) s = .next (
    let s1 := loadRun s.load.phase (bytes.length + s.load.buf.length + 4) (fed s bytes)
    if ended && s1.load.phase == s.load.phase && s1.load.stage != .complete
      then loadStop s1 .truncated (cutReason s1) noTile (frameNow s1.load) else s1) := by
  have skip : ((s.load.phase != .pass1 && s.load.phase != .pass2) || s.load.stage == .complete) = false := by
    rcases takes with p | p <;> simp [p, open_]
  simp only [exec, execImageData, host, feedLoader, skip, Bool.false_eq_true, if_false]
  rfl

theorem imageData_waits (waits : loadStep (fed s bytes) = none) : exec (.imageData bytes false) s = .next (fed s bytes) := by
  rw [imageData_feeds takes host open_, loadRun_done (phase_fed s bytes) waits]
  rfl

theorem imageData_cut (waits : loadStep (fed s bytes) = none) : exec (.imageData bytes true) s =
    .next (loadStop (fed s bytes) .truncated (if s.load.phase = .pass1 then 10 else 17) 0xFFFF (frameNow (fed s bytes).load)) := by
  have complete_ : ((fed s bytes).load.stage != .complete) = true := by simpa [fed] using open_
  have phase : ((fed s bytes).load.phase == s.load.phase) = true := beq_self_eq_true _
  have reason : cutReason (fed s bytes) = if s.load.phase = .pass1 then 10 else 17 := by simp [cutReason, fed]
  rw [imageData_feeds takes host open_, loadRun_done (phase_fed s bytes) waits]
  simp only [complete_, phase, reason, Bool.and_self, if_true, noTile]

theorem imageData_unit {u : State} (step : loadStep (fed s bytes) = some u) (phase : u.load.phase = s.load.phase)
    (waits : loadStep u = none) : exec (.imageData bytes false) s = .next u := by
  rw [imageData_feeds takes host open_, loadRun_step (phase_fed s bytes) step, loadRun_done phase waits]
  rfl

end

theorem dropAnswer_none {s : State} (none_ : (getStream s 12).part = none) : dropAnswer s = s := by
  simp [dropAnswer, none_]

theorem loadStop_pass1 {s : State} {q : Req} (r frame : Nat) (phase : s.load.phase = .pass1) (load : s.load.purpose = .load)
    (req : s.load.req = some q) (none_ : (getStream s 12).part = none) :
    loadStop s .truncated r 0xFFFF frame = complete q .truncated (1 + 2 ^ 8 * r + 2 ^ 16 * 0xFFFF + 2 ^ 32 * frame)
      (modLoad (post s 0x103 3 9 r (frame % 65536)) (fun l => { loaderIdle l with
        lastStatus := 9, lastReason := BitVec.ofNat 8 r, lastFrame := BitVec.ofNat 32 frame })) := by
  have answer : dropAnswer (post s 0x103 3 9 r (frame % 65536)) = post s 0x103 3 9 r (frame % 65536) := dropAnswer_none none_
  have req' : (post s 0x103 3 9 r (frame % 65536)).load.req = some q := req
  simp only [loadStop, load, phase, loadEnd, show statusCode .truncated = 9 from rfl, answer, req']
  rfl

/-! #### Pass 2 -/

section
variable {s : State} (pass : s.load.phase = .pass2)
include pass

theorem loadStep_pass2 : loadStep s = pass2Step s := by rw [loadStep, pass]

section
variable (stage : s.load.stage = .header) (here : s.load.head.length ≤ s.load.buf.length)
include stage here

theorem header_differs (differs : (sha384 (s.load.buf.take s.load.head.length)).take 16 ≠ s.load.headHash) :
    loadStep s = some (loadStop s .hashMismatch 16 0xFFFF 0xFFFFFFFF) := by
  have other : ((sha384 (s.load.buf.take s.load.head.length)).take 16 != s.load.headHash) = true := by simpa using differs
  simp only [loadStep_pass2 pass, pass2Step, stage, Nat.not_lt.mpr here, if_false, other, if_true]
  rfl

theorem header_same (same : (sha384 (s.load.buf.take s.load.head.length)).take 16 = s.load.headHash) :
    loadStep s = some (modLoad s (fun l => { l with buf := l.buf.drop s.load.head.length, stage := .frames })) := by
  simp only [loadStep_pass2 pass, pass2Step, stage, Nat.not_lt.mpr here, if_false, same, bne_self_eq_false, Bool.false_eq_true]

end

section
variable (stage : s.load.stage = .frames) (more : s.load.frameIx ≠ hdrFrames s.load.head) {n : Nat}
  (size : n = 24 + fieldAt (s.load.buf.take 24) 16 4 + tagSize s.load.head) (here : n ≤ s.load.buf.length)
  (payload : fieldAt (s.load.buf.take 24) 16 4 ≤ 16384)
include stage more size here payload

theorem frame_differs (differs : s.load.hashes[s.load.frameIx]? ≠ some ((sha384 (s.load.buf.take n)).take 16)) :
    loadStep s = some (loadStop s .hashMismatch 16 0xFFFF s.load.frameIx) := by
  have other : (some ((sha384 (s.load.buf.take n)).take 16) != s.load.hashes[s.load.frameIx]?) = true := by
    simpa using differs.symm
  simp only [loadStep_pass2 pass, pass2Step, stage, more, ← size, Nat.not_lt.mpr here, Nat.not_lt.mpr payload,
    show ¬ s.load.buf.length < 24 by omega, if_false, other, if_true]
  rfl

theorem frame_applied {p : List Byte} (same : s.load.hashes[s.load.frameIx]? = some ((sha384 (s.load.buf.take n)).take 16))
    (opens : openFrame s.load.head s.load.frameIx (s.load.buf.take 24) (slice s.load.buf 24 (fieldAt (s.load.buf.take 24) 16 4))
      (slice s.load.buf (24 + fieldAt (s.load.buf.take 24) 16 4) (tagSize s.load.head)) = some p) :
    loadStep s = some (applyFrame (modLoad s (fun l => { l with buf := l.buf.drop n, frameIx := s.load.frameIx + 1 }))
      { frameHead (s.load.buf.take 24) with payload := p }) := by
  simp only [loadStep_pass2 pass, pass2Step, stage, more, ← size, Nat.not_lt.mpr here, Nat.not_lt.mpr payload,
    show ¬ s.load.buf.length < 24 by omega, if_false, same, bne_self_eq_false, Bool.false_eq_true, opens]

end

end

/-! #### Stops and the start of pass 2 -/

section
variable {c : CaseId} {s : State} {k : Casement} (found : getCase s c = some k) (running : k.st = .running)

/-- The casement made to stop, with its event (R338). -/
def madeToStop (s : State) (c : CaseId) (k : Casement) : State :=
  modCase (post s 0x10A 3 c.val 0 (getTile s (leadTile k s)).cyc.step) c (fun k => { k with st := .paused, halt := false })

include found in
theorem getCase_madeToStop : getCase (madeToStop s c k) c = some { k with st := .paused, halt := false } := by
  have found' : getCase (post s 0x10A 3 c.val 0 (getTile s (leadTile k s)).cyc.step) c = some k := found
  rw [madeToStop, getCase_modCase_self, found']
  rfl

include found running

theorem loadPauseTimeout_stops {w : Stop} (stop : k.stop = some w) :
    exec (.loadPauseTimeout c) s = .next (stopGo (madeToStop s c k) c) := by
  simp only [exec, execLoadPauseTimeout, found, stop, running, Option.isSome_some, beq_self_eq_true, Bool.and_self, if_true]
  rfl

end

theorem takeoverGo_paused {c : CaseId} {s : State} {k : Casement} (found : getCase s c = some k) (phase : s.load.phase = .takeover)
    (partial_ : s.load.full = false) (case_ : s.load.case_ = c) : takeoverGo (madeToStop s c k) = takeTarget (madeToStop s c k) := by
  have after := getCase_madeToStop found
  have load : (madeToStop s c k).load = s.load := modCase_load _ _ _
  have targets : loadTargets (madeToStop s c k) = [c.val] := by
    simp only [loadTargets, load, partial_, case_, after, Option.isSome_some, if_true, Bool.false_eq_true, if_false]
  have stopped : hasStopped (madeToStop s c k) c = true := by rw [hasStopped, after]; rfl
  simp [takeoverGo, targets, stopped, load, phase]

theorem loadPass2Start_begins {s : State} {q : Req} (load : s.load.purpose = .load) (phase : s.load.phase = .takeover)
    (clear : targetClear s = true) :
    let s1 := (loadTiles s).foldl (fun u t => takeTile u (loadKeeps u) t) s
    let s2 := settleFabric s (beginPass (requestEpoch s1 { why := .load, roles := loadRoles s1, avoid := none }) .pass2)
    s2.load.req = some q → (s2.load.fromBsp = true ∨ (getHost s2 q.host).en = true) →
    exec .loadPass2Start s = .next s2 := by
  intro s1 s2 req source
  have gives : (!s2.load.fromBsp && !(getHost s2 q.host).en) = false := by
    rcases source with bsp | en
    · rw [bsp]; rfl
    · rw [en]; exact Bool.and_false _
  have starts : exec .loadPass2Start s = .next (beginPass2 s) := by simp [exec, execLoadPass2Start, load, phase, clear]
  have begins : beginPass2 s = s2 := by
    show (match s2.load.req with
      | some q => if !s2.load.fromBsp && !(getHost s2 q.host).en then loadStop s2 .truncated 17 noTile noFrame else s2
      | none => s2) = s2
    rw [req]
    exact if_neg (Bool.eq_false_iff.mp gives)
  rw [starts, begins]

/-- Settles O37: bytes by the unit that they complete, pass 2 unit by unit, a stop by what waits for it. -/
theorem loaderEventsTakeEffect : Obligations.LoaderEventsTakeEffect := by
  refine ⟨⟨?_, ?_, ?_⟩, ⟨?_, ?_⟩, ?_, ?_⟩
  · intro bytes s ph phase takes host open_ s1
    subst phase
    exact ⟨fun waits => ⟨imageData_waits takes host open_ waits, imageData_cut takes host open_ waits⟩,
      fun u step phase waits => imageData_unit takes host open_ step phase waits⟩
  · intro s n fetch none_
    simp [exec, execFetchTimeout, fetch, none_, cutReason, noTile]
  · exact fun s q r frame phase load req none_ => loadStop_pass1 r frame phase load req none_
  · exact fun s pass stage here => ⟨header_differs pass stage here, header_same pass stage here⟩
  · intro s p pass stage more hd plen n here payload
    exact ⟨frame_differs pass stage more rfl here payload, frame_applied pass stage more rfl here payload⟩
  · intro c s k found running s1
    have after := getCase_madeToStop found
    refine ⟨fun q stop => ?_, fun q stop => ?_, fun stop phase partial_ case_ => ?_⟩ <;>
      rw [loadPauseTimeout_stops found running stop, stopGo, after]
    · simp only [stop]
      rfl
    · simp only [stop]
      rfl
    · simp only [stop]
      exact congrArg Host.Outcome.next (takeoverGo_paused found phase partial_ case_)
  · exact fun s q load phase clear req source => loadPass2Start_begins load phase clear req source

end Sys2Proof.ImageBytes
end

section
/-! ### What settling the fabric leaves unchanged -/

namespace Sys2Proof.Settling

open Sys2Proof Sys2Proof.Machine

/-- What leads from `a` to `s` changes tiles, the recorder's side and the count of open choices, and nothing else. -/
def FabricSide (a s : State) : Prop := { s with tiles := a.tiles, rcd := a.rcd, fresh := a.fresh } = a

variable {a s : State}

theorem FabricSide.refl (s : State) : FabricSide s s := rfl

theorem FabricSide.load (h : FabricSide a s) : s.load = a.load := (congrArg State.load h :)

theorem FabricSide.dev (h : FabricSide a s) : s.dev = a.dev := (congrArg State.dev h :)

theorem FabricSide.cases (h : FabricSide a s) : s.cases = a.cases := (congrArg State.cases h :)

theorem FabricSide.hif (h : FabricSide a s) : s.hif = a.hif := (congrArg State.hif h :)

theorem FabricSide.hub (h : FabricSide a s) : s.hub = a.hub := (congrArg State.hub h :)

theorem fabricSide_modTile (h : FabricSide a s) (t : Nat) (f : Tile → Tile) : FabricSide a (modTile s t f) := h

theorem fabricSide_modFab (h : FabricSide a s) (t : Nat) (f : FabState → FabState) : FabricSide a (modFab s t f) := h

theorem fabricSide_foldl {α : Type} {f : State → α → State} (step : ∀ s x, FabricSide a s → FabricSide a (f s x)) (l : List α)
    (h : FabricSide a s) : FabricSide a (l.foldl f s) := by
  induction l generalizing s with
  | nil => exact h
  | cons x l ih => exact ih (step s x h)

theorem fabricSide_postTile (h : FabricSide a s) (t code src b0 b1 w : Nat) : FabricSide a (postTile s t code src b0 b1 w) := by
  unfold postTile
  dsimp only
  split
  · split
    · exact h
    · exact h
  · exact h

theorem fabricSide_portARead (h : FabricSide a s) (t q row data : Nat) (bad : Bool) : FabricSide a (portARead s t q row data bad) := by
  unfold portARead
  split
  · exact fabricSide_postTile (by exact h) _ _ _ _ _ _
  · exact h

theorem fabricSide_portAAccess (h : FabricSide a s) (t q : Nat) (p : PortA) (meets : Bool) :
    FabricSide a (portAAccess s t q p meets) := by
  unfold portAAccess
  extract_lets x w addr row hit o early data s1
  have read : FabricSide a s1 := by
    refine fabricSide_portARead ?_ _ _ _ _ _
    split
    · exact h
    · exact h
  split
  · split
    · exact read
    · exact read
  · exact read

theorem fabricSide_portAEnd (h : FabricSide a s) (t q : Nat) : FabricSide a (portAEnd s t q) := by
  unfold portAEnd
  split
  · exact fabricSide_modFab (fabricSide_portAAccess h _ _ _ _) _ _
  · exact h

theorem fabricSide_clockRams (h : FabricSide a s) (before : State) (t : Nat) (fires : Nat → Nat → Bool) :
    FabricSide a (clockRams before s t fires) := by
  refine fabricSide_foldl (fun s q h => ?_) _ h
  split
  · exact fabricSide_modFab (fabricSide_portAEnd h _ _) _ _
  · exact h

theorem fabricSide_takeCells (h : FabricSide a s) (t : Nat) (new_ : List (Nat × BitVec 2)) (open_ : Bool) :
    FabricSide a (takeCells s t new_ open_) := by
  unfold takeCells
  dsimp only
  split
  · exact h
  · split
    · exact h
    · exact h

theorem fabricSide_lineEdges (h : FabricSide a s) (before after : State) (t : Nat) : FabricSide a (lineEdges before after t s) := by
  unfold lineEdges
  dsimp only
  split
  · exact fabricSide_clockRams h _ _ _
  · exact fabricSide_takeCells (fabricSide_clockRams h _ _ _) _ _ _

theorem fabricSide_asyncPass (h : FabricSide a s) (t : Nat) : FabricSide a (asyncPass s t) := by
  unfold asyncPass
  dsimp only
  split
  · exact h
  · refine fabricSide_foldl (fun s c h => ?_) _ h
    split
    · exact h
    · exact h

theorem fabricSide_settleRounds (h : FabricSide a s) (n : Nat) (before : State) : FabricSide a (settleRounds n before s) := by
  induction n generalizing before s with
  | zero => exact h
  | succ n ih =>
    unfold settleRounds
    extract_lets ts s1 s2
    have settled : FabricSide a s2 :=
      fabricSide_foldl (fun u t hu => fabricSide_asyncPass hu t) _
        (fabricSide_foldl (fun u t hu => fabricSide_lineEdges hu before s t) _ h)
    split
    · exact settled
    · exact ih settled s

theorem fabricSide_settleFabric (h : FabricSide a s) (before : State) : FabricSide a (settleFabric before s) := by
  refine fabricSide_foldl (fun u t hu => ?_) _ (fabricSide_settleRounds h _ _)
  dsimp only
  split
  · exact hu
  · exact hu

end Sys2Proof.Settling
end

section
/-! ### Casements -/

namespace Sys2Proof.Casements

open Sys2Proof Sys2Proof.Machine Sys2Proof.Descriptors

section
variable {q : Req} {k : Casement} {s : State}

theorem stewardCase_pass {sh : Shape} (steward : isSteward q s = true) (good : dirty sh q = false)
    (found : getCase s (dCase q.d) = some k) (free : loadTouches s (dCase q.d) = false) (open_ : caseClosed s (dCase q.d) = false) :
    firstOf (stewardCase sh q s) = none := by
  simp [stewardCase, firstOf, steward, good, found, free, open_]

theorem modCase_of_found {c : Nat} (found : getCase s c = some k) (f : Casement → Casement) : modCase s c f = setCase s c (f k) := by
  rw [modCase, found]

theorem dropReset_none (found : getCase s (dCase q.d) = some k) (stop : k.stop = none) : dropReset s (dCase q.d) = s := by
  simp only [dropReset, found, stop]

theorem dissolving_none (found : getCase s (dCase q.d) = some k) (stop : k.stop = none) : dissolving s (dCase q.d) = false := by
  simp only [dissolving, found, stop]

/-! #### Stops -/

theorem getCase_stopping (found : getCase s (dCase q.d) = some k) (w : Stop) :
    getCase (modCase s (dCase q.d) (fun k => { k with stop := some w })) (dCase q.d) = some { k with stop := some w } := by
  rw [getCase_modCase_self, found]
  rfl

theorem beginStop_running (found : getCase s (dCase q.d) = some k) (stop : k.stop = none) (running : k.st = .running) (w : Stop) :
    beginStop s (dCase q.d) w =
      modCase (modCase s (dCase q.d) (fun k => { k with stop := some w })) (dCase q.d) (fun k => { k with halt := true }) := by
  have runs : hasStopped (modCase s (dCase q.d) (fun k => { k with stop := some w })) (dCase q.d) = false := by
    rw [hasStopped, getCase_stopping found]
    simp [running]
  rw [beginStop, dropReset_none found stop, runs]
  rfl

theorem beginStop_stopped (found : getCase s (dCase q.d) = some k) (stop : k.stop = none) (stopped : k.st ≠ .running) (w : Stop) :
    beginStop s (dCase q.d) w = stopGo (modCase s (dCase q.d) (fun k => { k with stop := some w })) (dCase q.d) := by
  have stands : hasStopped (modCase s (dCase q.d) (fun k => { k with stop := some w })) (dCase q.d) = true := by
    rw [hasStopped, getCase_stopping found]
    simpa using stopped
  rw [beginStop, dropReset_none found stop, stands]
  rfl

theorem stopGo_reset (found : getCase s (dCase q.d) = some k) :
    stopGo (modCase s (dCase q.d) (fun k => { k with stop := some (.reset q) })) (dCase q.d) =
      resetCase (modCase s (dCase q.d) (fun k => { k with stop := some (.reset q) })) (dCase q.d) q := by
  rw [stopGo, getCase_stopping found]

theorem stopGo_dissolve (found : getCase s (dCase q.d) = some k) :
    stopGo (modCase s (dCase q.d) (fun k => { k with stop := some (.dissolve q) })) (dCase q.d) =
      dissolveCase (modCase s (dCase q.d) (fun k => { k with stop := some (.dissolve q) })) (dCase q.d) q := by
  rw [stopGo, getCase_stopping found]

/-! #### Bodies -/

theorem caseCreateBody_serves (steward : isSteward q s = true) (good : dirty shCaseCreate q = false)
    (new : getCase s (dCase q.d) = none) (pool : ∀ t ∈ tilesOf (createRegion q), inPool s t = true) (some_ : createRegion q ≠ 0)
    (host : dByte q.d 28 ≤ 7) (idle : placementBusy s = false) : caseCreateBody q s = (.done .ok 0, createCase q s) := by
  have free : (tilesOf (createRegion q)).any (fun t => !inPool s t) = false := by simpa using pool
  exact checked_pass (by
    rw [firstOf_cons_false (by rw [steward]; rfl), firstOf_cons_false good, firstOf_cons_false (by rw [new]; rfl), firstOf_cons_false free,
      firstOf_cons_false (Bool.or_eq_false_iff.mpr ⟨beq_eq_false_iff_ne.mpr some_, decide_eq_false (by omega)⟩), firstOf_cons_false idle]
    rfl)

theorem caseDissolveBody_serves (steward : isSteward q s = true) (good : dirty shCaseOnly q = false)
    (found : getCase s (dCase q.d) = some k) (free : loadTouches s (dCase q.d) = false) (open_ : caseClosed s (dCase q.d) = false)
    (stop : k.stop = none) : caseDissolveBody q s = (.later, beginStop s (dCase q.d) (.dissolve q)) :=
  checked_pass (by
    rw [firstOf_append (stewardCase_pass steward good found free open_), firstOf_cons_false (dissolving_none found stop)]
    rfl)

theorem caseOwnerBody_serves (steward : isSteward q s = true) (good : dirty shCaseOwner q = false)
    (found : getCase s (dCase q.d) = some k) (free : loadTouches s (dCase q.d) = false) (open_ : caseClosed s (dCase q.d) = false)
    (host : dByte q.d 28 ≤ 7) :
    caseOwnerBody q s = (.done .ok 0, setCase s (dCase q.d) { k with owner := Fin.ofNat 8 (dByte q.d 28) }) := by
  unfold caseOwnerBody
  rw [checked_pass (by
    rw [firstOf_append (stewardCase_pass steward good found free open_), firstOf_cons_false (by
      simp [show ¬ 7 < dByte q.d 28 by omega])]
    rfl)]
  rw [modCase_of_found found]

theorem goneCase_found (found : getCase s (dCase q.d) = some k) : goneCase q s = false := by simp [goneCase, found]

theorem caseResetBody_serves (allowed : notAllowed q .peek s = false) (good : dirty shCaseOnly q = false)
    (found : getCase s (dCase q.d) = some k) (closed : resetClosed q s = false) (going : k.st ≠ .stopped) (stop : k.stop = none) :
    caseResetBody q s = beginReset q s :=
  checked_pass (by
    rw [firstOf_cons_false (goneCase_found found), firstOf_cons_false allowed, firstOf_cons_false (by rw [found, good]; rfl),
      firstOf_cons_false closed, firstOf_cons_false (by simp [caseState, found, going, dissolving_none found stop])]
    rfl)

theorem caseResetBody_stopped (allowed : notAllowed q .peek s = false) (good : dirty shCaseOnly q = false)
    (found : getCase s (dCase q.d) = some k) (closed : resetClosed q s = false) (stopped : k.st = .stopped) :
    caseResetBody q s = (.done .busy 0, s) :=
  checked_fail (by
    rw [firstOf_cons_false (goneCase_found found), firstOf_cons_false allowed, firstOf_cons_false (by rw [found, good]; rfl),
      firstOf_cons_false closed]
    simp [firstOf, caseState, found, stopped])

theorem resetClosed_open (open_ : caseClosed s (dCase q.d) = false) : resetClosed q s = false := by simp [resetClosed, open_]

theorem resetClosed_hold (found : getCase s (dCase q.d) = some k) (hold : k.pwr = .hold) : resetClosed q s = false := by
  simp [resetClosed, found, hold]

theorem beginReset_hold (found : getCase s (dCase q.d) = some k) (stop : k.stop = none) (hold : k.pwr = .hold) (some_ : k.st ≠ .empty) :
    beginReset q s = (.later, modCase (wakeByCommand s (dCase q.d)) (dCase q.d) (fun k => { k with stop := some (.reset q) })) := by
  simp [beginReset, found, some_, hold, dropReset_none found stop]

theorem beginReset_run (found : getCase s (dCase q.d) = some k) (run : k.pwr = .run) (stays : k.entering = false) (some_ : k.st ≠ .empty)
    (loaded : k.st ≠ .loading) : beginReset q s = (.later, beginStop s (dCase q.d) (.reset q)) := by
  simp [beginReset, found, some_, run, stays, loaded]

theorem casePolicyBody_serves (allowed : notAllowed q .poke s = false) (good : dirty shCasePolicy q = false)
    (found : getCase s (dCase q.d) = some k) (open_ : caseClosed s (dCase q.d) = false) :
    casePolicyBody q s = (.done .ok 0, setCase (markChanged s (dCase q.d)) (dCase q.d)
      { k with dupPause := bitAt (dByte q.d 28) 0 }) := by
  have found' : getCase (markChanged s (dCase q.d)) (dCase q.d) = some k := found
  unfold casePolicyBody
  rw [checked_pass (by
    rw [firstOf_cons_false (goneCase_found found), firstOf_cons_false allowed, firstOf_cons_false (by rw [found, good]; rfl),
      firstOf_cons_false open_]
    rfl)]
  rw [modCase_of_found found']

theorem casePinAssignBody_serves (steward : isSteward q s = true) (good : pinAssignBad q s = false) (idle : pinMoveBusy q s = false)
    (open_ : pinLocked s (dW16 q.d 32) = false) (shut : bitAt (dByte q.d 28) 0 = true → caseClosed s (dCase q.d) = false) :
    casePinAssignBody q s = (.done .ok 0, settleFabric s
      (movePin s (dW16 q.d 32) (if bitAt (dByte q.d 28) 0 then some (dCase q.d) else none))) := by
  have served : (bitAt (dByte q.d 28) 0 && caseClosed s (dCase q.d)) = false := by
    cases h : bitAt (dByte q.d 28) 0 with
    | false => rfl
    | true => rw [shut h]; rfl
  unfold casePinAssignBody
  exact checked_pass (by
    rw [firstOf_cons_false (by rw [steward]; rfl), firstOf_cons_false good, firstOf_cons_false idle, firstOf_cons_false served,
      firstOf_cons_false open_]
    rfl)

theorem caseStatusBody_serves (allowed : notAllowed q .peek s = false) (good : dirty shCaseStatus q = false)
    (long : 64 ≤ q.d.length.toNat) (ok : q.io.bufOk = true) (found : getCase s (dCase q.d) = some k)
    (open_ : caseClosed s (dCase q.d) = false) :
    caseStatusBody q s = (.done .ok 0, hostWrite s q.host q.d.addrA (caseStatusBytes k)) := by
  unfold caseStatusBody
  rw [checked_pass (by
    rw [firstOf_cons_false (goneCase_found found), firstOf_cons_false allowed,
      firstOf_cons_false (by rw [found, good, short_false long]; rfl), firstOf_cons_false open_]
    rfl)]
  simp only [found]
  exact replyCopy_ok ok

theorem tileStatusBody_serves (good : dirty shTileStatusAll q = false) (long : 768 ≤ q.d.length.toNat) (ok : q.io.bufOk = true) :
    tileStatusBody q s = (.done .ok 0, hostWrite s q.host q.d.addrA (allTiles.flatMap (tileStatusBytes s))) := by
  unfold tileStatusBody
  rw [checked_pass (by rw [firstOf_cons_false (by rw [good, short_false long]; rfl)]; rfl)]
  exact replyCopy_ok ok

end

/-- Settles O38: what each descriptor's body answers, a stop by the state of the casement. -/
theorem casementDescriptorsTakeEffect : Obligations.CasementDescriptorsTakeEffect := by
  intro q s0 s begins
  refine ⟨fun steward good new pool some_ host idle op => ?_, fun k steward good found free open_ stop => ?_,
    fun k steward good found free open_ host op => ?_, fun k allowed good found stop hold going some_ op => ?_,
    fun k allowed good found open_ stop run stays => ?_, fun k allowed good found open_ op => ?_, fun steward good idle free => ?_,
    fun k allowed good long ok found open_ op => ?_, fun good long ok op => ?_⟩
  · refine ⟨next_done begins op (by decide) (caseCreateBody_serves steward good new pool some_ host idle) (by decide),
      getCase_setCase_self s _ _, ?_⟩
    have owner : (Fin.ofNat 8 (dByte q.d 28)).val = dByte q.d 28 := Nat.mod_eq_of_lt (by omega)
    rw [← owner]
    exact Hosts.post_posted _ _ _ _ _ _
  · have body := caseDissolveBody_serves steward good found free open_ stop
    refine ⟨fun running op => ?_, fun stopped op => ?_⟩
    · rw [beginStop_running found stop running] at body
      exact next_later begins op (by decide) body
    · rw [beginStop_stopped found stop stopped, stopGo_dissolve found] at body
      exact next_later begins op (by decide) body
  · exact next_done begins op (by decide) (caseOwnerBody_serves steward good found free open_ host) (by decide)
  · exact next_later begins op (by decide)
      ((caseResetBody_serves allowed good found (resetClosed_hold found hold) going stop).trans (beginReset_hold found stop hold some_))
  · refine ⟨fun running op => ?_, fun stands op => ?_, fun stopped op => ?_⟩
    · have body := (caseResetBody_serves allowed good found (resetClosed_open open_) (by rw [running]; decide) stop).trans
        (beginReset_run found run stays (by rw [running]; decide) (by rw [running]; decide))
      rw [beginStop_running found stop running] at body
      exact next_later begins op (by decide) body
    · have at_ (st : CaseSt) (h : st ≠ .paused ∧ st ≠ .held) : k.st ≠ st := by
        rcases stands with p | p <;> rw [p]
        · exact h.1.symm
        · exact h.2.symm
      have body := (caseResetBody_serves allowed good found (resetClosed_open open_) (at_ _ (by decide)) stop).trans
        (beginReset_run found run stays (at_ _ (by decide)) (at_ _ (by decide)))
      rw [beginStop_stopped found stop (at_ _ (by decide)), stopGo_reset found] at body
      exact next_later begins op (by decide) body
    · exact next_done begins op (by decide)
        (caseResetBody_stopped allowed good found (resetClosed_open open_) stopped) (by decide)
  · exact next_done begins op (by decide) (casePolicyBody_serves allowed good found open_) (by decide)
  · refine ⟨fun assign open_ op => ?_, fun floats op => ?_⟩
    · have body := casePinAssignBody_serves steward good idle free (fun _ => open_)
      rw [if_pos (show bitAt (dByte q.d 28) 0 = true from assign)] at body
      exact next_done begins op (by decide) body (by decide)
    · have off : bitAt (dByte q.d 28) 0 = false := floats
      have body := casePinAssignBody_serves steward good idle free (fun on => absurd (off.symm.trans on) (by decide))
      rw [if_neg (Bool.eq_false_iff.mp off)] at body
      exact next_done begins op (by decide) body (by decide)
  · exact next_done begins op (by decide) (caseStatusBody_serves allowed good long ok found open_) (by decide)
  · exact next_done begins op (by decide) (tileStatusBody_serves good long ok) (by decide)

end Sys2Proof.Casements
end

section
/-! ### Roles, tests of tiles, and controller firmware -/

namespace Sys2Proof.Roles

open Sys2Proof Sys2Proof.Machine Sys2Proof.Descriptors

/-! #### Descriptors -/

section
variable {q : Req} {k : Casement} {s : State}

section
variable {before after : List (Bool × Status)} {act : State → Reply × State} (pass : firstOf before = none)
include pass

theorem withTenure_stale (stale : rtTenure (namedEntry q s) ≠ dW16 q.d 36) :
    withTenure q before after act s = (.done .staleTenure (staleResult (namedEntry q s)), s) := by
  simp [withTenure, pass, stale]

theorem withTenure_pass (tenure : rtTenure (namedEntry q s) = dW16 q.d 36) (rest : firstOf after = none) :
    withTenure q before after act s = act s := by
  simp [withTenure, pass, tenure, checked_pass rest]

end

/-- The checks of ROLE_PROMOTE before the tenure. -/
theorem promote_before (steward : isSteward q s = true) (open_ : caseClosed s (dCase q.d) = false) (good : dirty shRolePromote q = false)
    (source : badSource q false = false) (role : dByte q.d 29 ≤ 239) (tile : dByte q.d 30 ≤ 95) :
    firstOf [(!isSteward q s, .refusedOwnership), (caseClosed s (dCase q.d), .shuttered),
      (dirty shRolePromote q || badSource q false || decide (239 < dByte q.d 29) || decide (95 < dByte q.d 30), .badField)] = none := by
  simp [firstOf, steward, open_, good, source, role, tile]

theorem promote_after (able : promotable q s = true) (spare : badSpare q s = false) (routes : overRoutes q s = false)
    (idle : placementBusy s = false) :
    firstOf [(!promotable q s, .badField), (badSpare q s, .regionViolation), (overRoutes q s, .conflict), (placementBusy s, .busy)] =
      none := by
  simp [firstOf, able, spare, routes, idle]

theorem retire_before (steward : isSteward q s = true) (open_ : caseClosed s (dCase q.d) = false) (good : dirty shRoleRetire q = false)
    (role : dByte q.d 29 ≤ 239) (tile : dByte q.d 30 ≤ 95) :
    firstOf [(!isSteward q s, .refusedOwnership), (caseClosed s (dCase q.d), .shuttered),
      (dirty shRoleRetire q || decide (239 < dByte q.d 29) || decide (95 < dByte q.d 30), .badField)] = none := by
  simp [firstOf, steward, open_, good, role, tile]

theorem retire_after (able : retirable q s = true) (free : loadTouches s (dCase q.d) = false) (still : epochBusy s = false) :
    firstOf [(!retirable q s, .badField), (loadTouches s (dCase q.d) || epochBusy s, .busy)] = none := by
  simp [firstOf, able, free, still]

/-- A promotion that begins has the loader wait for the image in pass 1. -/
theorem beginPromotion_load (able : promotable q s = true) :
    (beginPromotion q s).load.phase = .pass1 ∧ (beginPromotion q s).load.purpose = .promote := by
  simp only [promotable, Bool.and_eq_true, Option.isSome_iff_exists] at able
  obtain ⟨⟨v, survivor⟩, st⟩ := able
  have found : ∃ k, getCase s (dCase q.d) = some k := by
    cases h : getCase s (dCase q.d) with
    | none => simp [caseState, h] at st
    | some k => exact ⟨k, rfl⟩
  obtain ⟨k, found⟩ := found
  unfold beginPromotion
  simp only [found, survivor]
  rw [(Settling.fabricSide_settleFabric (Settling.FabricSide.refl _) _).load]
  exact ⟨rfl, rfl⟩

theorem tileRetestBody_serves (steward : isSteward q s = true) (good : dirty shTileOnly q = false)
    (retired : retiredTile s (dByte q.d 30) = true) (idle : testBusy s (dByte q.d 30) = false)
    (roleless : roleIn (hubBank s) (dByte q.d 30) = none) :
    tileRetestBody q s = (.later, modCtl (tileReset s (dByte q.d 30)) (dByte q.d 30) (fun c => { c with test := some (false, q) })) := by
  unfold tileRetestBody
  refine checked_pass ?_
  simp [testChecks, firstOf, steward, good, retired, idle, roleless]

theorem tileRepairBody_serves (steward : isSteward q s = true) (good : dirty shTileOnly q = false)
    (retired : retiredTile s (dByte q.d 30) = true) (idle : testBusy s (dByte q.d 30) = false) :
    tileRepairBody q s = (.later, modCtl s (dByte q.d 30) (fun c => { c with test := some (true, q) })) := by
  unfold tileRepairBody
  refine checked_pass ?_
  simp [testChecks, firstOf, steward, good, retired, idle]

section
variable (steward : isSteward q s = true) (good : dirty shFwLoad q = false) (least : 64 ≤ q.d.length.toNat)
  (most : q.d.length.toNat ≤ 524288)
include steward good least most

theorem tcFwLoadBody_busy (runA : slotRun s false = true) (runB : slotRun s true = true) : tcFwLoadBody q s = (.done .busy 0, s) := by
  unfold tcFwLoadBody
  refine checked_fail ?_
  simp [firstOf, steward, good, runA, runB, show ¬ q.d.length.toNat < 64 by omega, show ¬ 524288 < q.d.length.toNat by omega]

theorem tcFwLoadBody_writes (free : (slotRun s true && slotRun s false) = false) : tcFwLoadBody q s = fwWrite q s := by
  unfold tcFwLoadBody
  refine checked_pass ?_
  simp [firstOf, steward, good, free, show ¬ q.d.length.toNat < 64 by omega, show ¬ 524288 < q.d.length.toNat by omega]

end

/-- The image of a firmware load, as it is read from host memory. -/
def fwImage (q : Req) : List Byte := padTo q.d.length.toNat (q.io.dataA.take q.d.length.toNat)

theorem fwWrite_ok (ok : q.io.bufOk = true) : fwWrite q s =
    if Config.firmwareSigned (fwImage q) = false then (.done .authFail 0, s)
    else if Config.firmwareVersion (fwImage q) < s.hub.fwCounter then (.done .rollbackRefused 0, s)
    else (.done .ok (!slotRun s true).toNat,
      modHub s (fun h => if !slotRun s true then { h with fwB := fwImage q } else { h with fwA := fwImage q })) := by
  unfold fwWrite fwImage
  dsimp only
  generalize padTo q.d.length.toNat (q.io.dataA.take q.d.length.toNat) = img
  cases signed : Config.firmwareSigned img with
  | false => simp [ok, checked, firstOf]
  | true => by_cases old : Config.firmwareVersion img < s.hub.fwCounter <;> simp [ok, checked, firstOf, old]

/-- TC_FW_LOAD by the verdict on its image. -/
theorem next_fwLoad {s0 : State} (begins : Begins q s0 s) (op : q.d.op = 0x2A) {signed old : Prop} [Decidable signed] [Decidable old]
    {n : Nat} {u : State} (body : tcFwLoadBody q s = if signed then (.done .authFail 0, s)
      else if old then (.done .rollbackRefused 0, s) else (.done .ok n, u)) :
    exec (.tcFwLoad q) s0 = .next (if signed then complete q .authFail 0 s
      else if old then complete q .rollbackRefused 0 s else complete q .ok n u) := by
  by_cases bad : signed
  · rw [if_pos bad] at body ⊢
    exact next_done begins op (by decide) body (by decide)
  · rw [if_neg bad] at body ⊢
    by_cases rolled : old
    · rw [if_pos rolled] at body ⊢
      exact next_done begins op (by decide) body (by decide)
    · rw [if_neg rolled] at body ⊢
      exact next_done begins op (by decide) body (by decide)

theorem tcFwActivateBody_serves (steward : isSteward q s = true) (good : dirty shFwActivate q = false) (tile : dByte q.d 30 ≤ 95)
    (slot : dByte q.d 31 ≤ 1) (none_ : ∀ t : Nat, t < 96 → (getTile s t).ctl.restarting = false)
    (free : tilePlaced s (dByte q.d 30) = false) :
    tcFwActivateBody q s = (.later, modCtl s (dByte q.d 30) (fun c => { c with
      restarting := true, activate := some q, formerB := c.slotB, slotB := dByte q.d 31 == 1 })) := by
  have still : allTiles.any (fun u => (getTile s u).ctl.restarting) = false := by
    simpa [allTiles] using none_
  unfold tcFwActivateBody
  exact checked_pass (by
    simp [firstOf, steward, good, still, free, show ¬ 95 < dByte q.d 30 by omega, show ¬ 1 < dByte q.d 31 by omega])

end

/-! #### Ends of copies and tests -/

section
variable {t : TileId} {r : MarchResult} {q : Req} {s : State}

theorem marchTestDone_retest (test : (getTile s t).ctl.test = some (false, q)) :
    exec (.marchTestDone t r) s = .next (retestDone (modCtl s t (fun c => { c with test := none })) t q r) := by
  simp [exec, execMarchTestDone, test]

theorem marchTestDone_repair (test : (getTile s t).ctl.test = some (true, q)) :
    exec (.marchTestDone t r) s = .next (repairDone (modCtl s t (fun c => { c with test := none })) t q r) := by
  simp [exec, execMarchTestDone, test]

def spared (s : State) (t : TileId) : State :=
  modTile (modCtl s t (fun c => { c with test := none })) t (fun x =>
    { x with net := { x.net with localSt := .spare }, ctl := { x.ctl with failSilent := false } })

/-- The state in which a retest has passed: the tile is SPARE, and a tile of no casement. -/
def pooled (s : State) (t : TileId) : State :=
  { spared s t with cases := mmap (fun _ k => { k with region := setBit k.region t false }) (spared s t).cases }

theorem getTile_pooled (s : State) (t : TileId) : getTile (pooled s t) t = { getTile s t with
    net := { (getTile s t).net with localSt := .spare },
    ctl := { (getTile s t).ctl with test := none, failSilent := false } } := by
  show getTile (spared s t) t = _
  rw [spared, getTile_modTile_self, getTile_modCtl_self]

theorem getTile_pooled_ne (s : State) {t : TileId} {v : Nat} (other : v ≠ t) : getTile (pooled s t) v = getTile s v := by
  show getTile (spared s t) v = _
  rw [spared, getTile_modTile_ne _ _ other, getTile_modCtl_ne s _ other]

section
variable (test : (getTile s t).ctl.test = some (false, q)) (works : (getTile s t).ctl.restarting = false)
include test works

theorem retest_passes (pass : r.pass = true) (sound : (getTile s t).net.condemned = false) :
    exec (.marchTestDone t r) s = .next (complete q .ok 0 (post (pooled s t) 0x209 1 t 0 0)) := by
  have ok : (r.pass && !(getTile (modCtl s t (fun c => { c with test := none })) t).net.condemned) = true := by
    rw [getTile_modCtl_self, pass, sound]
    rfl
  have works' : (getTile (pooled s t) t).ctl.restarting = false := by rw [getTile_pooled]; exact works
  rw [marchTestDone_retest test, retestDone, ok]
  exact congrArg (fun u => Host.Outcome.next (complete q .ok 0 u)) (Fabric.postTile_works works' _ _ _ _ _)

theorem retest_fails (fails : r.pass = false ∨ (getTile s t).net.condemned = true) :
    exec (.marchTestDone t r) s = .next (complete q .ok (1 + 2 ^ 8 * r.failing.toNat)
      (post (modCtl s t (fun c => { c with test := none })) 0x209 1 t 1 r.failing.toNat)) := by
  have bad : (r.pass && !(getTile (modCtl s t (fun c => { c with test := none })) t).net.condemned) = false := by
    rw [getTile_modCtl_self]
    rcases fails with f | c
    · rw [f]; rfl
    · simp [c]
  have works' : (getTile (modCtl s t (fun c => { c with test := none })) t).ctl.restarting = false := by
    rw [getTile_modCtl_self]; exact works
  rw [marchTestDone_retest test, retestDone, bad]
  exact congrArg (fun u => Host.Outcome.next (complete q .ok (1 + 2 ^ 8 * r.failing.toNat) u))
    (Fabric.postTile_works works' _ _ _ _ _)

end

/-- The copy that a commit of the row map writes. -/
def newCopy (c : Ctl) (istore slots : Map (List Nat)) : RepairCopy :=
  { istore := istore, slots := slots, seqNo := (repairOf c).seqNo + 1, crcGood := true, mark := 0xA5 }

/-- The copy written becomes the one in use: its number is one more than that of the copy before. -/
theorem repairOf_repairCommit {c : Ctl} (room : (repairOf c).seqNo ≠ 0xFFFFFFFF) (istore slots : Map (List Nat)) :
    repairOf (repairCommit c istore slots) = newCopy c istore slots := by
  have good : repairGood (newCopy c istore slots) = true := rfl
  have next : (newCopy c istore slots).seqNo.toNat = (repairOf c).seqNo.toNat + 1 := by
    show ((repairOf c).seqNo + 1).toNat = _
    bv_omega
  have commit : repairCommit c istore slots = if repairGood c.repairA && !(repairGood c.repairB && repairNewerB c)
    then { c with repairB := newCopy c istore slots } else { c with repairA := newCopy c istore slots } := rfl
  rw [commit]
  cases a : repairGood c.repairA with
  | false =>
    cases b : repairGood c.repairB with
    | false => simp [repairOf, b, good]
    | true =>
      have used : repairOf c = c.repairB := by simp [repairOf, a, b]
      rw [used] at next
      simp [repairOf, b, good, repairNewerB, next]
  | true =>
    have used (older : (repairGood c.repairB && repairNewerB c) = false) : repairOf c = c.repairA := by
      cases b : repairGood c.repairB <;> simp_all [repairOf]
    cases newer : repairGood c.repairB && repairNewerB c with
    | false =>
      rw [used newer] at next
      simp [repairOf, a, good, repairNewerB, next]
    | true =>
      obtain ⟨b, later⟩ := (Bool.and_eq_true _ _).mp newer
      have used : repairOf c = c.repairB := by simp [repairOf, a, b, later]
      rw [used] at next
      simp [repairOf, b, good, repairNewerB, next]

end

/-- The rows that a repair maps: the map, how many were mapped, and whether a bank ran out of spares. -/
def mappedRows (s : State) (t : TileId) (r : MarchResult) : RepairCopy × Nat × Bool :=
  (r.slotRows.map (fun p => (p.1.val, p.2.val))).foldl (mapRow t true)
    ((r.istoreRows.map (fun p => (p.1.val, p.2.val))).foldl (mapRow t false) (repairOf (getTile s t).ctl, 0, false))

theorem repair_commits {t : TileId} {r : MarchResult} {q : Req} {s : State} (test : (getTile s t).ctl.test = some (true, q))
    (works : (getTile s t).ctl.restarting = false) (room : (repairOf (getTile s t).ctl).seqNo ≠ 0xFFFFFFFF) :
    let l := mappedRows s t r
    ∃ u, exec (.marchTestDone t r) s = .next (complete q .ok (l.2.1 % 65536 + 2 ^ 16 * l.2.2.toNat) (post u 0x20A 1 t l.2.2.toNat l.2.1)) ∧
      (repairOf (getTile u t).ctl).istore = l.1.istore ∧ (repairOf (getTile u t).ctl).slots = l.1.slots ∧
      (getTile u t).net.condemned = ((getTile s t).net.condemned || l.2.2) ∧
      (getTile u t).net.localSt = (getTile s t).net.localSt ∧
      (∀ v : Nat, v ≠ t → getTile u v = getTile s v) ∧ u.dev = s.dev ∧ u.cases = s.cases := by
  intro l
  let s1 := modCtl s t (fun c => { c with test := none })
  have tile : getTile s1 t = { getTile s t with ctl := { (getTile s t).ctl with test := none } } := getTile_modCtl_self s _ _
  have rows : mappedRows s1 t r = l := by
    unfold mappedRows
    rw [tile]
    rfl
  let u := modTile s1 t (fun x => { x with
    ctl := repairCommit x.ctl l.1.istore l.1.slots, net := { x.net with condemned := x.net.condemned || l.2.2 } })
  have after : getTile u t = { getTile s t with
      ctl := repairCommit { (getTile s t).ctl with test := none } l.1.istore l.1.slots,
      net := { (getTile s t).net with condemned := (getTile s t).net.condemned || l.2.2 } } := by
    rw [getTile_modTile_self, tile]
  have copy : repairOf (getTile u t).ctl = newCopy { (getTile s t).ctl with test := none } l.1.istore l.1.slots := by
    rw [after]
    exact repairOf_repairCommit (c := { (getTile s t).ctl with test := none }) room _ _
  have works' : (getTile u t).ctl.restarting = false := by
    rw [after]
    unfold repairCommit
    dsimp only
    split <;> exact works
  have done_ : repairDone s1 t q r = complete q .ok (l.2.1 % 65536 + 2 ^ 16 * l.2.2.toNat) (postTile u t 0x20A 1 t l.2.2.toNat l.2.1) := by
    show complete q .ok ((mappedRows s1 t r).2.1 % 65536 + 2 ^ 16 * (mappedRows s1 t r).2.2.toNat) (postTile (modTile s1 t (fun x => { x with
      ctl := repairCommit x.ctl (mappedRows s1 t r).1.istore (mappedRows s1 t r).1.slots,
      net := { x.net with condemned := x.net.condemned || (mappedRows s1 t r).2.2 } })) t 0x20A 1 t
      (mappedRows s1 t r).2.2.toNat (mappedRows s1 t r).2.1) = _
    rw [rows]
  refine ⟨u, ?_, by rw [copy]; rfl, by rw [copy]; rfl, by rw [after], by rw [after],
    fun v other => (getTile_modTile_ne s1 _ other).trans (getTile_modCtl_ne s _ other), rfl, rfl⟩
  rw [marchTestDone_repair test, done_, Fabric.postTile_works works']

/-- Settles O39: descriptors by their bodies, the tests by what a tile's controller then holds. -/
theorem rolesAndTilesTakeEffect : Obligations.RolesAndTilesTakeEffect := by
  refine ⟨fun q s0 s begins => ⟨fun steward open_ good source role tile => ?_, fun steward open_ good role tile => ?_,
    fun steward good retired idle => ⟨fun roleless op => ?_, fun op => ?_⟩, fun steward good least most ok => ?_,
    fun steward good tile slot none_ free op => ?_⟩, ?_, ?_, ?_⟩
  · have before := promote_before steward open_ good source role tile
    refine ⟨fun stale op => ?_, fun tenure able spare routes idle op => ?_⟩
    · exact next_done begins op (by decide) (withTenure_stale before stale) (by decide)
    · exact ⟨next_later begins op (by decide) (withTenure_pass before tenure (promote_after able spare routes idle)),
        beginPromotion_load able⟩
  · have before := retire_before steward open_ good role tile
    refine ⟨fun stale op => ?_, fun tenure able free still op => ?_⟩
    · exact next_done begins op (by decide) (withTenure_stale before stale) (by decide)
    · exact next_later begins op (by decide) (withTenure_pass before tenure (retire_after able free still))
  · exact next_later begins op (by decide) (tileRetestBody_serves steward good retired idle roleless)
  · exact next_later begins op (by decide) (tileRepairBody_serves steward good retired idle)
  · intro img taken
    refine ⟨fun freeB op => ?_, fun runB freeA op => ?_, fun runB runA op => ?_⟩
    · have body := (tcFwLoadBody_writes steward good least most (by rw [freeB]; rfl)).trans (fwWrite_ok ok)
      rw [freeB] at body
      exact next_fwLoad begins op body
    · have body := (tcFwLoadBody_writes steward good least most (by rw [freeA, Bool.and_false])).trans (fwWrite_ok ok)
      rw [runB] at body
      exact next_fwLoad begins op body
    · exact next_done begins op (by decide) (tcFwLoadBody_busy steward good least most runA runB) (by decide)
  · exact next_later begins op (by decide) (tcFwActivateBody_serves steward good tile slot none_ free)
  · intro s p k promo copying found running
    simp [exec, execBackgroundCopyDone, promo, copying, found, running]
  · intro t r q s test works
    refine ⟨fun pass sound => ⟨pooled s t, retest_passes test works pass sound, ?_⟩, retest_fails test works⟩
    rw [getTile_pooled]
    exact ⟨rfl, rfl, rfl, rfl, rfl, fun v other => getTile_pooled_ne s other, rfl, rfl, rfl⟩
  · intro t r q s test works room i l bad
    exact repair_commits test works room

end Sys2Proof.Roles
end

section
/-! ### The bulk stream port's codes and descriptors -/

namespace Sys2Proof.StreamCodes

open Sys2Proof Sys2Proof.Machine Sys2Proof.Descriptors

/-! #### The scrambler (R301) -/

/-- A block and its copies shifted by the taps: further shifts by a tap leave only the block's own. -/
theorem tap_of_scrambled (c : BitVec 64) {n : Nat} (tap : 39 ≤ n) : (c ^^^ c <<< 39 ^^^ c <<< 58) <<< n = c <<< n := by
  have past (m : Nat) (h : 64 ≤ m + n) : c <<< m <<< n = 0#64 := by
    rw [← BitVec.shiftLeft_add]
    exact BitVec.shiftLeft_eq_zero h
  rw [BitVec.shiftLeft_xor_distrib, BitVec.shiftLeft_xor_distrib, past 39 (by omega), past 58 (by omega)]
  simp

/-- Settles O43: both taps of a scrambled block are taps of what was scrambled. -/
theorem descramblerUndoesScrambler : Obligations.DescramblerUndoesScrambler := by
  intro r x
  unfold descramble scramble
  dsimp only
  rw [tap_of_scrambled _ (by decide), tap_of_scrambled _ (by decide)]
  generalize (r >>> 19).zeroExtend 64 = early
  generalize r.zeroExtend 64 = late
  ext i
  simp only [BitVec.getElem_xor]
  grind

/-! #### Pattern frames of one literal run -/

section
variable {lit : List Byte} (some_ : 1 ≤ lit.length) (short_ : lit.length ≤ 64)
include some_ short_

theorem toNat_literal : (BitVec.ofNat 8 (0x7F + lit.length)).toNat = 0x7F + lit.length := by
  rw [BitVec.toNat_ofNat]
  omega

theorem tokens_literal (n : Nat) : tokens (n + 1) (BitVec.ofNat 8 (0x7F + lit.length) :: lit) = [.bytes lit] := by
  have run : tokens n [] = [] := by cases n <;> rfl
  rw [tokens, toNat_literal some_ short_]
  simp [show ¬ 127 + lit.length < 128 by omega, show 127 + lit.length < 192 by omega, run]

theorem decodeTokens_literal : decodeTokens lit.length (BitVec.ofNat 8 (0x7F + lit.length) :: lit) = .ok lit := by
  unfold decodeTokens
  rw [List.length_cons, tokens_literal some_ short_]
  simp [Token.length, Token.append]

end

theorem zipWith_xor_zeros (l : List Byte) : List.zipWith (· ^^^ ·) l (List.replicate l.length 0) = l := by
  induction l with
  | nil => rfl
  | cons b l ih => simpa [List.replicate_succ] using ih

/-- The 16 bytes in front of the coded data of a pattern frame. -/
def frameHeader (n : Nat) (key alt : Bool) (number : Nat) : List Byte :=
  leBytes 2 (n - 1) ++ [BitVec.ofNat 8 (key.toNat + 2 * alt.toNat), 0] ++ leBytes 4 number ++ leBytes 8 0

theorem frameHeader_fields {n : Nat} (some_ : 1 ≤ n) (short_ : n ≤ 64) (key alt : Bool) (number : Nat) (rest : List Byte) :
    let f := frameHeader n key alt number ++ rest
    fieldAt f 0 2 + 1 = n ∧ byteAt f 2 = key.toNat + 2 * alt.toNat ∧ byteAt f 3 = 0 ∧ fieldAt f 8 8 = 0 ∧ f.drop 16 = rest ∧
    16 ≤ f.length := by
  refine ⟨?_, ?_, ?_, ?_, ?_, ?_⟩
  · simp [frameHeader, leBytes, fieldAt, slice, leNat]
    omega
  · cases key <;> cases alt <;> simp [frameHeader, leBytes, byteAt]
  · simp [frameHeader, leBytes, byteAt]
  · simp [frameHeader, leBytes, fieldAt, slice, leNat]
  · simp [frameHeader, leBytes]
  · simp [frameHeader, leBytes]

/-- Settles O41: the header's fields, the one token, and the reference. -/
theorem patternFramesDecode : Obligations.PatternFramesDecode := by
  intro x b lit ref key alt number bind some_ short_ small reference fits head
  obtain ⟨size, flags, zero, tail, coded, long⟩ := frameHeader_fields some_ short_ key alt number
    ([BitVec.ofNat 8 (0x7F + lit.length)] ++ lit)
  have frame : head ++ [BitVec.ofNat 8 (0x7F + lit.length)] ++ lit =
      frameHeader lit.length key alt number ++ ([BitVec.ofNat 8 (0x7F + lit.length)] ++ lit) := List.append_assoc _ _ _
  have flagLow : ¬ 3 < key.toNat + 2 * alt.toNat := by cases key <;> cases alt <;> decide
  have keyBit : bitAt (key.toNat + 2 * alt.toNat) 0 = key := by cases key <;> cases alt <;> rfl
  have altBit : bitAt (key.toNat + 2 * alt.toNat) 1 = alt := by cases key <;> cases alt <;> rfl
  have inside (block : Nat) (h : block = if alt then b.alternate else b.primary) : frameFits b block lit.length = true := by
    subst h
    cases fabric : b.fabric <;> simpa [frameFits, fabric] using fits
  have data : decodeTokens lit.length ([BitVec.ofNat 8 (0x7F + lit.length)] ++ lit) = .ok lit := decodeTokens_literal some_ short_
  rw [frame, decodeFrame]
  simp only [bind, size, flags, zero, tail, coded, data, keyBit, altBit, flagLow, show ¬ 8192 < lit.length by omega,
    Nat.not_lt.mpr long, decide_false, bne_self_eq_false, Bool.or_self, Bool.false_eq_true, if_false, inside _ rfl, Bool.not_true]
  cases key with
  | true => simpa using zipWith_xor_zeros lit
  | false =>
    obtain ⟨hasRef, refLength⟩ := reference rfl
    simp [hasRef, refLength]

/-! #### Descriptors -/

section
variable {q : Req} {k : Casement} {s : State}

section
variable (steward : isSteward q s = true) (good : dirty shBspLink q = false) (rate : dByte q.d 28 ≤ 3)
  (width : dByte q.d 29 ∈ [1, 2, 4, 8])
include steward good rate width

theorem bspLinkBody_relinks : bspLinkBody q s = relink q s := by
  have known : [1, 2, 4, 8].contains (dByte q.d 29) = true := List.contains_iff_mem.mpr width
  unfold bspLinkBody
  exact checked_pass (by
    rw [firstOf_cons_false (by rw [steward]; rfl), firstOf_cons_false (by rw [good, known]; simpa using rate)]
    rfl)

variable (free : s.bsp.linkReq = none)
include free

theorem bspLinkBody_trains (on : dByte q.d 28 ≠ 0) : bspLinkBody q s = (.later, modBsp s (fun b => { startTraining b with
    set := some (dByte q.d 28, dByte q.d 29), linkReq := some q })) := by
  rw [bspLinkBody_relinks steward good rate width, relink, free]
  exact if_neg on

theorem bspLinkBody_off (off : dByte q.d 28 = 0) : bspLinkBody q s = (.done .ok 0, modBsp s (fun b => { startTraining b with
    set := some (0, dByte q.d 29), training := false, retrains := b.retrains })) := by
  rw [bspLinkBody_relinks steward good rate width, relink, free, off]
  rfl

end

theorem bspStatusBody_serves (good : dirty shBspStatus q = false) (long : 64 ≤ q.d.length.toNat) (ok : q.io.bufOk = true) :
    bspStatusBody q s = (.done .ok 0, hostWrite s q.host q.d.addrA (bspStatusBytes s)) := by
  unfold bspStatusBody
  rw [checked_pass (by rw [firstOf_cons_false (by rw [good, short_false long]; rfl)]; rfl)]
  exact replyCopy_ok ok

section
variable (good : dirty shStreamBind q = false) (stream : dByte q.d 29 ≤ 11) (bind : badBind q = false)
  (free : bound2Other q (dByte q.d 29) s = false)
include good stream bind free

theorem streamBind_rest : firstOf [(dirty shStreamBind q || decide (11 < dByte q.d 29) || badBind q, Status.badField),
    (bound2Other q (dByte q.d 29) s, .conflict)] = none := by
  simp [firstOf, good, bind, free, stream]

variable (names : NamesTile q k)
include names

theorem bspStreamBindBody_binds (h : Serves q .poke (some (dByte q.d 28)) k s) (on : bitAt (dByte q.d 30) 0 = true) :
    bspStreamBindBody q s = (.done .ok 0, markChanged (flushStreams (modStream s (dByte q.d 29)
      (fun x => { x with bind := some (newBind q (Fin.ofNat 96 (dByte q.d 28))) })) [dByte q.d 29]) (dCase q.d)) := by
  obtain ⟨low, inside⟩ := names
  have id_ : tileId (dByte q.d 28) = some (Fin.ofNat 96 (dByte q.d 28)) := by
    rw [tileId, dif_pos low]
    exact congrArg some (Fin.ext (Nat.mod_eq_of_lt low).symm)
  unfold bspStreamBindBody
  dsimp only
  rw [on, checked_pass (by
    rw [if_pos rfl, firstOf_append (r59Tile_pass h ⟨low, inside⟩)]
    exact streamBind_rest good stream bind free)]
  rw [id_]

theorem bspStreamBindBody_unbinds (h : Serves q .peek (some (dByte q.d 28)) k s) (off : bitAt (dByte q.d 30) 0 = false) :
    bspStreamBindBody q s = (.done .ok 0, markChanged (unbindStream s (dByte q.d 29)) (dCase q.d)) := by
  unfold bspStreamBindBody
  dsimp only
  rw [off, checked_pass (by
    rw [if_neg Bool.false_ne_true, firstOf_append (r59Tile_pass h names)]
    exact streamBind_rest good stream bind free)]

end

theorem bspExportSetBody_serves (names : NamesTile q k) (h : Serves q .poke (some (dByte q.d 28)) k s)
    (good : dirty shExportSet q = false) :
    bspExportSetBody q s = (.done .ok 0, markChanged (modCv s (dByte q.d 28) (fun v => { v with
      expMask := BitVec.ofNat 32 (dW32 q.d 32) })) (dCase q.d)) := by
  unfold bspExportSetBody
  exact checked_pass (by rw [firstOf_append (r59Tile_pass h names), firstOf_cons_false good]; rfl)

theorem bspStreamResetBody_serves (h : Serves q .poke none k s) (good : dirty shStreamReset q = false) (stream : dByte q.d 29 ≤ 11)
    (free : bound2Other q (dByte q.d 29) s = false) :
    bspStreamResetBody q s = (.done .ok 0, modStream s (dByte q.d 29) (fun x => { x with part := none, ref := none })) := by
  unfold bspStreamResetBody
  exact checked_pass (by
    rw [firstOf_append (r59_pass h), firstOf_cons_false (by simp [good, stream]), firstOf_cons_false free]; rfl)

theorem bspOutSetBody_serves (steward : isSteward q s = true) (good : dirty shOutSet q = false) :
    bspOutSetBody q s = (.done .ok 0, modBsp s (fun b => { b with outEn := BitVec.ofNat 3 (dByte q.d 28) })) := by
  unfold bspOutSetBody
  exact checked_pass (by rw [firstOf_cons_false (by rw [steward]; rfl), firstOf_cons_false good]; rfl)

end

/-- Settles O42: what each descriptor's body answers. -/
theorem streamPortDescriptorsTakeEffect : Obligations.StreamPortDescriptorsTakeEffect := by
  intro q s0 s begins
  refine ⟨fun steward good rate width free => ⟨fun on op => ?_, fun off op => ?_⟩, fun good long ok op => ?_,
    fun k names good stream bind free => ⟨fun h on op => ?_, fun h off op => ?_⟩, fun k names h good op => ?_,
    fun k h good stream free op => ?_, fun steward good op => ?_⟩
  · exact next_later begins op (by decide) (bspLinkBody_trains steward good rate width free on)
  · exact next_done begins op (by decide) (bspLinkBody_off steward good rate width free off) (by decide)
  · exact next_done begins op (by decide) (bspStatusBody_serves good long ok) (by decide)
  · exact next_done begins op (by decide) (bspStreamBindBody_binds good stream bind free names h on) (by decide)
  · exact next_done begins op (by decide) (bspStreamBindBody_unbinds good stream bind free names h off) (by decide)
  · exact next_done begins op (by decide) (bspExportSetBody_serves names h good) (by decide)
  · exact next_done begins op (by decide) (bspStreamResetBody_serves h good stream free) (by decide)
  · exact next_done begins op (by decide) (bspOutSetBody_serves steward good) (by decide)

end Sys2Proof.StreamCodes
end

section
/-! ### The bulk stream port: training, blocks and segments -/

namespace Sys2Proof.StreamPort

open Sys2Proof Sys2Proof.Machine

/-! #### Training, lanes and segments sent -/

theorem linkLost_up {s : State} (up : s.bsp.up = true) (cause : Nat) :
    linkLost s cause = post (modBsp s startTraining) 0x502 5 cause 0 0 := if_pos up

theorem laneLockLoss_up {n : Fin 8} {s : State} (up : s.bsp.up = true) (locked : s.bsp.locked.getLsbD n = true) :
    exec (.laneLockLoss n) s = .next (post (modBsp (post (modBsp s (fun b => { b with locked := setBit b.locked n false }))
      0x503 5 n 0 0) startTraining) 0x502 5 1 0 0) := by
  have up' : (post (modBsp s (fun b => { b with locked := setBit b.locked n false })) 0x503 5 n 0 0).bsp.up = true := up
  simp only [exec, execLaneLockLoss, locked, if_true, linkLost_up up']

theorem bspLinkUp_locks {lanes : List (List LinkBlock)} {w : Nat} {s : State} (training : s.bsp.training = true)
    (on : s.dev.bspDom = .on) (supply : s.dev.vsd = true) (free : s.bsp.linkReq = none) {locked : BitVec 8}
    (lock : locked = (lanes.zip (List.range 8)).foldl (fun v q => if hasLocked q.1 then setBit v q.2 true else v) (0 : BitVec 8))
    (width : trainedWidth (linkSet s.bsp).2 locked = some w) :
    exec (.bspLinkUp lanes) s = .next ((List.range 13).foldl topUp (post (modBsp s (fun b => { b with
      up := true, training := false, rate := (linkSet s.bsp).1, width := w, locked := locked, txNext := 0, rxSeg := .none,
      rxLane := 0, rxScr := lastBits lanes, txSlots := 0 })) 0x501 5 (linkSet s.bsp).1 w 0)) := by
  simp only [exec, execBspLinkUp, ← lock, training, on, supply, width, free, Bool.not_true, bne_self_eq_false, Bool.or_self,
    Bool.false_eq_true, if_false]

theorem sendExports_sends {s : State} (up : s.bsp.up = true) (room : s.bsp.replay.length < 64) (enabled : s.bsp.outEn.getLsbD 0 = true)
    (some_ : 0 < s.bsp.exports.length) (credits : 0 < mget 0 s.bsp.credits 13) :
    ∃ n : Nat, 1 ≤ n ∧ n ≤ 64 ∧ n ≤ s.bsp.exports.length ∧ exec (.bspSegmentSend 13) s = .next (sendSegment
      (modBsp { s with fresh := s.fresh + 1 } (fun b => { b with exports := b.exports.drop n })) 13 0
      ((s.bsp.exports.take n).flatMap (·.bytes))) := by
  have top : 0 < min (min 64 s.bsp.exports.length) (creditBytes s 13 / 32) := by
    have bytes : 256 ≤ creditBytes s 13 := by
      unfold creditBytes
      omega
    omega
  have drawn : Config.freeNat s.fresh 31 % min (min 64 s.bsp.exports.length) (creditBytes s 13 / 32) <
      min (min 64 s.bsp.exports.length) (creditBytes s 13 / 32) := Nat.mod_lt _ top
  refine ⟨1 + Config.freeNat s.fresh 31 % min (min 64 s.bsp.exports.length) (creditBytes s 13 / 32), by omega, by omega, by omega, ?_⟩
  have sends : exec (.bspSegmentSend 13) s = .next (sendExports s) := by
    have open_ : (decide (13 < 13) || !s.bsp.up || decide (64 ≤ s.bsp.replay.length) || !s.bsp.outEn.getLsbD (13 - 13)) = false := by
      rw [up, show (13 - 13) = 0 from rfl, enabled]
      simpa using room
    exact congrArg Host.Outcome.next ((if_neg (by decide)).trans (if_neg (Bool.eq_false_iff.mp open_)))
  rw [sends, sendExports]
  exact congrArg Host.Outcome.next (if_neg (by omega))

theorem askFetch_asks {s : State} (up : s.bsp.up = true) (port : s.load.fromBsp = true) (idle : s.load.fetch = none)
    (pass : s.load.phase = .pass1) (stage : s.load.stage = .header) (head : s.load.head = []) :
    ∃ n : Nat, 1 ≤ n ∧ n < 65536 ∧ exec (.bspSegmentSend 12) s = .next (modBsp (modLoad { s with fresh := s.fresh + 1 }
      (fun l => { l with fetch := some (256 * n) })) (fun b => { b with txQueue := b.txQueue ++
        [{ sync := 2, bits := BitVec.ofNat 64 (7 + 2 ^ 8 * (s.load.all.length % 2 ^ 40) + 2 ^ 48 * n) }] })) := by
  have drawn : Config.freeNat s.fresh 30 % 65535 < 65535 := Nat.mod_lt _ (by decide)
  refine ⟨1 + Config.freeNat s.fresh 30 % 65535, by omega, by omega, ?_⟩
  have bits : 7 + 2 ^ 8 * (s.load.all.length % 2 ^ 40) + 2 ^ 48 * (1 + Config.freeNat s.fresh 30 % 65535) =
      7 + 256 * (s.load.all.length % 2 ^ 40 + 2 ^ 40 * (1 + Config.freeNat s.fresh 30 % 65535)) := by omega
  have due : (s.load.fromBsp && s.load.fetch.isNone && (s.load.phase == .pass1 || s.load.phase == .pass2) &&
      s.load.stage != .complete && lacks s.load && s.bsp.up) = true := by
    simp [port, idle, pass, stage, lacks, head, up]
  rw [bits]
  exact congrArg Host.Outcome.next ((if_pos rfl).trans (if_pos due))

/-! #### Blocks that arrive -/

/-- The state in which a block has been descrambled on the lane whose turn it was. -/
def seen (s : State) (b : LinkBlock) : State := modBsp s (fun p => { p with
  rxScr := mset p.rxScr p.rxLane (laneBits b.bits), rxLane := (p.rxLane + 1) % p.width })

/-- The block's 64 bits, descrambled. -/
def block (s : State) (b : LinkBlock) : BitVec 64 := descramble (mget 0 s.bsp.rxScr s.bsp.rxLane) b.bits

theorem type_ctlBlock {ty fields : Nat} (small : ty < 256) : bitsOf (ctlBlock ty fields).toNat (8 * 0) (8 * 1) = ty := by
  simp only [bitsOf, ctlBlock, BitVec.toNat_ofNat]
  omega

theorem field_ctlBlock {ty fields : Nat} (small : ty < 256) (fits : fields < 2 ^ 56) (i n : Nat) :
    bitsOf (ctlBlock ty fields).toNat (8 * (i + 1)) (8 * n) = bitsOf fields (8 * i) (8 * n) := by
  have value : (ctlBlock ty fields).toNat = ty + 256 * fields := by
    simp only [ctlBlock, BitVec.toNat_ofNat]
    omega
  have shifted : (ty + 256 * fields) / 2 ^ (8 * (i + 1)) = fields / 2 ^ (8 * i) := by
    rw [show 8 * (i + 1) = 8 + 8 * i by omega, Nat.pow_add, ← Nat.div_div_eq_div_mul]
    congr 1
    omega
  rw [bitsOf, value, shifted, bitsOf]

section
variable {b : LinkBlock} {s : State} (up : s.bsp.up = true) (on : s.dev.bspDom = .on)
include up on

theorem takeBlock_up : takeBlock s b = if b.sync = 1 then dataBlock (seen s b) (block s b)
    else if b.sync = 2 then ctlArrives (seen s b) (block s b)
    else modBsp (seen s b) (fun p => { p with blockErrors := bump p.blockErrors }) := by
  simp only [takeBlock, up, on, Bool.not_true, bne_self_eq_false, Bool.or_self, Bool.false_eq_true, if_false]
  rfl

theorem takeBlock_ctl (sync : b.sync = 2) : takeBlock s b = ctlArrives (seen s b) (block s b) := by
  rw [takeBlock_up up on, sync]
  rfl

theorem takeBlock_data (sync : b.sync = 1) : takeBlock s b = dataBlock (seen s b) (block s b) := by
  rw [takeBlock_up up on, sync]
  rfl

theorem takeBlock_bad (sync : b.sync = 0 ∨ b.sync = 3) :
    takeBlock s b = modBsp (seen s b) (fun p => { p with blockErrors := bump p.blockErrors }) := by
  rw [takeBlock_up up on]
  rcases sync with h | h <;> rw [h] <;> rfl

end

section
variable (s : State) (n : BitVec 12)

theorem ctlArrives_credit (k : Fin 16) (c : BitVec 16) (out : 13 ≤ k.val) :
    ctlArrives s (ctlBlock 0x03 (k.val + 256 * c.toNat)) =
      modBsp s (fun p => { p with credits := mset p.credits k (mget 0 p.credits k + c.toNat) }) := by
  have count := c.isLt
  have stream : bitsOf (ctlBlock 0x03 (k.val + 256 * c.toNat)).toNat (8 * 1) (8 * 1) = k.val := by
    rw [field_ctlBlock (by decide) (by omega) 0 1, bitsOf]
    omega
  have credits : bitsOf (ctlBlock 0x03 (k.val + 256 * c.toNat)).toNat (8 * 2) (8 * 2) = c.toNat := by
    rw [field_ctlBlock (by decide) (by omega) 1 2, bitsOf]
    omega
  simp only [ctlArrives, type_ctlBlock (show 3 < 256 by decide), stream, credits, takeCredit]
  rw [if_pos (by simpa using out)]

theorem seqNo_ctlBlock {ty : Nat} (small : ty < 256) :
    BitVec.ofNat 12 (bitsOf (ctlBlock ty n.toNat).toNat (8 * 1) (8 * 2)) = n := by
  have bits := n.isLt
  rw [field_ctlBlock small (by omega) 0 2, bitsOf]
  exact BitVec.eq_of_toNat_eq (by rw [BitVec.toNat_ofNat]; omega)

theorem ctlArrives_ack : ctlArrives s (ctlBlock 0x04 n.toNat) = ackSegments s n := by
  simp only [ctlArrives, type_ctlBlock (show 4 < 256 by decide), seqNo_ctlBlock n (show 4 < 256 by decide)]

theorem ctlArrives_nak : ctlArrives s (ctlBlock 0x05 n.toNat) = resendFrom s n := by
  simp only [ctlArrives, type_ctlBlock (show 5 < 256 by decide), seqNo_ctlBlock n (show 5 < 256 by decide)]

theorem ctlArrives_align (lane : Fin 8) {width rate : Nat} (inside : lane.val < s.bsp.width) (wide : width ≤ 8) (fast : rate ≤ 3) :
    ctlArrives s (ctlBlock 0x06 (lane.val + 256 * width + 65536 * rate)) =
      modBsp s (fun p => { p with rxLane := (lane.val + 1) % p.width }) := by
  have order : bitsOf (ctlBlock 0x06 (lane.val + 256 * width + 65536 * rate)).toNat (8 * 1) (8 * 1) = lane.val := by
    rw [field_ctlBlock (by decide) (by omega) 0 1, bitsOf]
    omega
  simp only [ctlArrives, type_ctlBlock (show 6 < 256 by decide), order, if_pos inside]

theorem ctlArrives_reserved {x : BitVec 64} (type_ : x.toNat % 256 = 0 ∨ 8 ≤ x.toNat % 256) :
    ctlArrives s x = modBsp s (fun p => { p with blockErrors := bump p.blockErrors }) := by
  have field : bitsOf x.toNat (8 * 0) (8 * 1) = x.toNat % 256 := by simp [bitsOf]
  unfold ctlArrives
  dsimp only
  rw [field]
  split <;> first | omega | rfl

end

section
variable {s : State} {n : BitVec 12} {p : SentSeg} {l : List SentSeg} (front : s.bsp.replay = p :: l) (sent : p.seqNo = n)
include front sent

theorem ackSegments_front (mode : s.jnl.mode ≠ 1) :
    ackSegments s n = modBsp s (fun z => { z with replay := l, txNext := z.txNext - 1, txFails := none }) := by
  simp [ackSegments, front, List.findIdx?_cons, sent, mode]

theorem resendFrom_first (none_ : s.bsp.txFails = none) :
    resendFrom s n = modBsp s (fun z => { z with txNext := 0, txFails := some (n, 1) }) := by
  simp [resendFrom, front, List.findIdx?_cons, sent, none_]

theorem resendFrom_third (up : s.bsp.up = true) {i : Nat} (many : 2 ≤ i) (fails : s.bsp.txFails = some (n, i)) :
    resendFrom s n = post (modBsp s startTraining) 0x502 5 0 0 0 := by
  simp [resendFrom, front, List.findIdx?_cons, sent, fails, show 3 ≤ i + 1 by omega, linkLost_up up]

end

theorem dataBlock_completes {s : State} {x hdr : BitVec 64} {bytes : List Byte} (body : s.bsp.rxSeg = .body hdr bytes)
    (all : bitsOf hdr.toNat 16 16 + 4 ≤ (bytes ++ leBytes 8 x.toNat).length) :
    dataBlock s x = takeSegment (modBsp s (fun p => { p with rxSeg := .none })) hdr
      ((bytes ++ leBytes 8 x.toNat).take (bitsOf hdr.toNat 16 16))
      (BitVec.ofNat 32 (fieldAt (bytes ++ leBytes 8 x.toNat) (bitsOf hdr.toNat 16 16) 4)) := by
  rw [dataBlock, body]
  exact if_neg (Nat.not_lt.mpr all)

/-! #### Segments that are complete -/

theorem takeSegment_wrongCrc {s : State} {hdr : BitVec 64} {data : List Byte} {crc : BitVec 32}
    (wrong : crc ≠ crc32 (leBytes 8 hdr.toNat ++ data)) (few : s.bsp.rxFails < 2) :
    takeSegment s hdr data crc = modBsp s (fun b => { b with
      naks := bump b.naks, rxFails := b.rxFails + 1,
      txQueue := b.txQueue ++ [{ sync := 2, bits := BitVec.ofNat 64 (5 + 256 * b.rxSeq.toNat) }] }) := by
  have bad : (crc != crc32 (leBytes 8 hdr.toNat ++ data)) = true := by simpa using wrong
  simp only [takeSegment, bad, Bool.true_or, if_true]
  exact if_neg (by simpa [sendCtl] using show ¬ 3 ≤ s.bsp.rxFails + 1 by omega)

/-- The header of a segment of stream k in sequence. -/
def headerWord (k : Nat) (first last : Bool) (len : Nat) (rxSeq : BitVec 12) : BitVec 64 :=
  BitVec.ofNat 64 (k + 2 ^ 8 * first.toNat + 2 ^ 9 * last.toNat + 2 ^ 16 * len + 2 ^ 32 * rxSeq.toNat)

theorem headerWord_fields {k len : Nat} (stream : k < 16) (first last : Bool) (short_ : len ≤ 2048) (rxSeq : BitVec 12) :
    let h := (headerWord k first last len rxSeq).toNat
    bitsOf h 0 4 = k ∧ bitsOf h 4 4 = 0 ∧ bitAt h 8 = first ∧ bitAt h 9 = last ∧ bitsOf h 10 6 = 0 ∧ bitsOf h 16 16 = len ∧
    bitsOf h 32 12 = rxSeq.toNat ∧ bitsOf h 44 20 = 0 := by
  have seqNo := rxSeq.isLt
  have f := Bool.toNat_lt first
  have l := Bool.toNat_lt last
  have value : (headerWord k first last len rxSeq).toNat =
      k + 2 ^ 8 * first.toNat + 2 ^ 9 * last.toNat + 2 ^ 16 * len + 2 ^ 32 * rxSeq.toNat := by
    rw [headerWord, BitVec.toNat_ofNat]
    omega
  intro h
  simp only [h, value, bitsOf, bitAt, Nat.testBit_eq_decide_div_mod_eq]
  refine ⟨by omega, by omega, ?_, ?_, by omega, by omega, by omega, by omega⟩
  · cases first <;> simp only [Bool.toNat_true, Bool.toNat_false, decide_eq_true_eq, decide_eq_false_iff_not] <;> omega
  · cases last <;> simp only [Bool.toNat_true, Bool.toNat_false, decide_eq_true_eq, decide_eq_false_iff_not] <;> omega

theorem takeSegment_inSequence {s : State} {k : Nat} (first last : Bool) {data : List Byte} (stream : k < 12)
    (some_ : 1 ≤ data.length) (short_ : data.length ≤ 2048) (credits : creditsOf data.length ≤ (getStream s k).granted) :
    takeSegment s (headerWord k first last data.length s.bsp.rxSeq) data
        (crc32 (leBytes 8 (headerWord k first last data.length s.bsp.rxSeq).toNat ++ data)) =
      (let s1 := modBsp s (fun b => { b with
         rxSeq := b.rxSeq + 1, rxFails := 0,
         txQueue := b.txQueue ++ [{ sync := 2, bits := BitVec.ofNat 64 (4 + 256 * b.rxSeq.toNat) }] })
       topUp (patternSegment (modStream s1 k (fun x => { x with granted := x.granted - creditsOf data.length })) k first last data) k) := by
  obtain ⟨hk, zero, hfirst, hlast, zero', hlen, hseq, zero''⟩ :=
    headerWord_fields (show k < 16 by omega) first last short_ s.bsp.rxSeq
  have inside : ¬ 13 ≤ k := by omega
  have frame : k ≠ 12 := by omega
  have paid (u : State) (h : u.bsp.streams = s.bsp.streams) : ¬ (getStream u k).granted < creditsOf data.length := by
    have same : getStream u k = getStream s k := congrArg (fun m => mget Stream.unbound m k) h
    rw [same]
    exact Nat.not_lt.mpr credits
  simp only [takeSegment, hk, zero, hfirst, hlast, zero', hlen, hseq, zero'', bne_self_eq_false, Bool.or_self,
    show ¬ data.length < 1 by omega, Nat.not_lt.mpr short_, decide_false, Bool.false_eq_true, if_false, useSegment, inside, frame]
  exact if_neg (paid _ rfl)

/-- Settles O40: ports by their events, blocks by type, segments by their header. -/
theorem streamPortEventsTakeEffect : Obligations.StreamPortEventsTakeEffect := by
  refine ⟨⟨?_, ?_, ?_, ?_, ?_⟩, ?_, ?_, ?_⟩
  · exact fun lanes w s training on supply free width => bspLinkUp_locks training on supply free rfl width
  · intro q s req down
    simp [exec, execBspTrainingTimeout, req, down]
  · exact fun n s up locked => laneLockLoss_up up locked
  · exact fun s up room enabled some_ credits => sendExports_sends up room enabled some_ credits
  · exact fun s up port idle pass stage head => askFetch_asks up port idle pass stage head
  · intro b s up on x seen_
    have ctl (sync : b.sync = 2) {y : BitVec 64} (h : x = y) : takeBlock s b = ctlArrives (seen s b) y :=
      (takeBlock_ctl up on sync).trans (congrArg (ctlArrives (seen s b)) h)
    refine ⟨fun k c sync out h => ?_, fun n p l sync h front sent mode => ?_,
      fun n p l sync h front sent => ⟨fun none_ => ?_, fun i many fails => ?_⟩, fun lane inside wide fast sync h => ?_,
      fun bad => ?_, fun hdr bytes sync body all => ?_, fun blocks => rfl⟩
    · exact congrArg Host.Outcome.next ((ctl sync h).trans (ctlArrives_credit _ k c out))
    · exact congrArg Host.Outcome.next ((ctl sync h).trans ((ctlArrives_ack _ n).trans (ackSegments_front front sent mode)))
    · exact congrArg Host.Outcome.next ((ctl sync h).trans ((ctlArrives_nak _ n).trans (resendFrom_first front sent none_)))
    · exact congrArg Host.Outcome.next ((ctl sync h).trans ((ctlArrives_nak _ n).trans (resendFrom_third front sent up many fails)))
    · have turn : exec (.bspAlign lane b) s = .next (takeBlock (modBsp s (fun p => { p with rxLane := lane.val })) b) := by
        simp [exec, execBspAlign, up, inside]
      have turned := takeBlock_ctl (s := modBsp s (fun p => { p with rxLane := lane.val })) up on sync
      have order := ctlArrives_align (seen (modBsp s (fun p => { p with rxLane := lane.val })) b) lane inside wide fast
      rw [turn, turned, show block (modBsp s (fun p => { p with rxLane := lane.val })) b = _ from h, order]
      rfl
    · refine congrArg Host.Outcome.next (show takeBlock s b = _ from ?_)
      rcases bad with zero | three | ⟨two, type_⟩
      · exact takeBlock_bad up on (.inl zero)
      · exact takeBlock_bad up on (.inr three)
      · exact (ctl two rfl).trans (ctlArrives_reserved _ type_)
    · exact congrArg Host.Outcome.next ((takeBlock_data up on sync).trans (dataBlock_completes body all))
  · exact fun hdr data crc s wrong few => takeSegment_wrongCrc wrong few
  · exact fun k first last data s stream some_ short_ credits => takeSegment_inSequence first last stream some_ short_ credits

end Sys2Proof.StreamPort
end

section
/-! ### The journal: records, descriptors and drains -/

namespace Sys2Proof.JournalRecords

open Sys2Proof Sys2Proof.Machine Sys2Proof.Descriptors

/-! #### The window -/

theorem memGet_windowPut_outside (l : List Byte) (w : List Host.Cell) (off a : Nat)
    (apart : ∀ j, j < l.length → (off + j) % windowSize ≠ a) : memGet zeroes (windowPut w off l) a = memGet zeroes w a := by
  induction l generalizing w off with
  | nil => rfl
  | cons b l ih =>
    rw [windowPut, ih _ _ (fun j hj => by
      have next := apart (j + 1) (by simpa using hj)
      rwa [show off + (j + 1) = off + 1 + j by omega] at next)]
    exact memGet_memPut_ne _ _ _ _ _ (apart 0 (by simp)).symm

theorem memGet_windowPut_inside (l : List Byte) (w : List Host.Cell) (wf : Memory.wf zeroes w = true) (off i : Nat)
    (fits : l.length ≤ windowSize) (h : i < l.length) : memGet zeroes (windowPut w off l) ((off + i) % windowSize) = l[i] := by
  induction l generalizing w off i with
  | nil => cases h
  | cons b l ih =>
    rw [List.length_cons] at fits
    cases i with
    | zero =>
      rw [windowPut, memGet_windowPut_outside l _ _ _ (fun j hj => by
        unfold windowSize at fits ⊢
        omega)]
      exact memGet_memPut_self _ _ 0 _ _ wf
    | succ i =>
      rw [windowPut, show off + (i + 1) = off + 1 + i by omega, ih _ (memPut_wf _ _ _ _ wf) _ _ (by omega) (by simpa using h)]
      rfl

theorem jnlAppend_fits {s : State} {l : List Byte} (open_ : s.jnl.stopped = false) (fits : jnlFits s.jnl l.length = true) :
    jnlAppend s l = modJnl s (fun j => { j with window := windowPut j.window j.head.toNat l,
                                                head := j.head + BitVec.ofNat 64 l.length }) := by
  simp only [jnlAppend, open_, fits, if_true, Bool.false_eq_true, if_false]

/-! #### The record -/

/-- The data of a record, padded to a whole unit. -/
def padded (body : List Byte) : List Byte := padTo ((body.length + 7) / 8 * 8) body

theorem length_padded (body : List Byte) : (padded body).length = 8 * ((body.length + 7) / 8) := by
  simp only [padded, padTo, List.length_append, List.length_replicate]
  omega

theorem jnlBytes_eq (ty c n : Nat) (body : List Byte) : jnlBytes ty c n body =
    leBytes 1 ty ++ leBytes 1 c ++ leBytes 2 (1 + (body.length + 7) / 8) ++ leBytes 4 n ++ padded body := by
  have units : (padded body).length / 8 = (body.length + 7) / 8 := by
    rw [length_padded]
    omega
  rw [← units]
  rfl

theorem length_jnlBytes (ty c n : Nat) (body : List Byte) : (jnlBytes ty c n body).length = 8 * (1 + (body.length + 7) / 8) := by
  rw [jnlBytes_eq]
  simp only [List.length_append, Stores.leBytes_length, length_padded]
  omega

theorem jnlBytes_fields {ty c n : Nat} {body : List Byte} (short_ : body.length < 524000) (type_ : ty < 256) (case_ : c < 256) :
    fieldAt (jnlBytes ty c n body) 0 1 = ty ∧ fieldAt (jnlBytes ty c n body) 1 1 = c ∧
    fieldAt (jnlBytes ty c n body) 2 2 = 1 + (body.length + 7) / 8 ∧ fieldAt (jnlBytes ty c n body) 4 4 = n % 2 ^ 32 := by
  rw [jnlBytes_eq]
  refine ⟨?_, ?_, ?_, ?_⟩ <;> simp [leBytes, fieldAt, slice, leNat] <;> omega

/-- Settles O45: the record by its bytes, its place by the window's bytes. -/
theorem journalRecordsAreAppended : Obligations.JournalRecordsAreAppended := by
  refine ⟨fun ty c n body => ⟨length_jnlBytes ty c n body, fun short_ type_ case_ => ?_⟩, fun s l open_ fits small room => ?_⟩
  · obtain ⟨hty, hc, hlen, hn⟩ := jnlBytes_fields (n := n) short_ type_ case_
    exact ⟨hty, hc, by rw [hlen, length_jnlBytes], hn⟩
  · rw [jnlAppend_fits open_ fits]
    refine ⟨rfl, fun wf => ?_, fun a before kept => ?_, rfl, rfl, rfl⟩
    · refine List.ext_getElem (by simp [jnlGet]) (fun i h _ => ?_)
      simp only [jnlGet, List.getElem_map, List.getElem_range]
      exact memGet_windowPut_inside l _ wf _ i small (by simpa [jnlGet] using h)
    · simp only [jnlGet, List.range_one, List.map_cons, List.map_nil]
      exact congrArg (· :: []) (memGet_windowPut_outside l _ _ _ (fun j hj => by
        unfold windowSize at kept ⊢
        omega))

/-! #### Descriptors -/

section
variable {q : Req} {k : Casement} {s : State}

section
variable (h : Serves q .poke none k s)
include h

theorem jnlControlBody_serves (good : badControl q = false) : jnlControlBody q s =
    (.later, modJnlCase (markChanged s (dCase q.d)) (dCase q.d) (fun j => { j with control := j.control ++ [q] })) := by
  unfold jnlControlBody
  exact checked_pass (by rw [firstOf_append (r59_pass h), firstOf_cons_false good]; rfl)

theorem journalled_of : journalled q s = jnlOn k := by rw [journalled, h.1]

theorem jnlMarkBody_serves (good : dirty shJnlMark q = false) (on : jnlOn k = true) :
    jnlMarkBody q s = (.later, modJnlCase s (dCase q.d) (fun j => { j with marks := j.marks ++ [q] })) := by
  unfold jnlMarkBody
  exact checked_pass (by rw [firstOf_append (r59_pass h), firstOf_cons_false (by rw [good, journalled_of h, on]; rfl)]; rfl)

theorem jnlCheckpointBody_serves (good : dirty shCaseOnly q = false) (on : jnlOn k = true) (free : k.jnl.asked = none) :
    jnlCheckpointBody q s = (.later, modJnlCase s (dCase q.d) (fun j => { j with asked := some q })) := by
  have idle : ckptAsked q s = false := by rw [ckptAsked, h.1]; simp [free]
  unfold jnlCheckpointBody
  exact checked_pass (by
    rw [firstOf_append (r59_pass h), firstOf_cons_false (by rw [good, journalled_of h, on]; rfl), firstOf_cons_false idle]; rfl)

theorem jnlCheckpointBody_off (off : jnlOn k = false) : jnlCheckpointBody q s = (.done .badField 0, s) := by
  unfold jnlCheckpointBody
  exact checked_fail (by
    rw [firstOf_append (r59_pass h), journalled_of h, off]
    exact if_pos (Bool.or_true _))

end

theorem jnlExportBody_serves (steward : isSteward q s = true) (good : dirty shJnlExport q = false) (mode : dByte q.d 28 ≤ 2) :
    jnlExportBody q s = (.done .ok s.jnl.head.toNat, setExport (dByte q.d 28) s) := by
  unfold jnlExportBody
  exact checked_pass (by rw [firstOf_cons_false (by rw [steward]; rfl), firstOf_cons_false (by simp [good, mode])]; rfl)

theorem setExport_jnl (mode : Nat) (s : State) :
    (setExport mode s).jnl.mode = mode ∧ (setExport mode s).jnl.head = s.jnl.head ∧ (setExport mode s).jnl.window = s.jnl.window := by
  unfold setExport
  dsimp only
  split <;> exact ⟨rfl, rfl, rfl⟩

theorem jnlReadBody_reads (steward : isSteward q s = true) (good : dirty shJnlRead q = false) : jnlReadBody q s = readJournal q s := by
  unfold jnlReadBody
  exact checked_pass (by rw [firstOf_cons_false (by rw [steward]; rfl), firstOf_cons_false good]; rfl)

theorem readJournal_gone (old : dW64 q.d 32 < jnlOldest s.jnl) : readJournal q s = (.done .overrun (jnlOldest s.jnl), s) := if_pos old

theorem readJournal_kept (ok : q.io.bufOk = true) (here : jnlOldest s.jnl ≤ dW64 q.d 32) : readJournal q s =
    (.done .ok (readCount q s),
      if bitAt (dByte q.d 29) 0 && s.jnl.mode == 2
      then modJnl (hostWrite s q.host q.d.addrA (jnlGet s.jnl (dW64 q.d 32) (readCount q s))) (fun j => { j with
        export_ := BitVec.ofNat 64 (max j.export_.toNat (dW64 q.d 32 + readCount q s)) })
      else hostWrite s q.host q.d.addrA (jnlGet s.jnl (dW64 q.d 32) (readCount q s))) := by
  simp only [readJournal, Nat.not_lt.mpr here, if_false, replyCopy_ok ok, ok, Bool.true_and]
  exact (apply_ite (Prod.mk (Reply.done .ok (readCount q s))) _ _ _).symm

theorem jnlStatusBody_serves (good : dirty shJnlStatus q = false) (long : 64 ≤ q.d.length.toNat) (ok : q.io.bufOk = true) :
    jnlStatusBody q s = (.done .ok 0, hostWrite s q.host q.d.addrA (jnlStatusBytes s)) := by
  unfold jnlStatusBody
  rw [checked_pass (by rw [firstOf_cons_false (by rw [good, short_false long]; rfl)]; rfl)]
  exact replyCopy_ok ok

end

theorem drainEnd_empty {c : CaseId} {s : State} {k : Casement} {n : BitVec 64} {num : Nat} (found : getCase s c = some k)
    (drain : k.jnl.drain = some (n, num, none)) (open_ : s.jnl.stopped = false) (gapless : k.jnl.gapFrom = none)
    (units : jnlUnits k s = []) (open' : (jnlRecord s c 0x0C n.toNat (leBytes 4 num ++ leBytes 4 0)).jnl.stopped = false) :
    drainEnd s c = post (modTiles (modJnlCase (jnlRecord s c 0x0C n.toNat (leBytes 4 num ++ leBytes 4 0)) c
      (fun j => { j with drain := none })) (tilesOf k.region) (fun _ x => { x with bp := { x.bp with ckptBank := none } }))
      0xA02 3 c 0 num := by
  simp only [drainEnd, found, drain, open_, gapless, units, List.foldl_nil, open', Option.isSome_none, Bool.or_self,
    Bool.false_eq_true, if_false]

/-- Settles O44: descriptors by their bodies, the end of a drain by its last record. -/
theorem journalCommandsTakeEffect : Obligations.JournalCommandsTakeEffect := by
  refine ⟨fun q s0 s begins => ⟨fun k h => ⟨fun good op => ?_, fun good on op => ?_, fun good on free op => ?_, fun _ off op => ?_⟩,
    fun steward good mode op => ⟨?_, setExport_jnl _ s⟩, fun steward good ok => ⟨fun old op => ?_, ?_⟩, fun good long ok op => ?_⟩,
    fun c s k n num found drain open_ gapless units open' =>
      congrArg Host.Outcome.next (drainEnd_empty found drain open_ gapless units open')⟩
  · exact next_later begins op (by decide) (jnlControlBody_serves h good)
  · exact next_later begins op (by decide) (jnlMarkBody_serves h good on)
  · exact next_later begins op (by decide) (jnlCheckpointBody_serves h good on free)
  · exact next_done begins op (by decide) (jnlCheckpointBody_off h off) (by decide)
  · exact next_done begins op (by decide) (jnlExportBody_serves steward good mode) (by decide)
  · exact next_done begins op (by decide) ((jnlReadBody_reads steward good).trans (readJournal_gone old)) (by decide)
  · intro here copied
    have body := (jnlReadBody_reads steward good).trans (readJournal_kept ok here)
    refine ⟨fun keeps op => ?_, fun moves mode op => ?_⟩
    · have still : (bitAt (dByte q.d 29) 0 && s.jnl.mode == 2) = false := by
        rcases keeps with bit | other
        · rw [show bitAt (dByte q.d 29) 0 = false from bit]; rfl
        · simp [other]
      rw [if_neg (Bool.eq_false_iff.mp still)] at body
      exact next_done begins op (by decide) body (by decide)
    · rw [if_pos (by rw [show bitAt (dByte q.d 29) 0 = true from moves, mode]; rfl)] at body
      exact next_done begins op (by decide) body (by decide)
  · exact next_done begins op (by decide) (jnlStatusBody_serves good long ok) (by decide)

end Sys2Proof.JournalRecords
end

section
/-! ### Replay and shadows -/

namespace Sys2Proof.Replays

open Sys2Proof Sys2Proof.Machine Sys2Proof.Descriptors

section
variable {q : Req} {s : State}

section
variable {k : Casement} (h : Serves q .poke none k s) (fields : badReplayFields q = false) (paused : k.st = .paused)
  (ok : q.io.bufOk = true) {p : Found}
  (found : chooseCkpt k (searchJournal s (dW32 q.d 48) (replayFuel s (newReplay q)) (newReplay q) { loads := [], found := [] }) = some p)
include h fields paused ok found

theorem jnlReplayBody_found : jnlReplayBody q s =
    checked [(!sameImage k p, .authFail), (decide (dW64 q.d 40 < p.n), .badField)] (fun s => (.later, beginReplay q p k s)) s := by
  have st : caseState q s = some .paused := by rw [caseState, h.1, ← paused]; rfl
  unfold jnlReplayBody
  rw [checked_pass (by rw [firstOf_append (r59_pass h), firstOf_cons_false (by rw [fields, st]; rfl)]; rfl), replayChecks]
  simp only [h.1, ok, found, Bool.not_true, Bool.false_eq_true, if_false]

theorem jnlReplayBody_other (other : sameImage k p = false) : jnlReplayBody q s = (.done .authFail 0, s) := by
  rw [jnlReplayBody_found h fields paused ok found]
  exact checked_fail (if_pos (by rw [other]; rfl))

theorem jnlReplayBody_early (same : sameImage k p = true) (early : dW64 q.d 40 < p.n) : jnlReplayBody q s = (.done .badField 0, s) := by
  rw [jnlReplayBody_found h fields paused ok found]
  exact checked_fail ((firstOf_cons_false (by rw [same]; rfl)).trans (if_pos (decide_eq_true early)))

theorem jnlReplayBody_begins (same : sameImage k p = true) (late : p.n ≤ dW64 q.d 40) :
    jnlReplayBody q s = (.later, beginReplay q p k s) := by
  rw [jnlReplayBody_found h fields paused ok found]
  exact checked_pass ((firstOf_cons_false (by rw [same]; rfl)).trans (firstOf_cons_false (decide_eq_false (Nat.not_lt.mpr late))))

end

theorem jnlShadowBody_begins (steward : isSteward q s = true) (fields : badShadow q s = false) (ok : q.io.bufOk = true)
    (map_ : badShadowMap q s = false) (new : getCase s (dCase q.d) = none) (pool : ∀ m ∈ shadowMap q, inPool s m.2 = true)
    (roles : ∀ r ∈ shadowRoles q s, rtState (roleEntry (hubBank s) r) = 0) (idle : placementBusy s = false) :
    jnlShadowBody q s = (.later, beginShadow q s) := by
  have spares : (shadowMap q).any (fun p => !inPool s p.2) = false := by
    rw [List.any_eq_false]
    intro m hm
    simp [pool m hm]
  have free : (shadowRoles q s).any (fun r => rtState (roleEntry (hubBank s) r) != 0) = false := by
    rw [List.any_eq_false]
    intro r hr
    simp [roles r hr]
  unfold jnlShadowBody
  rw [checked_pass (by rw [firstOf_cons_false (by rw [steward]; rfl), firstOf_cons_false fields]; rfl), shadowChecks, ok]
  exact (if_neg (by decide)).trans (checked_pass (by
    rw [firstOf_cons_false map_, firstOf_cons_false (by rw [new]; rfl), firstOf_cons_false spares, firstOf_cons_false free,
      firstOf_cons_false idle]
    rfl))

/-- A shadow that begins has the loader wait for the image in pass 1. -/
theorem beginShadow_load (q : Req) (s : State) :
    (beginShadow q s).load.phase = .pass1 ∧ (beginShadow q s).load.purpose = .shadow := by
  unfold beginShadow
  dsimp only
  rw [(Settling.fabricSide_settleFabric (Settling.FabricSide.refl _) _).load]
  exact ⟨rfl, rfl⟩

end

/-- Settles O46: both descriptors by their bodies. -/
theorem replayAndShadowTakeEffect : Obligations.ReplayAndShadowTakeEffect := by
  intro q s0 s begins
  refine ⟨fun k p h fields paused ok found => ⟨fun other op => ?_, fun same early op => ?_, fun same late op => ?_⟩,
    fun steward fields ok map_ new pool roles idle op => ⟨?_, beginShadow_load q s⟩⟩
  · exact next_done begins op (by decide) (jnlReplayBody_other h fields paused ok found other) (by decide)
  · exact next_done begins op (by decide) (jnlReplayBody_early h fields paused ok found same early) (by decide)
  · exact next_later begins op (by decide) (jnlReplayBody_begins h fields paused ok found same late)
  · exact next_later begins op (by decide) (jnlShadowBody_begins steward fields ok map_ new pool roles idle)

end Sys2Proof.Replays
end

section
/-! ### The event recorder -/

namespace Sys2Proof.RecorderEvents

open Sys2Proof Sys2Proof.Machine Sys2Proof.Descriptors

/-! #### Events -/

section
variable {i : Nat} {w : Bool} {s : State} {e : Ev}

theorem takeToken_unlimited (free : neverLimited e.code.toNat = true) (u : State) : takeToken u e.code.toNat = some u := if_pos free

theorem takeToken_none (limited : neverLimited e.code.toNat = false) (empty : (getBucket s e.code.toNat).tokens = 0) :
    takeToken s e.code.toNat = none := by
  simp [takeToken, limited, empty]

theorem takeToken_some (limited : neverLimited e.code.toNat = false) (some_ : 0 < (getBucket s e.code.toNat).tokens) :
    ∃ u, takeToken s e.code.toNat = some u ∧
      (getBucket u e.code.toNat).tokens = (getBucket s e.code.toNat).tokens - 1 := by
  refine ⟨_, (if_neg (Bool.eq_false_iff.mp limited)).trans (if_neg (Nat.ne_of_gt some_)), ?_⟩
  exact congrArg Bucket.tokens (mget_mset_self _ _ _ _)

/-- The state without the posting that the recorder takes. -/
def taken (s : State) (i : Nat) : State := modRcd s (fun r => { r with posted := r.posted.eraseIdx i })

section
variable (may : mayPost s.rcd.posted i = true) (up : s.dev.inReset = .none) (at_ : s.rcd.posted[i]? = some e) (room : queueRoom s e = true)
include may up at_ room

theorem eventPost_takes : exec (.eventPost i w) s = .next (recTick (recTake (taken s i) w e)) := by
  simp only [exec, execEventPost, may, up, at_, room, beq_self_eq_true, Bool.and_self, if_true, taken]

variable (plain : e.kind = .plain)
include plain

theorem eventPost_queues {u : State} (token : takeToken (taken s i) e.code.toNat = some u) :
    exec (.eventPost i w) s = .next (recTick (recQueue u w e)) := by
  rw [eventPost_takes may up at_ room, recTake, plain]
  simp only [token]

theorem eventPost_suppresses (none_ : takeToken (taken s i) e.code.toNat = none) :
    exec (.eventPost i w) s = .next (recTick (suppress (taken s i) e.code.toNat e.src)) := by
  rw [eventPost_takes may up at_ room, recTake, plain]
  simp only [none_]

end

section
variable {l : List RecWait} (front : s.rcd.queue = { ev := e, writeOk := w } :: l)
include front

theorem recTick_busy (busy : s.dev.now.toNat < s.rcd.free.toNat) : recTick s = s := by
  simp [recTick, front, busy]

theorem recTick_writes (plain : e.kind = .plain) (up : s.dev.inReset = .none) (free : s.rcd.free.toNat ≤ s.dev.now.toNat) :
    recTick s = recWrite (modRcd s (fun r => { r with queue := l, free := s.dev.now + 500 })) w e.time e.code e.src e.arg false
      e.held := by
  have load : queueLoad [{ ev := e, writeOk := w }] = 1 := by simp [queueLoad, plain]
  simp only [recTick, front, up, Nat.not_lt.mpr free, bne_self_eq_false, decide_false, Bool.or_self, Bool.false_eq_true, if_false,
    load, recFrom, plain]
  rfl

end

theorem recWrite_first {time : Time} {code : BitVec 12} {src : BitVec 4} {arg : BitVec 32} {summary held : Bool}
    (quiet : ∀ p ∈ s.rcd.notify, p.2.getLsbD code.toNat = false) (room : s.rcd.next + 1 < 524288) (first : s.rcd.counts.wrap = 0) :
    recWrite s w time code src arg summary held = modRcd s (fun r => { r with
      slots := mset r.slots r.next { time := time, code := code, src := src, arg := arg,
                                     flags := BitVec.ofNat 8 (summary.toNat + 2 * held.toNat + 128) }, next := r.next + 1 }) := by
  have nobody : s.rcd.notify.filter (fun b => b.2.getLsbD code.toNat) = [] := by
    rw [List.filter_eq_nil_iff]
    intro p hp
    rw [quiet p hp]
    exact Bool.false_ne_true
  have flags : recFlags s.rcd summary held = BitVec.ofNat 8 (summary.toNat + 2 * held.toNat + 128) := by
    rw [recFlags, first]
    rfl
  have put (r : Rec) : recPut s.rcd r = { s.rcd with slots := mset s.rcd.slots s.rcd.next r, next := s.rcd.next + 1 } := by
    simp only [recPut, first, if_true, recSlots, room]
  unfold recWrite
  simp only [nobody, List.foldl_nil, flags]
  exact congrArg (fun r => { s with rcd := r }) (put _)

end

/-- Settles O47: each event by what it does to the recorder. -/
theorem recorderEventsTakeEffect : Obligations.RecorderEventsTakeEffect := by
  refine ⟨?_, ?_, ?_, ?_, ?_, ?_⟩
  · intro i w s e may up at_ plain room s0 queued
    refine ⟨fun free => ?_, fun limited some_ => ?_, fun limited empty => ?_⟩
    · exact eventPost_queues may up at_ room plain (takeToken_unlimited free _)
    · obtain ⟨u, token, left⟩ := takeToken_some (s := taken s i) limited some_
      exact ⟨u, token, eventPost_queues may up at_ room plain token, left⟩
    · exact eventPost_suppresses may up at_ room plain (takeToken_none limited empty)
  · exact fun s e w l front plain up => ⟨recTick_busy front, recTick_writes front plain up⟩
  · exact fun s w tm code src arg sm h quiet room first => recWrite_first quiet room first
  · intro code s running quiet due
    simp only [exec, execRateLimitRefill, running, quiet, Nat.not_lt.mpr due, Bool.not_true, decide_false, Bool.or_self,
      Bool.false_eq_true, if_false, if_true]
  · intro s warm due
    have go : ¬ (s.dev.inReset == .cold || decide (s.dev.now.toNat < s.rcd.ringDue.toNat)) = true := by
      simpa [warm] using due
    simp only [exec, execTimeRingWrite, go]
    rfl
  · intro t src n b s due design tile code
    subst tile code
    simp [exec, execDesignEventEdge, due, design]

/-! #### Descriptors -/

section
variable {q : Req} {s : State}

theorem recReadBody_serves (good : dirty shRecRead q = false) (some_ : 1 ≤ dW32 q.d 40) (most : dW32 q.d 40 ≤ 524288)
    (long : 16 * dW32 q.d 40 ≤ q.d.length.toNat) (ok : q.io.bufOk = true) (written : recSeq s.rcd ≠ 0) :
    let n := min (dW32 q.d 40) (recSeq s.rcd - dBits q.d 32 5)
    let out := (List.range n).map (fun i => readOne s.rcd (dBits q.d 32 5 + i))
    recReadBody q s = (.done .ok (recSeq s.rcd - 1 + 2 ^ 40 * n + 2 ^ 60 * min 15 (out.filter (·.1)).length),
      hostWrite s q.host q.d.addrA (out.flatMap (·.2))) := by
  intro n out
  unfold recReadBody
  dsimp only
  rw [checked_pass (by
    rw [firstOf_cons_false (by
      simp [good, short_false long, show dW32 q.d 40 ≠ 0 by omega, show ¬ 524288 < dW32 q.d 40 by omega])]
    rfl)]
  rw [if_neg written, newestSeq, if_neg written]
  exact replyCopy_ok ok

theorem recStatusBody_serves (good : dirty shCopy q = false) (long : 64 ≤ q.d.length.toNat) (ok : q.io.bufOk = true)
    (written : recSeq s.rcd ≠ 0) : recStatusBody q s = (.done .ok 0, hostWrite s q.host q.d.addrA (recStatusBytes s)) := by
  unfold recStatusBody
  rw [checked_pass (by rw [firstOf_cons_false (by rw [good, short_false long]; rfl)]; rfl)]
  rw [if_neg written]
  exact replyCopy_ok ok

theorem recTimeSetBody_serves (steward : isSteward q s = true) (good : dirty shRecTime q = false) :
    recTimeSetBody q s = (.later, postEv s { mkEv s 0xB02 7 0 false with kind := .timePair q }) := by
  unfold recTimeSetBody
  exact checked_pass (by rw [firstOf_cons_false (by rw [steward]; rfl), firstOf_cons_false good]; rfl)

theorem recPostBody_serves (good : dirty shRecPost q = false) (low : 0xE00 ≤ dW16 q.d 28) (high : dW16 q.d 28 ≤ 0xFFF) :
    recPostBody q s = (.later, postEv s { mkEv s (dW16 q.d 28) 7 (BitVec.ofNat 32 (dW32 q.d 32)) false with kind := .hostPost q }) := by
  unfold recPostBody
  exact checked_pass (by
    rw [firstOf_cons_false (by simp [good, show ¬ dW16 q.d 28 < 3584 by omega, show ¬ 4095 < dW16 q.d 28 by omega])]
    rfl)

theorem recLimitBody_serves (steward : isSteward q s = true) (good : dirty shRecLimit q = false) (code : dW16 q.d 28 ≤ 0xFFF)
    (limited : neverLimited (dW16 q.d 28) = false) (burst : dByte q.d 30 ≠ 0) (period : dW16 q.d 32 ≠ 0) :
    recLimitBody q s = (.later, postEv s { mkEv s (dW16 q.d 28) 0 0 false with kind := .limit q }) := by
  unfold recLimitBody
  exact checked_pass (by
    rw [firstOf_cons_false (by rw [steward]; rfl), firstOf_cons_false (by
      simp [good, limited, burst, period, show ¬ 4095 < dW16 q.d 28 by omega])]
    rfl)

theorem getLsbD_codeRange {lo hi : Nat} (order : lo ≤ hi) (c : Nat) (code : c < 4096) :
    (codeRange lo hi).getLsbD c = decide (lo ≤ c ∧ c ≤ hi) := by
  have factor : 2 ^ (hi + 1) - 2 ^ lo = (2 ^ (hi + 1 - lo) - 1) * 2 ^ lo := by
    rw [Nat.sub_mul, ← Nat.pow_add, Nat.one_mul]
    congr 2
    omega
  rw [codeRange, BitVec.getLsbD_ofNat, factor, Nat.testBit_mul_two_pow, Nat.testBit_two_pow_sub_one]
  simp only [code, decide_true, Bool.true_and, ← Bool.decide_and]
  exact decide_eq_decide.mpr (by omega)

/-- The codes that ring c is notified of, after those of a range. -/
def notified (q : Req) (s : State) : BitVec 4096 :=
  mget 0 s.rcd.notify (dW16 q.d 32) ||| codeRange (dW16 q.d 28) (dW16 q.d 30)

theorem notified_ne_zero (order : dW16 q.d 28 ≤ dW16 q.d 30) (high : dW16 q.d 30 ≤ 0xFFF) : notified q s ≠ 0 := by
  intro zero
  have bit : (notified q s).getLsbD (dW16 q.d 28) = true := by
    rw [notified, BitVec.getLsbD_or, getLsbD_codeRange order _ (by omega), decide_eq_true (by omega), Bool.or_true]
  rw [zero] at bit
  simp at bit

theorem recNotifyBody_binds (good : dirty shRecNotify q = false) (order : dW16 q.d 28 ≤ dW16 q.d 30) (high : dW16 q.d 30 ≤ 0xFFF)
    {r : Ring} (ring : mfind s.hif.rings (dW16 q.d 32) = some r) (own : r.owner = q.host) (kind : r.kind = .event)
    (on : bitAt (dByte q.d 34) 0 = true) :
    recNotifyBody q s = (.done .ok 0, modRcd s (fun r => { r with notify := mset r.notify (dW16 q.d 32) (notified q s) })) := by
  unfold recNotifyBody
  rw [checked_pass (by
    rw [firstOf_cons_false (by simp [good, show ¬ 4095 < dW16 q.d 30 by omega, show ¬ dW16 q.d 30 < dW16 q.d 28 by omega]),
      firstOf_cons_false (by simp [ring, own]), firstOf_cons_false (by simp [ring, kind])]
    rfl)]
  simp only [on, if_true]
  exact congrArg (fun m => (Reply.done .ok 0, { s with rcd := { s.rcd with notify := m } })) (if_neg (notified_ne_zero order high))

theorem designAfter_new {bs : List DesignBind} {code : Nat} (some_ : code ≠ 0) (new : ∀ b ∈ bs, b.code.toNat ≠ code) (c : CaseId)
    (t : TileId) (src : Nat) : designAfter bs c t code src =
      bs ++ [{ case_ := c, tile := t, src := BitVec.ofNat 12 src, code := BitVec.ofNat 12 code }] := by
  have kept : bs.filter (fun b => b.code.toNat != code) = bs := by
    rw [List.filter_eq_self]
    intro b hb
    simpa using new b hb
  rw [designAfter, if_neg some_, kept]

theorem recDesignBindBody_binds {k : Casement} (names : NamesTile q k) (h : Serves q .poke (some (dByte q.d 28)) k s)
    (good : dirty shRecDesign q = false) (low : 0xC00 ≤ dW16 q.d 30) (high : dW16 q.d 30 ≤ 0xDFF) (src : dW16 q.d 32 ≤ 0xFFF)
    (source : badSrcCode (dW16 q.d 32) = false) (new : ∀ b ∈ s.rcd.design, b.code.toNat ≠ dW16 q.d 30) :
    recDesignBindBody q s = (.done .ok 0, markChanged (modRcd s (fun r => { r with design := r.design ++
      [{ case_ := dCase q.d, tile := Fin.ofNat 96 (dByte q.d 28), src := BitVec.ofNat 12 (dW16 q.d 32),
         code := BitVec.ofNat 12 (dW16 q.d 30) }] })) (dCase q.d)) := by
  have free : s.rcd.design.any (fun b => b.code.toNat == dW16 q.d 30 && b.case_ != dCase q.d) = false := by
    rw [List.any_eq_false]
    intro b hb
    simp [new b hb]
  have code : (dW16 q.d 30 == 0 || (decide (0xC00 ≤ dW16 q.d 30) && decide (dW16 q.d 30 ≤ 0xDFF))) = true := by
    simp [low, high]
  unfold recDesignBindBody
  rw [checked_pass (by
    rw [firstOf_append (r59Tile_pass h names), firstOf_cons_false (by rw [good, code, source]; simpa using src),
      firstOf_cons_false (by rw [free, Bool.and_false])]
    rfl)]
  exact congrArg (fun l => (Reply.done .ok 0, markChanged { s with rcd := { s.rcd with design := l } } (dCase q.d)))
    (designAfter_new (by omega) new _ _ _)

end

/-- Settles O48: what each descriptor's body answers. -/
theorem recorderDescriptorsTakeEffect : Obligations.RecorderDescriptorsTakeEffect := by
  intro q s0 s begins
  refine ⟨?_, fun good long ok written op => ?_, fun steward good op => ?_, fun good low high op => ?_,
    fun steward good code limited burst period op => ?_, fun r good order high ring own kind on op => ?_,
    fun k names h good low high src source new op => ?_⟩
  · intro good some_ most long ok written n out op
    exact next_done begins op (by decide) (recReadBody_serves good some_ most long ok written) (by decide)
  · exact next_done begins op (by decide) (recStatusBody_serves good long ok written) (by decide)
  · exact next_later begins op (by decide) (recTimeSetBody_serves steward good)
  · exact next_later begins op (by decide) (recPostBody_serves good low high)
  · exact next_later begins op (by decide) (recLimitBody_serves steward good code limited burst period)
  · refine ⟨_, next_done begins op (by decide) (recNotifyBody_binds good order high ring own kind on) (by decide), fun c code => ?_,
      rfl, rfl, rfl⟩
    show (mget 0 (mset s.rcd.notify (dW16 q.d 32) (notified q s)) (dW16 q.d 32)).getLsbD c = _
    rw [mget_mset_self, notified, BitVec.getLsbD_or, getLsbD_codeRange order c code]
  · exact next_done begins op (by decide) (recDesignBindBody_binds names h good low high src source new) (by decide)

end Sys2Proof.RecorderEvents
end

section
/-! ### Packets, flits and routes -/

namespace Sys2Proof.Packets

open Sys2Proof Sys2Proof.Machine

/-! #### Two changes of one tile -/

theorem mset_mset {α : Type} (m : Map α) (k : Nat) (v w : α) : mset (mset m k v) k w = mset m k w := by
  induction m with
  | nil => simp [mset]
  | cons p r ih =>
    obtain ⟨j, u⟩ := p
    rcases Nat.lt_trichotomy k j with lt | rfl | gt
    · simp [mset, lt]
    · simp [mset]
    · simp [mset, Nat.lt_asymm gt, Nat.ne_of_gt gt, ih]

theorem modTile_modTile (s : State) (t : Nat) (f g : Tile → Tile) :
    modTile (modTile s t f) t g = modTile s t (fun x => g (f x)) := by
  simp [modTile, setTile, getTile, mset_mset]

theorem modNet_modNet (s : State) (t : Nat) (f g : Router → Router) :
    modNet (modNet s t f) t g = modNet s t (fun r => g (f r)) := modTile_modTile s t _ _

/-! #### Packets and flits -/

theorem staleDrop_first {s : State} {t : Nat} (h : BitVec 64) (first : (getTile s t).net.staleAt = none) :
    staleDrop s t h = postTile (modNet s t (fun r => { r with stale := bump r.stale, staleAt := some s.dev.now })) t 0x302 2 t
      (hdrSrc h) (hdrSrcTenure h) := by
  simp only [staleDrop, first, if_true, modNet_modNet]

theorem packetInject_on {t : TileId} {p : Packet} {s : State} (on : (getTile s t).dom.tk = .on) :
    exec (.packetInject t p) s = .next (
      let s0 := modNet s t (fun r => { r with injectQ := r.injectQ.erase p })
      let q := stampEpoch (getTile s t).net p
      if senderOk s0 t q.hdr then routerSettle (enterPacket s0 t 5 q) t else staleDrop s0 t q.hdr) := by
  simp only [exec, execPacketInject, on, bne_self_eq_false, Bool.false_eq_true, if_false, Bool.not_eq_true']
  cases senderOk (modNet s t (fun r => { r with injectQ := r.injectQ.erase p })) t (stampEpoch (getTile s t).net p).hdr <;> rfl

section
variable {t : TileId} {port : Fin 4} {s : State} (on : (getTile s t).dom.tk = .on)
  (there : (getTile s (neighbour t port)).dom.tk = .on) (up : (getTile s t).net.down.getLsbD port = false)
include on there up

theorem flitReceive_link (good : Bool) : exec (.flitReceive t (.link port) good) s = .next (match arriving s t port with
    | none => s
    | some c => if good then crossLink s t port c else badFlit s t port c.key) := by
  simp only [exec, execFlitReceive, on, there, up, bne_self_eq_false, Bool.or_self, Bool.false_eq_true, if_false] <;> rfl

end

theorem badFlit_again {s : State} {t port : Nat} (key : Nat) (few : (mget (0, 0) (getTile s t).net.crcFails port).1 < 2) :
    badFlit s t port key = modNet s t (fun r => { r with
      replays := bump r.replays, crcFails := mset r.crcFails port ((mget (0, 0) (getTile s t).net.crcFails port).1 + 1, key) }) := if_pos few

theorem badFlit_third {s : State} {t port : Nat} (key : Nat) (many : 2 ≤ (mget (0, 0) (getTile s t).net.crcFails port).1) :
    badFlit s t port key = linkDown s t port := if_neg (Nat.not_lt.mpr many)

section
variable {t : TileId} {p : Packet} {q : Req} {kept : List Byte} {s : State} (type_ : hdrType p.hdr = 0x26)
include type_

theorem bounce_shuttered (status : byteAt p.data 0 = statusCode .shuttered) :
    exec (.bounce t p (some q) kept) s = .next (complete q .shuttered 0 s) := by
  simp [exec, execBounce, type_, status]

section
variable (status : byteAt p.data 0 = statusCode .roleMoved)
include status

theorem bounce_roleMoved_again (again : s.hif.retried.contains q.seq = true) :
    exec (.bounce t p (some q) kept) s = .next (complete q .roleMoved 0 s) := by
  have other : ¬ statusCode .roleMoved = statusCode .shuttered := by decide
  simp only [exec, execBounce, type_, status, other, again, bne_self_eq_false, Bool.false_eq_true, if_false, if_true]

/-- The packet that a descriptor's retry sends: its bytes as they were, to the tile that holds the role now. -/
def retryPacket (p : Packet) (kept : List Byte) : Packet :=
  { hdr := BitVec.ofNat 64 ((BitVec.ofNat 64 (fieldAt p.data 8 8)).toNat -
      hdrDstTenure (BitVec.ofNat 64 (fieldAt p.data 8 8)) * 2 ^ 8 + fieldAt p.data 4 2 * 2 ^ 8), data := kept }

theorem bounce_roleMoved_first (first : s.hif.retried.contains q.seq = false)
    (same : keptOk (BitVec.ofNat 64 (fieldAt p.data 8 8)) p kept = true) :
    exec (.bounce t p (some q) kept) s = .next (modNet (modHif s (fun f => { f with retried := q.seq :: f.retried })) t
      (fun r => { r with svcQ := r.svcQ ++ [retryPacket p kept] })) := by
  have other : ¬ statusCode .roleMoved = statusCode .shuttered := by decide
  simp only [exec, execBounce, type_, status, other, first, same, bne_self_eq_false, Bool.not_true, Bool.false_eq_true, if_false, if_true]
  rfl

end

end

/-- Settles O49: each event where its cause is in the state. -/
theorem packetEventsTakeEffect : Obligations.PacketEventsTakeEffect := by
  refine ⟨?_, ?_, ?_, ?_, ?_, ?_, ?_, ?_⟩
  · intro t p s on s0 q
    refine ⟨fun ok => ?_, fun stale first => ?_⟩ <;> rw [packetInject_on on]
    · exact congrArg Host.Outcome.next (if_pos ok)
    · have first' : (getTile s0 t).net.staleAt = none := by
        rw [getTile_modNet_self]
        exact first
      exact congrArg Host.Outcome.next ((if_neg (Bool.eq_false_iff.mp stale)).trans (staleDrop_first q.hdr first'))
  · intro t port s on there up
    refine ⟨fun good none_ => ?_, fun c flit => ⟨?_, fun few => ?_, fun many => ?_⟩⟩
    · rw [flitReceive_link on there up, none_]
    · rw [flitReceive_link on there up, flit]
      rfl
    · rw [flitReceive_link on there up, flit, ← badFlit_again c.key few]
      rfl
    · rw [flitReceive_link on there up, flit, ← badFlit_third c.key many]
      rfl
  · intro t f s on service up
    have open_ : ((getTile s t).dom.tk != .on || !hasService t || (getTile s t).net.down.getLsbD 4) = false := by
      rw [on, service, up]
      rfl
    exact ⟨congrArg Host.Outcome.next (if_neg (Bool.eq_false_iff.mp open_)),
      congrArg Host.Outcome.next (if_neg (Bool.eq_false_iff.mp open_))⟩
  · exact fun t p q kept s type_ status => bounce_shuttered type_ status
  · intro t p q kept s type_ status
    refine ⟨bounce_roleMoved_again type_ status, fun first same => ⟨_, retryPacket p kept,
      bounce_roleMoved_first type_ status first same, rfl, ?_, rfl, fun v other => getTile_modNet_ne _ _ other, rfl⟩⟩
    rw [getTile_modNet_self]
    rfl
  · intro t p s type_ dest on
    exact congrArg Host.Outcome.next (if_pos (by simp [type_, dest, on]))
  · intro p n q rest s type_ probes seq
    have left : modHub s (fun h => { h with probes := h.probes.erase q }) = modHub s (fun h => { h with probes := rest }) := by
      simp [modHub, probes]
    rw [← left]
    simp [exec, execProbeReply, type_, probes, seq]
  · intro q rest s probes
    simp only [exec, execNetProbeTimeout, probes]

/-! #### Routes -/

section
variable {av : Nat → Bool}

theorem clearPath_first {port n t : Nat} (some_ : n ≠ 0) (clear : clearPath av port n t = true) : av (linkOf t port) = false := by
  cases n with
  | zero => exact absurd rfl some_
  | succ n =>
    simp only [clearPath, Bool.and_eq_true, Bool.not_eq_true'] at clear
    exact clear.1

theorem dimPort_some {t plus size dist p : Nat} (far : dist ≠ 0) (inside : dist < size) (h : dimPort av t plus size dist = some p) :
    (p = plus ∨ p = plus + 1) ∧ av (linkOf t p) = false := by
  unfold dimPort at h
  dsimp only at h
  by_cases near : 2 * dist ≤ size
  · simp only [near, if_true] at h
    split at h
    next clear =>
      obtain rfl := Option.some.inj h
      exact ⟨.inl rfl, clearPath_first far clear⟩
    next =>
      split at h
      next clear =>
        obtain rfl := Option.some.inj h
        exact ⟨.inr rfl, clearPath_first (by omega) clear⟩
      next => exact absurd h (by simp)
  · simp only [near, if_false] at h
    split at h
    next clear =>
      obtain rfl := Option.some.inj h
      exact ⟨.inr rfl, clearPath_first (by omega) clear⟩
    next =>
      split at h
      next clear =>
        obtain rfl := Option.some.inj h
        exact ⟨.inl rfl, clearPath_first far clear⟩
      next => exact absurd h (by simp)

end

theorem clearPath_none (port n t : Nat) : clearPath (fun _ => false) port n t = true := by
  induction n generalizing t with
  | zero => rfl
  | succ n ih => simp [clearPath, ih]

theorem dimPort_none (t plus size dist : Nat) :
    dimPort (fun _ => false) t plus size dist = some (if 2 * dist ≤ size then plus else plus + 1) := by
  simp only [dimPort, clearPath_none, if_true]
  split <;> rfl

/-- The length of the shorter ways around the two rings of the torus. -/
def torusDistance (t d : Nat) : Nat :=
  min ((d % 12 + 12 - t % 12) % 12) (12 - (d % 12 + 12 - t % 12) % 12) +
    min ((d / 12 + 8 - t / 12) % 8) (8 - (d / 12 + 8 - t / 12) % 8)

/-- A step of a route without avoided links: the neighbour is one hop nearer. -/
theorem routePort_nearer {t d : Nat} (ht : t < 96) (hd : d < 96) (apart : t ≠ d) : ∃ p, routePort (fun _ => false) t d = some p ∧
    neighbour t p < 96 ∧ torusDistance (neighbour t p) d + 1 = torusDistance t d := by
  unfold routePort
  by_cases column : t % 12 = d % 12
  · rw [if_pos column, dimPort_none]
    refine ⟨_, rfl, ?_⟩
    split
    · simp only [neighbour, torusDistance]
      omega
    · simp only [neighbour, torusDistance]
      omega
  · rw [if_neg column, dimPort_none]
    refine ⟨_, rfl, ?_⟩
    split
    · simp only [neighbour, torusDistance]
      omega
    · simp only [neighbour, torusDistance]
      omega

theorem torusDistance_zero_iff {t d : Nat} (ht : t < 96) (hd : d < 96) : torusDistance t d = 0 ↔ t = d := by
  unfold torusDistance
  omega

theorem hopsTo_unavoided {t d : Nat} (ht : t < 96) (hd : d < 96) (n : Nat) (enough : torusDistance t d ≤ n) :
    hopsTo { roles := [], avoid := 0 } d n t = torusDistance t d := by
  have free : (fun l => (0 : BitVec 192).getLsbD l) = fun _ => false := by
    funext l
    simp
  induction n generalizing t with
  | zero => exact (Nat.le_zero.mp enough).symm
  | succ n ih =>
    by_cases here : t = d
    · rw [hopsTo, if_pos here, (torusDistance_zero_iff ht hd).mpr here]
    · obtain ⟨p, port, inside, nearer⟩ := routePort_nearer ht hd here
      rw [hopsTo, if_neg here, free, port]
      show hopsTo _ d n (neighbour t p) + 1 = _
      rw [ih inside (by omega), nearer]

/-- Settles O50: the decision by the shutter, a route by its first step. -/
theorem portsAndRoutes : Obligations.PortsAndRoutes := by
  refine ⟨fun sh vc => ⟨rfl, rfl, ?_, fun other => ?_⟩, ?_, fun av t d p apart h => ?_⟩
  · cases sh <;> rfl
  · cases sh with
    | open_ => exact absurd rfl other
    | _ => exact ⟨rfl, rfl, rfl⟩
  · intro t d dx dy
    refine hopsTo_unavoided t.isLt d.isLt 18 ?_
    unfold torusDistance
    omega
  · have apart' : t.val ≠ d.val := fun same => apart (Fin.ext same)
    unfold routePort at h
    by_cases column : t.val % 12 = d.val % 12
    · rw [if_pos column] at h
      obtain ⟨port, free⟩ := dimPort_some (by omega) (by omega) h
      exact ⟨by omega, by omega, free⟩
    · rw [if_neg column] at h
      obtain ⟨port, free⟩ := dimPort_some (by omega) (by omega) h
      exact ⟨by omega, by omega, free⟩

end Sys2Proof.Packets
end

section
/-! ### Epoch changes, shutters, and the network's descriptors -/

namespace Sys2Proof.Network

open Sys2Proof Sys2Proof.Machine Sys2Proof.Descriptors

/-! #### Epoch changes -/

section
variable {t : TileId} {s : State} {e : Epoch} (change : s.hub.epoch = some e)
include change

theorem roleUpdate_writes (stage : e.stage = .updating) (due : e.written.getLsbD t = false) (on : (getTile s t).dom.tk = .on) :
    exec (.roleUpdate t) s = .next (modEpoch (modNet s t (fun r =>
      if e.newEpoch then { r with bank1 := e.bank } else { r with bank0 := e.bank }))
      (fun e => { e with written := setBit e.written t true })) := by
  simp only [exec, execRoleUpdate, change, stage, due, on, beq_self_eq_true, Bool.not_false, Bool.and_self, if_true]

theorem roleUpdateAck_settles (stage : e.stage = .updating) (written : e.written.getLsbD t = true) (due : e.acked.getLsbD t = false) :
    exec (.roleUpdateAck t) s = .next (epochSettle (modEpoch s (fun e => { e with acked := setBit e.acked t true }))) := by
  simp only [exec, execRoleUpdateAck, change, stage, written, due, beq_self_eq_true, Bool.not_false, Bool.and_self, if_true]

theorem epochSwitch_switches (stage : e.stage = .switching) (due : e.switched.getLsbD t = false) (on : (getTile s t).dom.tk = .on) :
    exec (.epochSwitch t) s = .next (epochSettle (modEpoch (modNet s t (fun r => { r with svcEpoch := e.newEpoch }))
      (fun e => { e with switched := setBit e.switched t true }))) := by
  simp only [exec, execEpochSwitch, change, stage, due, on, beq_self_eq_true, Bool.not_false, Bool.and_self, if_true]

theorem epochSwitchAck_settles (stage : e.stage = .switching) (switched : e.switched.getLsbD t = true)
    (due : e.switchAcked.getLsbD t = false) (none_ : s.cases = []) :
    exec (.epochSwitchAck t) s = .next (epochSettle (modEpoch s (fun e => { e with switchAcked := setBit e.switchAcked t true }))) := by
  have still (f : Nat → Casement → Casement) (u : State) (h : u.cases = []) : { u with cases := mmap f u.cases } = u := by
    rw [h]
    exact congrArg (fun l => { u with cases := l }) h.symm
  simp only [exec, execEpochSwitchAck, change, stage, switched, due, beq_self_eq_true, Bool.not_false, Bool.and_self, if_true]
  exact congrArg (fun u => Host.Outcome.next (epochSettle u)) (still _ _ none_)

theorem drainQuery_reports (stage : e.stage = .draining) (due : mfind e.reports t = none) (on : (getTile s t).dom.tk = .on) :
    exec (.drainQuery t) s = .next (modEpoch s (fun f => { f with reports := mset f.reports t (if f.newEpoch
      then ((getTile s t).net.injected0, (getTile s t).net.ejected0)
      else ((getTile s t).net.injected1, (getTile s t).net.ejected1)) })) := by
  simp only [exec, execDrainQuery, change, stage, due, on, beq_self_eq_true, Option.isNone_none, Bool.and_self, if_true, modEpoch, modHub,
    Option.map_some]

theorem drainReport_asks (stage : e.stage = .draining) (here : (mfind e.reports t).isSome = true) (due : e.asked.getLsbD t = false) :
    exec (.drainReport t) s = .next (
      let e1 := { e with asked := setBit e.asked t true }
      let s1 := modHub s (fun h => { h with epoch := some e1 })
      if allIn (poweredRouters s) e1.asked then
        (if reportsEqual e1 then epochDrained s1 e1 else modEpoch s1 (fun e => { e with reports := [], asked := 0 }))
      else s1) := by
  simp only [exec, execDrainReport, change, stage, here, due, beq_self_eq_true, Bool.not_false, Bool.and_self, if_true]

end

/-! #### Shutters -/

theorem getShut_setShut (s : State) (i : ShutterId) (x : Shut) : getShut (setShut s i x) i = x := by
  cases i with
  | tile t => simp [getShut, setShut]
  | service p => simp [getShut, setShut]

theorem setShut_keeps (s : State) (i : ShutterId) (x : Shut) : (setShut s i x).cases = s.cases ∧ (setShut s i x).dev = s.dev := by
  cases i <;> exact ⟨rfl, rfl⟩

/-- Settles O51: the steps of a change at a router, and each shutter's transitions. -/
theorem epochAndShutterEventsTakeEffect : Obligations.EpochAndShutterEventsTakeEffect := by
  refine ⟨fun t s e change => ⟨roleUpdate_writes change, roleUpdateAck_settles change, epochSwitch_switches change,
    epochSwitchAck_settles change, drainQuery_reports change, ?_⟩, fun i s => ⟨fun st => ?_, fun st => ?_, fun st fence => ?_,
    fun st fence => ?_, fun st => ?_, rfl, fun x => ⟨getShut_setShut s i x, setShut_keeps s i x⟩, fun t tile st first => ?_,
    fun p service st first => ?_⟩⟩
  · intro stage here due e1 s1
    have asks := drainReport_asks change stage here due
    refine ⟨fun waits => ?_, fun all equal => ?_, fun all differ => ?_⟩
    · exact asks.trans (congrArg Host.Outcome.next (if_neg (Bool.eq_false_iff.mp waits)))
    · exact asks.trans (congrArg Host.Outcome.next ((if_pos all).trans (if_pos equal)))
    · exact asks.trans (congrArg Host.Outcome.next ((if_pos all).trans (if_neg (Bool.eq_false_iff.mp differ))))
  · simp only [exec, execShutter, st]
  · simp only [exec, execShutter, st]
  · simp only [exec, execShutterFenceHolds, st, fence, beq_self_eq_true, Bool.and_self, if_true]
  · simp only [exec, execShutterFenceHolds, fence, Bool.and_false, Bool.false_eq_true, if_false]
  · simp only [exec, execTcReady, st, beq_self_eq_true, if_true]
  · subst tile
    have closing : getShut s (.tile t) = .closing := st
    simp only [exec, execShutterStalled, closing, first, beq_self_eq_true, Bool.not_false, Bool.and_self, if_true]
    rfl
  · subst service
    have closing : getShut s (.service p) = .closing := st
    simp only [exec, execShutterStalled, closing, first, beq_self_eq_true, Bool.not_false, Bool.and_self, if_true]

/-! #### Descriptors -/

section
variable {q : Req} {s : State} (tile : netTile q ≤ 95) (idle : netBusy q s = false)
include tile idle

section
variable (good : dirty shRouterStatus q = false) (long : 64 ≤ q.d.length.toNat) (ok : q.io.bufOk = true)
include good long ok

theorem netRouterStatusBody_copies (clear : bitAt (dByte q.d 29) 0 = false) :
    netRouterStatusBody q s = (.done .ok 0, hostWrite s q.host q.d.addrA (routerStatusBytes s (netTile q))) := by
  unfold netRouterStatusBody
  rw [checked_pass (by
    rw [firstOf_cons_false (by rw [clear]; rfl), firstOf_cons_false (by simp [good, badTarget, short_false long, tile]),
      firstOf_cons_false idle]
    rfl)]
  simp only [clear, Bool.and_false, Bool.false_eq_true, if_false]
  exact replyCopy_ok ok

theorem netRouterStatusBody_clears (clear : bitAt (dByte q.d 29) 0 = true) (steward : isSteward q s = true) :
    netRouterStatusBody q s = (.done .ok 0, modNet (hostWrite s q.host q.d.addrA (routerStatusBytes s (netTile q))) (netTile q)
      (fun r => { r with replays := 0, stale := 0, drops := 0, bouncedShut := 0, bouncedMoved := 0, absorbed := 0, peak := 0 })) := by
  unfold netRouterStatusBody
  rw [checked_pass (by
    rw [firstOf_cons_false (by rw [clear, steward]; rfl), firstOf_cons_false (by simp [good, badTarget, short_false long, tile]),
      firstOf_cons_false idle]
    rfl)]
  simp only [clear, ok, Bool.and_self, if_true, replyCopy_ok ok]

end

omit tile idle in
theorem netRouterStatusBody_refuses (clear : bitAt (dByte q.d 29) 0 = true) (other : isSteward q s = false) :
    netRouterStatusBody q s = (.done .refusedOwnership 0, s) := by
  unfold netRouterStatusBody
  exact checked_fail (if_pos (by rw [clear, other]; rfl))

theorem netRoleReadBody_serves (good : dirty shRoleRead q = false) (bank : dByte q.d 29 ≤ 1) (some_ : 1 ≤ dW16 q.d 32)
    (last : dByte q.d 30 + dW16 q.d 32 ≤ 256) (long : 8 * dW16 q.d 32 ≤ q.d.length.toNat) (ok : q.io.bufOk = true) :
    netRoleReadBody q s = (.done .ok (dW16 q.d 32), hostWrite s q.host q.d.addrA ((List.range (dW16 q.d 32)).flatMap (fun i =>
      leBytes 8 (roleEntry (rtBank (getTile s (netTile q)).net (dByte q.d 29 == 1)) (dByte q.d 30 + i)).toNat))) := by
  unfold netRoleReadBody
  rw [checked_pass (by
    rw [firstOf_cons_false (by
      simp [good, badTarget, short_false long, tile, bank, show dW16 q.d 32 ≠ 0 by omega,
        show ¬ 256 < dByte q.d 30 + dW16 q.d 32 by omega]), firstOf_cons_false idle]
    rfl)]
  exact replyCopy_ok ok

theorem netProbeBody_serves (steward : isSteward q s = true) (good : dirty (netShape false false [(28, 1), (30, 1)]) q = false)
    (dest : dByte q.d 28 ≤ 95) (low : 1 ≤ dByte q.d 30) (high : dByte q.d 30 ≤ 3) :
    netProbeBody q s = (.later, modNet (modHub s (fun h => { h with probes := h.probes ++ [q] })) (netTile q) (fun r => { r with
      injectQ := r.injectQ ++ [mkPacket 0x27 r.svcEpoch (dByte q.d 30) (netTile q) 255 0 (dByte q.d 28) (probeData q)] })) := by
  unfold netProbeBody
  exact checked_pass (by
    rw [firstOf_cons_false (by rw [steward]; rfl), firstOf_cons_false (by
      simp [good, badTarget, tile, dest, high, show dByte q.d 30 ≠ 0 by omega]), firstOf_cons_false idle]
    rfl)

theorem netLinkRetrainBody_serves (steward : isSteward q s = true) (good : dirty (netShape false false [(29, 1)]) q = false)
    (port : dByte q.d 29 ≤ 3) (comesUp : Bool) : netLinkRetrainBody q comesUp s =
      if comesUp then (.done .ok 1, linkUp s (netTile q) (dByte q.d 29)) else (.done .ok 0, linkDown s (netTile q) (dByte q.d 29)) := by
  unfold netLinkRetrainBody
  exact checked_pass (by
    rw [firstOf_cons_false (by rw [steward]; rfl), firstOf_cons_false (by simp [good, badTarget, tile, port]), firstOf_cons_false idle]
    rfl)

end

/-- Settles O52: what each descriptor's body answers. -/
theorem networkDescriptorsTakeEffect : Obligations.NetworkDescriptorsTakeEffect := by
  intro q s0 s begins tile idle
  refine ⟨?_, fun good bank some_ last long ok op => ?_, fun steward good dest low high op => ?_,
    fun steward good port op => ⟨?_, ?_⟩⟩
  · intro good long ok copied
    refine ⟨fun keeps op => ?_, fun clear steward op => ?_, fun clear other op => ?_⟩
    · exact next_done begins op (by decide) (netRouterStatusBody_copies tile idle good long ok keeps) (by decide)
    · exact next_done begins op (by decide) (netRouterStatusBody_clears tile idle good long ok clear steward) (by decide)
    · exact next_done begins op (by decide) (netRouterStatusBody_refuses clear other) (by decide)
  · exact next_done begins op (by decide) (netRoleReadBody_serves tile idle good bank some_ last long ok) (by decide)
  · exact next_later begins op (by decide) (netProbeBody_serves tile idle steward good dest low high)
  · exact next_done begins op (by decide) (netLinkRetrainBody_serves tile idle steward good port true) (by decide)
  · exact next_done begins op (by decide) (netLinkRetrainBody_serves tile idle steward good port false) (by decide)

end Sys2Proof.Network
end

section
/-! ### Power descriptors -/

namespace Sys2Proof.Power

open Sys2Proof Sys2Proof.Machine Sys2Proof.Descriptors

section
variable {q : Req} {s : State} {k : Casement}

/-! #### PWR_STATE -/

/-- The state in which the casement's change waits. -/
def pwrAsked (q : Req) (s : State) : State := modCase s (dCase q.d) (fun k => { k with pwrWant := k.pwrWant ++ [(pwrTarget q, q)] })

section
variable (found : getCase s (dCase q.d) = some k)
include found

theorem getCase_pwrAsked : getCase (pwrAsked q s) (dCase q.d) = some { k with pwrWant := k.pwrWant ++ [(pwrTarget q, q)] } := by
  rw [pwrAsked, getCase_modCase_self, found]
  rfl

theorem pwrStateBody_goes (allowed : notAllowed q .poke s = false) (good : dirty shPwrState q = false) (target : dByte q.d 28 ≤ 2)
    (idle : pwrBusy q s = false) (open_ : pwrShut q s = false) : pwrStateBody q s = pwrStateGo q s := by
  have gone : goneCase q s = false := by simp [goneCase, found]
  unfold pwrStateBody
  exact checked_pass (by
    rw [firstOf_cons_false gone, firstOf_cons_false allowed, firstOf_cons_false (by rw [found, good]; simpa using target),
      firstOf_cons_false idle, firstOf_cons_false open_]
    rfl)

theorem pwrStateGo_same (same : pwrTarget q = k.pwr) (idle : k.pwrWant = []) :
    pwrStateGo q s = (.done .ok (caseCycle k s), s) := by
  simp [pwrStateGo, found, same, idle]

theorem pwrStateGo_run (run : pwrTarget q = .run) (differs : k.pwr ≠ .run) :
    pwrStateGo q s = (.later, wakeByCommand (pwrAsked q s) (dCase q.d)) := by
  simp [pwrStateGo, found, run, differs.symm, pwrAsked]

theorem pwrStateGo_entry (low : pwrTarget q ≠ .run) (change : pwrTarget q ≠ k.pwr ∨ k.pwrWant ≠ []) (out : k.pwr ≠ .hold) :
    pwrStateGo q s = beginEntry q (dCase q.d) k s := by
  have due : (pwrTarget q == k.pwr && k.pwrWant.isEmpty) = false := by
    rcases change with differs | waits
    · simp [differs]
    · simp [waits]
  simp only [pwrStateGo, found, due, beq_eq_false_iff_ne.mpr low, beq_eq_false_iff_ne.mpr out, Bool.false_eq_true, if_false]

omit found in
theorem beginEntry_running (running : k.st = .running) : beginEntry q (dCase q.d) k s =
    (.later, modCase (pwrAsked q s) (dCase q.d) (fun k => { k with pwrFrom := .running, halt := true })) := by
  simp [beginEntry, running, pwrAsked]

omit found in
theorem beginEntry_doze (stands : k.st ≠ .running) (idle : k.pwrWant = []) (doze : pwrTarget q = .doze) :
    beginEntry q (dCase q.d) k s = (.done .ok (caseCycle k s), enterDoze s (dCase q.d) .paused) := by
  simp [beginEntry, stands, idle, doze]

theorem beginEntry_hold (stands : k.st ≠ .running) (idle : k.pwrWant = []) (hold : pwrTarget q = .hold) (run : k.pwr = .run) :
    beginEntry q (dCase q.d) k s =
      (.later, modCase (pwrAsked q s) (dCase q.d) (fun k => { k with pwrFrom := .paused })) := by
  have entry : beginEntry q (dCase q.d) k s = (.later, modCase (pwrAsked q s) (dCase q.d) (fun k => { k with
      pwrFrom := if k.pwr == .run then .paused else k.pwrFrom })) := by
    simp [beginEntry, stands, idle, hold, pwrAsked]
  rw [entry, modCase, modCase, getCase_pwrAsked found]
  simp [run]

theorem wakeByCommand_asked (asleep : k.wake = false) : wakeByCommand (pwrAsked q s) (dCase q.d) =
    modCase (postWake (pwrAsked q s) 0) (dCase q.d) (fun k => { k with wake := true }) := by
  simp only [wakeByCommand, getCase_pwrAsked found, asleep, Bool.false_eq_true, if_false]

end

/-! #### The others -/

theorem pwrSleepBody_serves (steward : isSteward q s = true) (good : dirty shPwrSleep q = false) (idle : placementBusy s = false)
    (joined : ∀ p ∈ s.cases, p.2.isolated = false) :
    pwrSleepBody q s = (.later, sleepGo (haltAll (modDev s (fun d => { d with sleepReq := d.sleepReq ++ [q] })))) := by
  have none_ : s.cases.any (fun p => p.2.isolated) = false := by
    rw [List.any_eq_false]
    intro p hp
    simp [joined p hp]
  unfold pwrSleepBody
  exact checked_pass (by
    rw [firstOf_cons_false (by rw [steward]; rfl), firstOf_cons_false good, firstOf_cons_false (by rw [idle, none_]; rfl)]
    rfl)

theorem any_mmap {α : Type} (p : Nat × α → Bool) (f : Nat → α → α) (keeps : ∀ n x, p (n, f n x) = p (n, x)) (m : Map α) :
    (mmap f m).any p = m.any p := by
  simp [mmap, List.any_map, Function.comp_def, keeps]

theorem running_haltAll (s : State) : (haltAll s).cases.any (fun p => p.2.st == .running) = s.cases.any (fun p => p.2.st == .running) := by
  refine any_mmap (fun p => p.2.st == .running) (fun _ k => if k.st == .running then { k with halt := true } else k) (fun n k => ?_) s.cases
  dsimp only
  split <;> rfl

theorem sleepGo_waits (running : ∃ p ∈ s.cases, p.2.st = .running) : sleepGo (haltAll s) = haltAll s := by
  have runs : (haltAll s).cases.any (fun p => p.2.st == .running) = true := by
    rw [running_haltAll, List.any_eq_true]
    obtain ⟨p, hp, st⟩ := running
    exact ⟨p, hp, by rw [st]; rfl⟩
  unfold sleepGo
  split
  · rfl
  · exact if_pos runs

section
variable (steward : isSteward q s = true) (good : dirty shPwrReset q = false)
include steward good

theorem pwrResetBody_device (device : dByte q.d 28 = 2) (zero : dByte q.d 30 = 0) :
    pwrResetBody q s = (.done .ok 0, modDev s (fun d => { d with resetDue := some (d.now + 100000) })) := by
  unfold pwrResetBody
  rw [checked_pass (by
    rw [firstOf_cons_false (by rw [steward]; rfl), firstOf_cons_false (by simp [badPwrReset, good, device, zero]),
      firstOf_cons_false (by rw [device]; rfl)]
    rfl), device]
  rfl

theorem pwrResetBody_tile (tile : dByte q.d 28 = 6) (free : resettable s (dByte q.d 30) = true)
    (idle : testBusy s (dByte q.d 30) = false) : pwrResetBody q s = (.done .ok 0, tileReset s (dByte q.d 30)) := by
  unfold pwrResetBody
  rw [checked_pass (by
    rw [firstOf_cons_false (by rw [steward]; rfl), firstOf_cons_false (by simp [badPwrReset, good, tile, free]),
      firstOf_cons_false (by rw [idle, Bool.and_false])]
    rfl), tile]
  rfl

end

theorem pwrStatusBody_serves (good : dirty shPwrStatus q = false) (long : 128 ≤ q.d.length.toNat) (ok : q.io.bufOk = true) :
    pwrStatusBody q s = (.done .ok 0, hostWrite s q.host q.d.addrA (pwrStatusBytes s)) := by
  unfold pwrStatusBody
  rw [checked_pass (by rw [firstOf_cons_false (by rw [good, short_false long]; rfl)]; rfl)]
  exact replyCopy_ok ok

end

/-- Settles O53: what each descriptor's body answers. -/
theorem powerDescriptorsTakeEffect : Obligations.PowerDescriptorsTakeEffect := by
  intro q s0 s begins
  refine ⟨?_, ?_, fun steward good op => ⟨fun device zero => ?_, fun tile free idle => ?_⟩, fun good long ok op => ?_⟩
  · intro k found allowed good target idle open_ op asked
    have body := pwrStateBody_goes found allowed good target idle open_
    refine ⟨fun same idle => ?_, fun low change out running => ?_, fun doze run idle stands => ?_, fun hold run idle stands => ?_,
      fun run differs asleep => ?_⟩
    · exact next_done begins op (by decide) (body.trans (pwrStateGo_same found same idle)) (by decide)
    · exact next_later begins op (by decide)
        (body.trans ((pwrStateGo_entry found low change out).trans (beginEntry_running running)))
    · have entry := pwrStateGo_entry found (by rw [doze]; decide) (.inl (by rw [doze, run]; decide)) (by rw [run]; decide)
      exact next_done begins op (by decide) (body.trans (entry.trans (beginEntry_doze stands idle doze))) (by decide)
    · have entry := pwrStateGo_entry found (by rw [hold]; decide) (.inl (by rw [hold, run]; decide)) (by rw [run]; decide)
      exact next_later begins op (by decide) (body.trans (entry.trans (beginEntry_hold found stands idle hold run)))
    · have go := pwrStateGo_run found run differs
      rw [wakeByCommand_asked found asleep] at go
      exact next_later begins op (by decide) (body.trans go)
  · intro steward good idle joined op asked
    have body := pwrSleepBody_serves steward good idle joined
    refine ⟨fun running => ?_, fun _ => ?_⟩
    · rw [sleepGo_waits (s := modDev s (fun d => { d with sleepReq := d.sleepReq ++ [q] })) running] at body
      exact next_later begins op (by decide) body
    · exact next_later begins op (by decide) body
  · exact next_done begins op (by decide) (pwrResetBody_device steward good device zero) (by decide)
  · exact next_done begins op (by decide) (pwrResetBody_tile steward good tile free idle) (by decide)
  · exact next_done begins op (by decide) (pwrStatusBody_serves good long ok) (by decide)

end Sys2Proof.Power
end

section
/-! ### DOZE, HOLD, SLEEP and bank supplies -/

namespace Sys2Proof.LowPower

open Sys2Proof Sys2Proof.Machine Sys2Proof.Completions

/-! #### DOZE and HOLD of a casement -/

section
variable {c : CaseId} {s : State} {k : Casement} (found : getCase s c = some k)
include found

theorem backToRun_running (from_ : k.pwrFrom = .running) (old : Pwr) :
    backToRun s c old = postPwr (wakeRouters (modCase s c (fun k => { k with
      pwr := .run, wake := false, startUp := none, st := .running,
      halt := !s.dev.sleepReq.isEmpty || k.pwrWant.any (fun w => w.1 != .run) }))) c .run old := by
  simp only [backToRun, found, from_, beq_self_eq_true, if_true]

theorem getCase_modTiles (ts : List Nat) (f : Nat → Tile → Tile) : getCase (modTiles s ts f) c = some k := by
  unfold modTiles
  induction ts generalizing s with
  | nil => exact found
  | cons t ts ih => exact ih found

omit found in
theorem dev_modTiles (s : State) (ts : List Nat) (f : Nat → Tile → Tile) : (modTiles s ts f).dev = s.dev := by
  unfold modTiles
  induction ts generalizing s with
  | nil => rfl
  | cons t ts ih => exact ih (modTile s t (f t))

theorem dozeExit_runs (doze : k.pwr = .doze) (wake : k.wake = true) (stays : holdNext k = false) (awake : s.dev.sleep = .awake) :
    exec (.dozeExit c) s = .next (backToRun (modTiles s (tilesOf k.region) (fun _ x => { x with
      ct := { x.ct with tmrs := mmap (fun _ m => { m with since := s.dev.now }) x.ct.tmrs } })) c .doze) := by
  simp only [exec, execDozeExit, found, doze, wake, stays, awake, bne_self_eq_false, Bool.not_true, Bool.or_self, Bool.false_eq_true,
    if_false]

theorem holdEntry_begins (out : k.entering = false) (next : holdNext k = true) (paused : k.st = .paused) (up : k.pwr ≠ .hold) :
    exec (.holdEntry c) s = .next (if allShut (holdBegin s c k) (tilesOf k.region) then holdFinish (holdBegin s c k) c k
      else holdBegin s c k) := by
  simp only [exec, execHoldEntry, found, out, next, paused, beq_eq_false_iff_ne.mpr up, bne_self_eq_false, Bool.not_true,
    Bool.or_self, Bool.false_eq_true, if_false]

theorem holdEntry_goes_on (entering : k.entering = true) :
    exec (.holdEntry c) s = .next (if allShut s (tilesOf k.region) then holdFinish s c k else s) := by
  simp only [exec, execHoldEntry, found, entering, if_true]

theorem holdExit_answers (hold : k.pwr = .hold) (wake : k.wake = true) (awake : s.dev.sleep = .awake) (vio : List Nat) :
    exec (.holdExit c vio) s = .next (if k.startUp.isSome then holdGo s c else settleFabric s (settleTins (modCase
      ((tilesOf k.region).foldl (exitTile k.n vio) s) c (fun k => { k with startUp := some 0 })))) := by
  simp only [exec, execHoldExit, found, hold, wake, awake, bne_self_eq_false, Bool.not_true, Bool.or_self, Bool.false_eq_true, if_false]

end

theorem holdTile_routerOff {s : State} {t : Nat} (idle : routesThrough s t = false) (x : Tile) : (holdTile s t x).dom.tk = .off :=
  if_neg (by rw [idle]; decide)

/-! #### SLEEP -/

section
variable {P : Tile → Prop} {f : Nat → Tile → Tile} (every : ∀ v x, P (f v x))
include every

theorem getTile_modTiles_keeps (ts : List Nat) {s : State} {u : Nat} (holds : P (getTile s u)) : P (getTile (modTiles s ts f) u) := by
  unfold modTiles
  induction ts generalizing s with
  | nil => exact holds
  | cons t ts ih =>
    refine ih ?_
    by_cases same : u = t
    · subst same
      rw [getTile_modTile_self]
      exact every u _
    · rwa [getTile_modTile_ne _ _ same]

theorem getTile_modTiles_mem {ts : List Nat} (s : State) {u : Nat} (mem : u ∈ ts) : P (getTile (modTiles s ts f) u) := by
  induction ts generalizing s with
  | nil => nomatch mem
  | cons t ts ih =>
    rcases List.mem_cons.mp mem with rfl | later
    · refine getTile_modTiles_keeps every ts (s := modTile s u (f u)) ?_
      rw [getTile_modTile_self]
      exact every u _
    · exact ih (modTile s t (f t)) later

end

/-- The device with its ports reset and every tile as SLEEP leaves it. -/
def tilesAsleep (s : State) : State :=
  modTiles (portReset (portReset s false) true) allTiles (sleepTile (portReset (portReset s false) true))

/-- The device asleep, with its supplies off, over tiles that sleep. -/
def asleepOver (m : State) : State :=
  let m1 := modHub (modBsp m (fun b => bspOff b (recSeq m.rcd))) (fun h => hubOff h h.tenures)
  modDev (modLoad (modJnl m1 (fun _ => Journal.cold)) loaderIdle) (fun d => { d with
    sleep := .asleep, trunks := [], pcieA := .off, pcieB := .off, bspDom := .off, svc := .off })

theorem sleepPowerOff_asleep {s : State} (entering : s.dev.sleep = .entering) (due : s.dev.sleepAt.toNat + 100000 ≤ s.dev.now.toNat) :
    exec .sleepPowerOff s = .next (asleepOver (tilesAsleep s)) := by
  simp only [exec, execSleepPowerOff, entering, bne_self_eq_false, decide_eq_false (Nat.not_lt.mpr due), Bool.or_self,
    Bool.false_eq_true, if_false, asleepOver, tilesAsleep]

theorem domains_tilesAsleep (s : State) {u : Nat} (listed : u < 96) :
    (getTile (tilesAsleep s) u).dom = { bpa := .off, lf := .off, an := .off, io := .off, tk := .off } :=
  getTile_modTiles_mem (P := fun x => x.dom = { bpa := .off, lf := .off, an := .off, io := .off, tk := .off })
    (fun _ _ => rfl) (portReset (portReset s false) true) (List.mem_range.mpr listed)

/-- The facts that the statement lists, over any tiles whose domains are off. -/
theorem asleepOver_holds {m : State} (off : ∀ u : Nat, u < 96 →
    (getTile m u).dom = { bpa := .off, lf := .off, an := .off, io := .off, tk := .off }) :
    (asleepOver m).dev.sleep = .asleep ∧ (asleepOver m).dev.svc = .off ∧ (asleepOver m).dev.pcieA = .off ∧
    (asleepOver m).dev.pcieB = .off ∧ (asleepOver m).dev.bspDom = .off ∧ (asleepOver m).jnl = Journal.cold ∧
    ∀ u : Nat, u < 96 → (getTile (asleepOver m) u).dom = { bpa := .off, lf := .off, an := .off, io := .off, tk := .off } :=
  ⟨rfl, rfl, rfl, rfl, rfl, rfl, off⟩

theorem sleepAlarm_wakes {s : State} (sleeps : s.dev.sleep ≠ .awake) (unwoken : s.dev.wake = false) (set_ : s.dev.alarm ≠ 0)
    (due : s.dev.alarm.toNat ≤ s.dev.now.toNat) :
    exec .sleepAlarm s = .next (post (modDev s (fun d => { d with wake := true, lastWake := 2 })) 0x005 0 2 0xFF 0xFFFF) :=
  congrArg Host.Outcome.next (if_neg (by simpa [sleeps, unwoken] using And.intro set_ due))

/-! #### The wake -/

/-- What leads from `a` to `s` changes tiles and nothing else. -/
def TilesOnly (a s : State) : Prop := { s with tiles := a.tiles } = a

theorem TilesOnly.refl (s : State) : TilesOnly s s := rfl

theorem tilesOnly_classify {a s : State} (h : TilesOnly a s) (vio : List Nat) (t : Nat) : TilesOnly a (classify vio s t) := by
  unfold classify
  extract_lets v
  split
  · exact h
  · exact h

theorem tilesOnly_modTiles {a s : State} (h : TilesOnly a s) (ts : List Nat) (f : Nat → Tile → Tile) : TilesOnly a (modTiles s ts f) := by
  unfold modTiles
  induction ts generalizing s with
  | nil => exact h
  | cons t ts ih => exact ih (s := modTile s t (f t)) h

theorem tilesOnly_classifies {a s : State} (h : TilesOnly a s) (vio : List Nat) (ts : List Nat) :
    TilesOnly a (ts.foldl (classify vio) s) := by
  induction ts generalizing s with
  | nil => exact h
  | cons t ts ih => exact ih (tilesOnly_classify h vio t)

theorem hostSide_signalDeviceFault {a s : State} (h : HostSide a s) : HostSide a (signalDeviceFault s) := by
  unfold signalDeviceFault
  induction List.finRange 8 generalizing s with
  | nil => exact h
  | cons x xs ih => exact ih (hostSide_signalFault h x)

/-- The state with FAULT_N as the device's condition asks for it. -/
def faultShown (s : State) : State :=
  modDev s (fun d => { d with faultN := (faultCond s).1, faultCause := BitVec.ofNat 8 (faultCond s).2.1 })

theorem hostSide_settleFaultN (s : State) : HostSide (faultShown s) (settleFaultN s) := by
  have shown := HostSide.refl (faultShown s)
  unfold settleFaultN
  dsimp only
  split
  · exact hostSide_signalDeviceFault (hostSide_post shown ..)
  · exact hostSide_post shown ..
  · exact hostSide_signalDeviceFault shown
  · exact shown

/-- Every tile powered, with its bank's supply as measured. -/
def tilesAwake (vio : List Nat) (s : State) : State :=
  allTiles.foldl (classify vio) (modTiles s allTiles (fun _ x => { x with dom := Doms.cold }))

/-- The device awake, its supplies on and its casements empty, before FAULT_N follows. -/
def awakeOver (m : State) : State :=
  let m1 := modDev (modBsp m (fun b => { b with training := (linkSet b).1 != 0 })) (fun d => { d with
    sleep := .awake, wake := false, alarm := 0, wakeN := true, pcieA := .on, pcieB := .on, bspDom := .on, svc := .on })
  { m1 with cases := mmap (fun _ k => emptied k) m1.cases }

theorem tilesAwake_only (vio : List Nat) (s : State) : TilesOnly s (tilesAwake vio s) :=
  tilesOnly_classifies (tilesOnly_modTiles (TilesOnly.refl s) ..) ..

theorem sleepWake_wakes {s : State} (sleeps : s.dev.sleep = .asleep) (woken : s.dev.wake = true) (vio : List Nat) :
    exec (.sleepWake vio) s = .next (settleFaultN (awakeOver (tilesAwake vio s))) := by
  simp only [exec, execSleepWake, sleeps, woken, bne_self_eq_false, Bool.not_true, Bool.or_self, Bool.false_eq_true, if_false,
    awakeOver, tilesAwake]

section
variable {s m : State} (kept : TilesOnly s m)
include kept

theorem settled_awake_training : (settleFaultN (awakeOver m)).bsp.training = ((linkSet s.bsp).1 != 0) := by
  have settled : (settleFaultN (awakeOver m)).bsp = (awakeOver m).bsp := (congrArg State.bsp (hostSide_settleFaultN (awakeOver m)).rest :)
  have bsp : m.bsp = s.bsp := (congrArg State.bsp kept :)
  rw [settled, ← bsp]
  rfl

theorem settled_awake_case {c : Nat} {k : Casement} (found : getCase s c = some k) :
    getCase (settleFaultN (awakeOver m)) c = some (Casement.created k.owner k.region) := by
  have settled : (settleFaultN (awakeOver m)).cases = mmap (fun _ k => emptied k) m.cases :=
    (congrArg State.cases (hostSide_settleFaultN (awakeOver m)).rest :)
  have cases_ : m.cases = s.cases := (congrArg State.cases kept :)
  rw [getCase, settled, cases_, mfind_mmap, show mfind s.cases c = some k from found]
  rfl

omit kept in
theorem settled_awake_dev : (settleFaultN (awakeOver m)).dev = (faultShown (awakeOver m)).dev :=
  (congrArg State.dev (hostSide_settleFaultN (awakeOver m)).rest :)

/-- The facts that the statement lists, over any state that differs in its tiles alone. -/
theorem settled_awake_holds : (settleFaultN (awakeOver m)).dev.sleep = .awake ∧ (settleFaultN (awakeOver m)).dev.wake = false ∧
    (settleFaultN (awakeOver m)).dev.alarm = 0 ∧ (settleFaultN (awakeOver m)).dev.wakeN = true ∧
    (settleFaultN (awakeOver m)).dev.svc = .on ∧ (settleFaultN (awakeOver m)).dev.pcieA = .on ∧
    (settleFaultN (awakeOver m)).dev.pcieB = .on ∧ (settleFaultN (awakeOver m)).dev.bspDom = .on ∧
    (settleFaultN (awakeOver m)).bsp.training = ((linkSet s.bsp).1 != 0) ∧
    ∀ (c : Nat) (k : Casement), getCase s c = some k →
      getCase (settleFaultN (awakeOver m)) c = some (Casement.created k.owner k.region) := by
  rw [settled_awake_dev]
  exact ⟨rfl, rfl, rfl, rfl, rfl, rfl, rfl, rfl, settled_awake_training kept, fun c k found => settled_awake_case kept found⟩

end

/-- Settles O54: what each event does, and what the device holds asleep and awake. -/
theorem lowPowerEventsTakeEffect : Obligations.LowPowerEventsTakeEffect := by
  refine ⟨fun c s k found => ⟨?_, ?_, ?_, ?_, ?_⟩, ?_, ?_, ?_, ?_⟩
  · intro doze wake stays awake from_
    have back := backToRun_running (getCase_modTiles found (tilesOf k.region) (fun _ x => { x with
      ct := { x.ct with tmrs := mmap (fun _ m => { m with since := s.dev.now }) x.ct.tmrs } })) from_ .doze
    rw [dev_modTiles] at back
    rw [dozeExit_runs found doze wake stays awake, back]
  · intro out next paused up
    rw [holdEntry_begins found out next paused up]
    exact ⟨fun waits => by simp only [waits, Bool.false_eq_true, if_false], fun shut => by simp only [shut, if_true]⟩
  · intro entering
    rw [holdEntry_goes_on found entering]
    exact ⟨fun waits => by simp only [waits, Bool.false_eq_true, if_false], fun shut => by simp only [shut, if_true]⟩
  · intro hold wake awake vio
    rw [holdExit_answers found hold wake awake]
    exact ⟨fun fresh => by simp only [fresh, Option.isSome_none, Bool.false_eq_true, if_false],
      fun powered => by simp only [powered, Option.isSome_some, if_true]⟩
  · intro t x
    exact ⟨rfl, rfl, rfl, rfl, rfl, fun idle => holdTile_routerOff idle x, rfl, rfl, rfl⟩
  · intro s entering due
    exact ⟨_, sleepPowerOff_asleep entering due, asleepOver_holds fun u listed => domains_tilesAsleep s listed⟩
  · exact fun s sleeps unwoken set_ due => sleepAlarm_wakes sleeps unwoken set_ due
  · intro vio s sleeps woken
    exact ⟨_, sleepWake_wakes sleeps woken vio, settled_awake_holds (tilesAwake_only vio s)⟩
  · intro t s on supplied
    exact congrArg Host.Outcome.next (if_neg (by rw [on, supplied]; decide))

end Sys2Proof.LowPower
end

section
/-! ### COLD, PIN and DEVICE resets -/

namespace Sys2Proof.Resets

open Sys2Proof Sys2Proof.Machine Sys2Proof.Completions Sys2Proof.LowPower

/-! #### What the device holds during a reset -/

theorem getTile_deviceReset (s : State) (kind : InReset) (evs : List Ev) (u : Nat) :
    getTile (deviceReset s kind evs) u = coldTile (getTile s u) ∨ getTile (deviceReset s kind evs) u = Tile.cold ∧ getTile s u = Tile.cold := by
  show mget Tile.cold (mmap (fun _ x => coldTile x) s.tiles) u = coldTile (mget Tile.cold s.tiles u) ∨
    mget Tile.cold (mmap (fun _ x => coldTile x) s.tiles) u = Tile.cold ∧ mget Tile.cold s.tiles u = Tile.cold
  induction s.tiles with
  | nil => exact .inr ⟨rfl, rfl⟩
  | cons p r ih =>
    obtain ⟨j, x⟩ := p
    simp only [mmap, List.map_cons, mget]
    split
    · exact .inl rfl
    · exact ih

theorem tile_deviceReset (s : State) (kind : InReset) (evs : List Ev) (u : Nat) :
    (getTile (deviceReset s kind evs) u).cfg = [] ∧ (getTile (deviceReset s kind evs) u).bp = Tile.cold.bp ∧
    (getTile (deviceReset s kind evs) u).fab = Tile.cold.fab ∧
    (getTile (deviceReset s kind evs) u).cal.copyA = (getTile s u).cal.copyA ∧
    (getTile (deviceReset s kind evs) u).ctl.repairA = (getTile s u).ctl.repairA := by
  rcases getTile_deviceReset s kind evs u with present | ⟨absent, before⟩
  · rw [present]
    exact ⟨rfl, rfl, rfl, rfl, rfl⟩
  · rw [absent, before]
    exact ⟨rfl, rfl, rfl, rfl, rfl⟩

/-- What a reset of each kind leaves, from the state in which it begins. -/
theorem deviceReset_holds (m : State) (kind : InReset) (evs : List Ev) :
    (deviceReset m kind evs).dev.inReset = kind ∧ (deviceReset m kind evs).cases = [] ∧ (deviceReset m kind evs).hif.hosts = [] ∧
    (deviceReset m kind evs).hif.rings = [] ∧ (deviceReset m kind evs).hif.assign = [] ∧ (deviceReset m kind evs).hif.ready = false ∧
    (deviceReset m kind evs).jnl = Journal.cold ∧ (deviceReset m kind evs).dev.locks = 0 ∧
    (deviceReset m kind evs).dev.pinCase = [] ∧ (deviceReset m kind evs).dev.changed = 0 ∧
    (deviceReset m kind evs).dev.now = m.dev.now ∧ (deviceReset m kind evs).dev.keys = m.dev.keys ∧
    (deviceReset m kind evs).dev.rollA = m.dev.rollA ∧ (deviceReset m kind evs).dev.rollB = m.dev.rollB ∧
    (deviceReset m kind evs).rcd.slots = m.rcd.slots ∧ (deviceReset m kind evs).rcd.counts = m.rcd.counts ∧
    (deviceReset m kind evs).rcd.notify = [] ∧ (deviceReset m kind evs).rcd.design = [] ∧
    ∀ u : Nat, (getTile (deviceReset m kind evs) u).cfg = [] ∧ (getTile (deviceReset m kind evs) u).bp = Tile.cold.bp ∧
      (getTile (deviceReset m kind evs) u).fab = Tile.cold.fab ∧
      (getTile (deviceReset m kind evs) u).cal.copyA = (getTile m u).cal.copyA ∧
      (getTile (deviceReset m kind evs) u).ctl.repairA = (getTile m u).ctl.repairA :=
  ⟨rfl, rfl, rfl, rfl, rfl, rfl, rfl, rfl, rfl, rfl, rfl, rfl, rfl, rfl, rfl, rfl, rfl, rfl, tile_deviceReset m kind evs⟩

theorem pinReset_begins {s : State} (off : s.dev.inReset ≠ .cold) : exec .pinReset s = .next (deviceReset s .pin []) :=
  congrArg Host.Outcome.next (if_neg (by simpa using off))

theorem deviceReset_begins {s : State} {due : Time} (asked : s.dev.resetDue = some due) (passed : due.toNat ≤ s.dev.now.toNat)
    (none_ : s.dev.inReset = .none) : exec .deviceResetStart s = .next (deviceReset s .device []) :=
  congrArg Host.Outcome.next (if_pos (by simpa [asked, none_] using passed))

/-! #### Brown-outs -/

/-- The COLD reset with which MRAM is found as `harms` leave it. -/
def coldBegun (harms : List MramHarm) (s : State) : State :=
  deviceReset (harms.foldl harmMram s) .cold (brownOuts (harms.foldl harmMram s))

theorem coldReset_supplied {v : Supply} {mv : Nat} (enough : brownOutAt v ≤ mv) (harms : List MramHarm) (s : State) :
    exec (.coldReset (some (v, mv)) harms) s = .next s :=
  congrArg Host.Outcome.next (if_pos enough)

theorem coldReset_brownOut {v : Supply} {mv : Nat} (low : mv < brownOutAt v) (harms : List MramHarm) (s : State) :
    exec (.coldReset (some (v, mv)) harms) s = .next (modDev (coldBegun harms (noteBrownOut s v)) (fun d => { d with
      lastBrownOut := BitVec.ofNat 8 (supplyCode v) })) :=
  congrArg Host.Outcome.next (if_neg (Nat.not_le.mpr low))

theorem posted_harmMram (s : State) (x : MramHarm) : (harmMram s x).rcd.posted = s.rcd.posted := by
  cases x with
  | recUpset b => cases b <;> rfl
  | recCut =>
    unfold harmMram modRcd
    dsimp only
    split <;> rfl
  | _ => rfl

theorem posted_harms (harms : List MramHarm) (s : State) : (harms.foldl harmMram s).rcd.posted = s.rcd.posted := by
  induction harms generalizing s with
  | nil => rfl
  | cons x xs ih => exact (ih _).trans (posted_harmMram s x)

theorem noteBrownOut_posts {v : Supply} {s : State} (late : v = .vaux ∨ s.dev.inReset = .cold) :
    noteBrownOut s v = post s 0x002 0 (supplyCode v) 0 0 :=
  if_neg (by rcases late with rfl | cold <;> simp [*])

theorem noteBrownOut_writes {v : Supply} {s : State} (other : v ≠ .vaux) (running : s.dev.inReset ≠ .cold) :
    noteBrownOut s v = recWrite s true s.dev.now 0x002 0 (evArg (supplyCode v) 0 0) false false :=
  if_pos (by simp [other, running])

/-- The event of a brown-out that waits for the power-up is among those that the reset keeps. -/
theorem brownOut_kept (harms : List MramHarm) (s : State) (b0 b1 w : Nat) :
    mkEv s 0x002 0 (evArg b0 b1 w) false ∈ (coldBegun harms (post s 0x002 0 b0 b1 w)).rcd.posted := by
  have kept : (coldBegun harms (post s 0x002 0 b0 b1 w)).rcd.posted =
      (harms.foldl harmMram (post s 0x002 0 b0 b1 w)).rcd.posted.filter (fun e => e.code == 0x002) := rfl
  rw [kept, posted_harms]
  exact List.mem_filter.mpr ⟨List.mem_append_right _ (List.mem_singleton_self _), rfl⟩

/-! #### The end of a reset -/

/-- The device out of reset, before the end is posted, over tiles whose bank supplies have been measured. -/
def resetOver (sel : BitVec 2) (code : Nat) (m : State) : State :=
  modDev (modBsp (modHif m (fun f => { f with steward := stewardOf sel })) (fun b => { b with training := true })) (fun d => { d with
    inReset := .none, lastReset := BitVec.ofNat 8 code, lastResetAt := d.now })

/-- The tiles' bank supplies measured. -/
def measured (vio : List Nat) (s : State) : State := allTiles.foldl (classify vio) s

theorem measured_only (vio : List Nat) (s : State) : TilesOnly s (measured vio s) := tilesOnly_classifies (TilesOnly.refl s) ..

theorem resetEnd_warm {s : State} (warm : s.dev.inReset = .pin ∨ s.dev.inReset = .device ∧ s.dev.resetUntil.toNat ≤ s.dev.now.toNat)
    (sel : BitVec 2) (vio : List Nat) : exec (.resetEnd sel vio) s =
      .next (post (resetOver sel (resetCode s.dev.inReset) (measured vio s)) 0x001 0 (resetCode s.dev.inReset) 0xFF 0) := by
  have ends : (s.dev.inReset == .none || (s.dev.inReset == .device && decide (s.dev.now.toNat < s.dev.resetUntil.toNat))) = false := by
    rcases warm with pin | ⟨device, due⟩
    · rw [pin]
      rfl
    · rw [device, decide_eq_false (Nat.not_lt.mpr due)]
      rfl
  have kept : (s.dev.inReset == .cold) = false := by
    rcases warm with pin | ⟨device, -⟩ <;> simp only [*] <;> rfl
  simp only [exec, execResetEnd, ends, kept, Bool.false_eq_true, if_false, resetOver, measured]

theorem resetEnd_cold {s : State} (cold : s.dev.inReset = .cold) (sel : BitVec 2) (vio : List Nat) :
    exec (.resetEnd sel vio) s = .next (post (resetOver sel 0 (measured vio (powerUp s))) 0x001 0 0 0xFF 0) := by
  have ends : (s.dev.inReset == .none || (s.dev.inReset == .device && decide (s.dev.now.toNat < s.dev.resetUntil.toNat))) = false := by
    rw [cold]
    rfl
  simp only [exec, execResetEnd, ends, Bool.false_eq_true, if_false]
  simp only [cold, beq_self_eq_true, if_true, resetOver, measured, resetCode]

theorem resetCode_warm {r : InReset} (warm : r = .pin ∨ r = .device) : resetCode r = if r = .pin then 1 else 2 := by
  rcases warm with rfl | rfl <;> rfl

/-- The facts that the statement lists, over any state that differs in its tiles alone. -/
theorem resetOver_holds {s m : State} (kept : TilesOnly s m) (sel : BitVec 2) (code : Nat) :
    (resetOver sel code m).dev.inReset = .none ∧ (resetOver sel code m).dev.lastReset = BitVec.ofNat 8 code ∧
    (resetOver sel code m).dev.lastResetAt = s.dev.now ∧ (resetOver sel code m).hif.steward = stewardOf sel ∧
    (resetOver sel code m).bsp.training = true ∧
    (post (resetOver sel code m) 0x001 0 code 0xFF 0).rcd.posted = s.rcd.posted ++ [mkEv s 0x001 0 (evArg code 0xFF 0) false] := by
  have dev : m.dev = s.dev := (congrArg State.dev kept :)
  have rcd : m.rcd = s.rcd := (congrArg State.rcd kept :)
  refine ⟨rfl, rfl, congrArg Device.now dev, rfl, rfl, ?_⟩
  show m.rcd.posted ++ [mkEv m 0x001 0 (evArg code 0xFF 0) false] = _
  rw [rcd, mkEv, dev, mkEv]

/-- Settles O55: what begins each reset, what the device holds in it, and how it ends. -/
theorem deviceResetsTakeEffect : Obligations.DeviceResetsTakeEffect := by
  refine ⟨fun s harms => ?_, fun v mv harms s => ⟨fun enough => coldReset_supplied enough harms s, fun low => ?_⟩,
    fun sel vio s warm => ?_, fun sel vio s cold => ⟨_, resetEnd_cold cold sel vio, rfl, rfl⟩⟩
  · intro holds
    exact ⟨⟨coldBegun harms s, rfl, deviceReset_holds ..⟩, fun off => ⟨_, pinReset_begins off, deviceReset_holds ..⟩,
      fun due asked passed none_ => ⟨_, deviceReset_begins asked passed none_, deviceReset_holds ..⟩⟩
  · refine ⟨_, coldReset_brownOut low harms s, rfl, rfl, rfl, rfl, fun late => ?_, fun other running => ?_⟩
    · rw [noteBrownOut_posts late]
      exact brownOut_kept harms s (supplyCode v) 0 0
    · rw [noteBrownOut_writes other running]
      rfl
  · have code := resetCode_warm (warm.imp_right And.left)
    obtain ⟨inReset, last, lastAt, steward, training, posted⟩ := resetOver_holds (measured_only vio s) sel (resetCode s.dev.inReset)
    refine ⟨_, resetEnd_warm warm sel vio, inReset, last.trans ?_, lastAt, steward, training, posted.trans ?_⟩
    · rw [code]
      split <;> rfl
    · rw [code]

end Sys2Proof.Resets
end
